-- ==== Sys2Proof/Word.lean ====
section
/-! DEFINITION. The words of the TS-1836: the native 36-bit word, the 80-bit accumulator, bytes and registers
(R4, R45, Table 03-3). -/
namespace Sys2Proof

/-- One byte. -/
abbrev Byte := BitVec 8

/-- The native word of stalls, troughs, cisterns, stores and the yard (R45). It carries no format of its own. -/
abbrev Word := BitVec 36

/-- A register: every register is 32 bits wide (R4). -/
abbrev Reg32 := BitVec 32

/-- An accumulator, 80 bits (Table 03-3). -/
abbrev Acc := BitVec 80

/-- A complex half, s.17 (R45). -/
abbrev Half := BitVec 18

/-- The real half of a complex word, bits [35:18] (R45). -/
def Word.re (w : Word) : Half := w.extractLsb' 18 18

/-- The imaginary half of a complex word, bits [17:0] (R45). -/
def Word.im (w : Word) : Half := w.extractLsb' 0 18

/-- A complex word from its halves. -/
def Word.ofHalves (re im : Half) : Word := re ++ im

/-- The real half of an accumulator in the complex layout, bits [79:40] (Table 03-3). -/
def Acc.re (a : Acc) : BitVec 40 := a.extractLsb' 40 40

/-- The imaginary half of an accumulator in the complex layout, bits [39:0] (Table 03-3). -/
def Acc.im (a : Acc) : BitVec 40 := a.extractLsb' 0 40

/-- An accumulator from its complex halves. -/
def Acc.ofHalves (re im : BitVec 40) : Acc := re ++ im

end Sys2Proof
end

