-- ==== Sys2Proof/Syntax.lean ====
section
/-! DEFINITION. The commands and events of the TS-1836: one constructor per row of the table of operations and events,
with the operands the spec gives that row. -/
namespace Sys2Proof

/-- The fields of a rill step word that its opcode does not fix (Table 05-1): guard, operand codes and the M field. -/
structure RillFields where
  g : BitVec 3
  gn : Bool
  dst : BitVec 5
  sa : BitVec 5
  sb : BitVec 5
  m : BitVec 38
  deriving DecidableEq, Repr

/-- A rill step that does nothing: its opcode, and the fields beside it (R118). -/
structure IdleStep where
  op : BitVec 7
  fields : RillFields
  deriving DecidableEq, Repr

/-- A control message of the tether (Table 20-2). Firmware messages carry a header word and body words (Table 20-6); MARK,
HELLO and LANE are made and consumed by hardware; `relayed` marks one that a device passed on. -/
inductive TetherMsg where
  | mark (count : BitVec 64) (devid : BitVec 2) (host : Bool) (members : BitVec 4) (relayed : Bool)
  | hello (devid : BitVec 2) (host leader : Bool) (ringId : BitVec 8) (witnessed : BitVec 4) (relayed : Bool)
  | lane (lane : BitVec 2) (frame : BitVec 32)
  | firmware (header : BitVec 32) (body : List (BitVec 32))
  deriving DecidableEq, Repr

/-- What reaches the audio ports and tether in one sample interval: the words of PDM decimation chains before their DC blocker, the
microphones whose bit showed a transition, the ADC words and modulator overloads, the tether words that arrived for the interval, each as
(port, channel, word), the 64 bits captured from microphones, the first in bit 0, and the UTIL cycles since the last event that told the
time. A port's word that is neither listed nor fixed by its bits is a free value. -/
structure SampleInput where
  pdm : List (Fin 128 × BitVec 36)
  edges : BitVec 128
  adc : List (Fin 4 × BitVec 36)
  overload : BitVec 4
  tether : List (Fin 2 × Fin 512 × BitVec 36)
  bits : List (Fin 128 × BitVec 64) := []
  cycles : BitVec 64 := 0#64
  deriving DecidableEq, Repr

/-- A write of a register whose row is a command: the value, and the master that writes it and takes the response (Table 16-2). -/
structure MasterWrite where
  value : BitVec 32
  master : Fin 18
  deriving DecidableEq, Repr

/-- The limits that the host's configuration sets on the PCIe link (R346): Max_Payload_Size and Max_Read_Request_Size, each 128 bytes times
two to its value, the Completion Timeout value and Extended Tag Field Enable; `aerClear` are the AER error bits that it clears. -/
structure PciLimits where
  maxPayload : BitVec 3
  maxRead : BitVec 3
  timeout : BitVec 4
  extTags : Bool
  aerClear : BitVec 32 := 0#32
  deriving DecidableEq, Repr

/-- What the host's configuration of the PCIe function gives (R346, R372): its limits, MSI-X Enable and Function Mask. -/
structure PciSettings where
  limits : PciLimits
  msixOn : Bool
  funcMask : Bool
  deriving DecidableEq, Repr

/-- How the shadow of a basin lane ended (R456): its results agreed, or they differed and the lane's BIST passed, or failed. -/
inductive LaneCheck where
  | same
  | transient
  | fails
  deriving DecidableEq, Repr

/-- What stops the host interface (R349): the link going down, a hot reset, PERST_N, a Function Level Reset, or entry to D3hot. -/
inductive LinkStop where
  | down
  | hotReset
  | perst
  | flr
  | d3hot
  deriving DecidableEq, Repr

/-- A TAP instruction (R437, R514): BYPASS, IDCODE, MAILBOX, an access of the debug bridge in word space or in byte space, or another. -/
inductive TapInstr where
  | bypass
  | idcode
  | mailbox
  | wordSpace
  | byteSpace
  | other
  deriving DecidableEq, Repr

/-- An inbound PCIe request (R348): a read of `n` bytes, or a write of bytes, each with its byte enable. -/
inductive BarRequest where
  | read (n : Nat)
  | write (data : List (Option Byte))
  deriving DecidableEq, Repr

/-- What a failed read of host memory was to fetch (Table 15-4): a ring's descriptor, the data of a command (its opcode, its tag and
the byte offset in the buffer), audio-in samples, or the data of a transmit frame. -/
inductive HostRead where
  | descriptor (r : Fin 64)
  | command (opcode tag : BitVec 16) (offset : BitVec 32)
  | audio (a : Fin 8)
  | frame (p : Fin 3) (q : Fin 8)
  deriving DecidableEq, Repr

/-- What a slot command carries beside its operation's fields (Tables 07-1 and 07-2): whether it is the last slot command of its
bundle, the header's ATOMIC flag and reserved bits, and the slot's guard. -/
structure SlotHead where
  last : Bool
  atomic : Bool
  rsv : BitVec 2
  g : BitVec 4
  gn : Bool
  deriving DecidableEq, Repr

/-- A slot that does nothing, or whose opcode, of `n` bits, is unassigned (R185). -/
structure IdleSlot (n : Nat) where
  head : SlotHead
  op : BitVec n
  deriving DecidableEq, Repr

/-- The R form of the S slot (Table 07-4). -/
structure SlotR where
  d : BitVec 5
  a : BitVec 5
  b : BitVec 5
  sx : BitVec 14
  deriving DecidableEq, Repr

/-- The I form of the S slot. -/
structure SlotI where
  d : BitVec 5
  a : BitVec 5
  imm : BitVec 19
  deriving DecidableEq, Repr

/-- The B form of the S slot. -/
structure SlotB where
  d : BitVec 5
  off : BitVec 24
  deriving DecidableEq, Repr

/-- The single form of the M slot (Table 07-6). -/
structure MSingle where
  dr : BitVec 6
  a : BitVec 5
  pi : Bool
  off : BitVec 19
  deriving DecidableEq, Repr

/-- One access of the pair form of the M slot. -/
structure MPair where
  dr : BitVec 6
  a : BitVec 5
  inc : BitVec 4
  deriving DecidableEq, Repr

/-- The fields of a V-slot operation (Table 07-8). -/
structure VFields where
  mask : BitVec 3
  vd : BitVec 6
  va : BitVec 6
  vb : BitVec 6
  vc : BitVec 6
  x : BitVec 5
  deriving DecidableEq, Repr


/-- The commands and events of the block: one constructor per row of the table of operations and events. -/
inductive Instr where
  /-- The TICK block raises a sample tick after C core cycles (C + L in a lengthened interval), opening a new interval. (R21) -/
  | sampleTick (x : SampleInput)
  /-- Every F-th sample-tick boundary is a frame tick; the frame-tick counter increments and the frame-tick events of Table 02-2 run. (R22) -/
  | frameTick (cycles : BitVec 64)
  /-- At B - 64 of each frame tick the deadline monitor counts every uncompleted frame-table entry as missed and stops the engine. (R39) -/
  | deadlinePoint
  /-- The copy of the new active set into the shadow completes and STAGE_BUSY clears. (R93) -/
  | copyBackComplete (set : Fin 29)
  /-- The basin engine dispatches the next enabled unshed entry at B or after the previous stop, writing the trough address block and S1 to S3. (R133) -/
  | kernelDispatch (be : Fin 8)
  /-- A bundle with STOP set is the last of its kernel; the engine issues nothing more for that entry. (R135) -/
  | kernelStop (be : Fin 8)
  /-- A frame-table entry completes when its stop has issued and all its frame DMA transfers have finished. (R39) -/
  | entryComplete (be : Fin 8) (entry : Fin 64) (cycle : BitVec 24)
  /-- A frame DMA descriptor finishes its rows, writes DONE, counts itself and continues the chain when CHAIN is set. (R141) -/
  | dmaDescriptorDone (be : Fin 8) (ch : Fin 4)
  /-- The control core takes a pending enabled interrupt between bundles, saving EPC and ESTAT and fetching from CC_VBAR + cause × 0x40. (R157) -/
  | interruptEntry (nextAtomic : Bool)
  /-- In control profile a stop bundle halts issue until an interrupt is pending. (R158) -/
  | ccWait (atomic : Bool)
  /-- A write of CC_CACHE.INV starts invalidation of all 512 cache lines while fetch waits. (R153) -/
  | ccCacheInv (v : BitVec 32)
  /-- Invalidation of the execute-in-place cache completes after 512 UTIL cycles and INV_BUSY clears. (R153) -/
  | cacheInvalidationEnd
  /-- A write of BASIN_CTRL.PEAK_CLR clears BASIN_PEAK. (R160) -/
  | peakClr (be : Fin 9)
  /-- A write of 1 to a set's COMMIT commits the staged set with GROUP, subject to the group-mask and owning-block tests. (R245) -/
  | commit (set : Fin 29) (group : BitVec 4)
  /-- A write of g to SL_ABORT returns every unfixed committed set of group g to the uncommitted state. (R248) -/
  | slAbort (group : BitVec 4)
  /-- At frame tick D, once the request is accepted and G complete, the supervisor arms TICK_SWITCH and outputs start the ramp to zero. (R34) -/
  | modeChangeStart
  /-- After the 256-sample ramp down, at the switch tick C and F take new values, G swaps, troughs clear and frame tables restart. (R34) -/
  | switchTick (cycles : BitVec 64)
  /-- For a family change or exit from LISTEN, CORE moves to UTIL at the ramp-end boundary and the media PLL acquires, with no swap. (R34) -/
  | acquisitionSwitch (cycles : BitVec 64)
  /-- Two frames after S outputs begin the 256-sample linear ramp to full gain. (R34) -/
  | outputRampUpStart
  /-- When the ramp up ends the supervisor reports completion of the mode change. (R34) -/
  | modeComplete
  /-- When G is not complete within 1 s of acceptance the request is refused and G's committed sets return to uncommitted. (R33) -/
  | groupTimeout
  /-- When the PLL gate first opens after reset CORE starts, the first tick is the switch tick S and ENTERED becomes 1. (R36) -/
  | firstModeEntry (cycles : BitVec 64)
  /-- A weir steps toward its target at a source zero crossing or when TIMEOUT elapses without one. (R220) -/
  | weirStep (e : Fin 65536)
  /-- After N samples a fade ends; a faded-out entry contributes nothing and its bus claim may be released. (R223) -/
  | fadeEnd (e : Fin 65536)
  /-- Rill no-operation: its opcode is 0 or one that Tables 05-5 to 05-7 do not assign. (R118, R119) -/
  | rillNop (re : Fin 16) (x : IdleStep)
  /-- Rill D <- A. (R119) -/
  | rillMov (re : Fin 16) (f : RillFields)
  /-- Rill saturating add. (R119) -/
  | rillAdd (re : Fin 16) (f : RillFields)
  /-- Rill saturating subtract. (R119) -/
  | rillSub (re : Fin 16) (f : RillFields)
  /-- Rill saturating negate. (R119) -/
  | rillNeg (re : Fin 16) (f : RillFields)
  /-- Rill saturating absolute value. (R119) -/
  | rillAbs (re : Fin 16) (f : RillFields)
  /-- Rill signed minimum. (R119) -/
  | rillMin (re : Fin 16) (f : RillFields)
  /-- Rill signed maximum. (R119) -/
  | rillMax (re : Fin 16) (f : RillFields)
  /-- Rill bitwise AND. (R119) -/
  | rillAnd (re : Fin 16) (f : RillFields)
  /-- Rill bitwise OR. (R119) -/
  | rillOr (re : Fin 16) (f : RillFields)
  /-- Rill bitwise XOR. (R119) -/
  | rillXor (re : Fin 16) (f : RillFields)
  /-- Rill saturating left shift. (R119) -/
  | rillShl (re : Fin 16) (f : RillFields)
  /-- Rill rounded right shift under RS. (R119) -/
  | rillShr (re : Fin 16) (f : RillFields)
  /-- Rill select of A or B by predicate P[q]. (R119) -/
  | rillSel (re : Fin 16) (f : RillFields)
  /-- Rill per-half saturating complex add. (R119) -/
  | rillCadd (re : Fin 16) (f : RillFields)
  /-- Rill per-half saturating complex subtract. (R119) -/
  | rillCsub (re : Fin 16) (f : RillFields)
  /-- Rill complex conjugate. (R119) -/
  | rillConj (re : Fin 16) (f : RillFields)
  /-- Rill pack of two s.35 words into one complex word. (R119) -/
  | rillCpack (re : Fin 16) (f : RillFields)
  /-- Rill store of an accumulator in the real layout with CV. (R119) -/
  | rillMova (re : Fin 16) (f : RillFields)
  /-- Rill store of an accumulator in the complex layout with CV. (R119) -/
  | rillMovax (re : Fin 16) (f : RillFields)
  /-- Rill interpolated lookup in table q. (R98) -/
  | rillLut (re : Fin 16) (f : RillFields)
  /-- Rill predicate <- A = B. (R119) -/
  | rillCmpeq (re : Fin 16) (f : RillFields)
  /-- Rill predicate <- A < B signed. (R119) -/
  | rillCmplt (re : Fin 16) (f : RillFields)
  /-- Rill predicate <- A <= B signed. (R119) -/
  | rillCmple (re : Fin 16) (f : RillFields)
  /-- Rill predicate logic on two predicates. (R119) -/
  | rillPlog (re : Fin 16) (f : RillFields)
  /-- Rill load of a cistern tap into D. (R121) -/
  | rillLdc (re : Fin 16) (f : RillFields)
  /-- Rill store to a cistern tap, real layout. (R121) -/
  | rillStc (re : Fin 16) (f : RillFields)
  /-- Rill store to a cistern tap, complex layout. (R121) -/
  | rillStcx (re : Fin 16) (f : RillFields)
  /-- Rill load of a window word into D. (R121) -/
  | rillLdw (re : Fin 16) (f : RillFields)
  /-- Rill store to an output window word, real layout. (R121) -/
  | rillStw (re : Fin 16) (f : RillFields)
  /-- Rill store to an output window word, complex layout. (R121) -/
  | rillStwx (re : Fin 16) (f : RillFields)
  /-- Rill accumulator clear, a starting form ending any pin. (R121) -/
  | rillAclr (re : Fin 16) (f : RillFields)
  /-- Rill accumulator load, real layout, starting form. (R121) -/
  | rillLda (re : Fin 16) (f : RillFields)
  /-- Rill accumulator load, complex layout, starting form. (R121) -/
  | rillLdax (re : Fin 16) (f : RillFields)
  /-- Rill accumulator add, real, wrap. (R121) -/
  | rillAdda (re : Fin 16) (f : RillFields)
  /-- Rill accumulator add, real, clamp. (R121) -/
  | rillAddaC (re : Fin 16) (f : RillFields)
  /-- Rill accumulator add, complex, wrap. (R121) -/
  | rillAddax (re : Fin 16) (f : RillFields)
  /-- Rill accumulator add, complex, clamp. (R121) -/
  | rillAddaxC (re : Fin 16) (f : RillFields)
  /-- Rill MAC of SA × SB into an accumulator. (R123) -/
  | macr (re : Fin 16) (f : RillFields) (cx z nj am : Bool)
  /-- Rill MAC of SA × coefficient into an accumulator. (R123) -/
  | mack (re : Fin 16) (f : RillFields) (cx z nj am : Bool)
  /-- Rill MAC of a cistern word × coefficient into an accumulator. (R123) -/
  | macc (re : Fin 16) (f : RillFields) (cx z nj am : Bool)
  /-- Rill MAC of a window word × coefficient into an accumulator. (R123) -/
  | macw (re : Fin 16) (f : RillFields) (cx z nj am : Bool)
  /-- Rill tap MAC that also moves a linear-line tap to the next tap. (R125) -/
  | tapm (re : Fin 16) (f : RillFields) (z n am : Bool)
  /-- S-slot no-operation, or with an opcode other than 0 an unassigned SOP. (R169, R185) -/
  | snop (be : Fin 10) (x : IdleSlot 6)
  /-- S-slot register move. (R169) -/
  | basinMov (be : Fin 10) (h : SlotHead) (f : SlotR)
  /-- S-slot integer add. (R169) -/
  | basinAdd (be : Fin 10) (h : SlotHead) (f : SlotR)
  /-- S-slot integer subtract. (R169) -/
  | basinSub (be : Fin 10) (h : SlotHead) (f : SlotR)
  /-- S-slot add immediate. (R169) -/
  | addi (be : Fin 10) (h : SlotHead) (f : SlotI)
  /-- S-slot load immediate. (R169) -/
  | ldi (be : Fin 10) (h : SlotHead) (f : SlotI)
  /-- S-slot load high immediate. (R169) -/
  | ldih (be : Fin 10) (h : SlotHead) (f : SlotI)
  /-- S-slot bitwise AND. (R169) -/
  | basinAnd (be : Fin 10) (h : SlotHead) (f : SlotR)
  /-- S-slot bitwise OR. (R169) -/
  | basinOr (be : Fin 10) (h : SlotHead) (f : SlotR)
  /-- S-slot bitwise XOR. (R169) -/
  | basinXor (be : Fin 10) (h : SlotHead) (f : SlotR)
  /-- S-slot AND immediate. (R169) -/
  | andi (be : Fin 10) (h : SlotHead) (f : SlotI)
  /-- S-slot left shift modulo 2^36. (R169) -/
  | basinShl (be : Fin 10) (h : SlotHead) (f : SlotR)
  /-- S-slot logical right shift. (R169) -/
  | basinShr (be : Fin 10) (h : SlotHead) (f : SlotR)
  /-- S-slot arithmetic right shift. (R169) -/
  | sra (be : Fin 10) (h : SlotHead) (f : SlotR)
  /-- S-slot saturating s.35 add. (R169) -/
  | adds (be : Fin 10) (h : SlotHead) (f : SlotR)
  /-- S-slot saturating s.35 subtract. (R169) -/
  | subs (be : Fin 10) (h : SlotHead) (f : SlotR)
  /-- S-slot signed minimum. (R169) -/
  | basinMin (be : Fin 10) (h : SlotHead) (f : SlotR)
  /-- S-slot signed maximum. (R169) -/
  | basinMax (be : Fin 10) (h : SlotHead) (f : SlotR)
  /-- S-slot fractional multiply. (R169) -/
  | mulf (be : Fin 10) (h : SlotHead) (f : SlotR)
  /-- S-slot integer multiply. (R169) -/
  | muli (be : Fin 10) (h : SlotHead) (f : SlotR)
  /-- S-slot count of leading sign bits. (R169) -/
  | cls (be : Fin 10) (h : SlotHead) (f : SlotR)
  /-- S-slot compare equal to predicate. (R169) -/
  | basinCmpeq (be : Fin 10) (h : SlotHead) (f : SlotR)
  /-- S-slot signed less-than to predicate. (R169) -/
  | basinCmplt (be : Fin 10) (h : SlotHead) (f : SlotR)
  /-- S-slot unsigned less-than to predicate. (R169) -/
  | cmpltu (be : Fin 10) (h : SlotHead) (f : SlotR)
  /-- S-slot signed less-or-equal to predicate. (R169) -/
  | basinCmple (be : Fin 10) (h : SlotHead) (f : SlotR)
  /-- S-slot compare equal immediate. (R169) -/
  | cmpeqi (be : Fin 10) (h : SlotHead) (f : SlotI)
  /-- S-slot signed less-than immediate. (R169) -/
  | cmplti (be : Fin 10) (h : SlotHead) (f : SlotI)
  /-- S-slot predicate logic. (R169) -/
  | basinPlog (be : Fin 10) (h : SlotHead) (f : SlotR)
  /-- Move from a control register. (R167) -/
  | mfc (be : Fin 10) (h : SlotHead) (f : SlotR)
  /-- Move to a control register. (R167) -/
  | mtc (be : Fin 10) (h : SlotHead) (f : SlotR)
  /-- Set a lane mask register. (R169) -/
  | mset (be : Fin 10) (h : SlotHead) (f : SlotR)
  /-- Read a lane mask register. (R169) -/
  | mget (be : Fin 10) (h : SlotHead) (f : SlotR)
  /-- Branch with two delay slots. (R170) -/
  | br (be : Fin 10) (h : SlotHead) (f : SlotB)
  /-- Branch and link with two delay slots. (R170) -/
  | brl (be : Fin 10) (h : SlotHead) (f : SlotB)
  /-- Branch to a register address. (R170) -/
  | brr (be : Fin 10) (h : SlotHead) (f : SlotR)
  /-- Rotating loop branch updating LCNT, ECNT, rotation bases and P8. (R171) -/
  | brt (be : Fin 10) (h : SlotHead) (f : SlotB)
  /-- Control-profile software trap, cause 6. (R173) -/
  | trap (be : Fin 10) (h : SlotHead)
  /-- Control-profile return from exception. (R173) -/
  | rfe (be : Fin 10) (h : SlotHead)
  /-- M-slot no-operation, or with an opcode other than 0 an unassigned MOP. (R175, R185) -/
  | mnop (be : Fin 10) (x : IdleSlot 4)
  /-- Scalar load. (R175) -/
  | lds (be : Fin 10) (h : SlotHead) (f : MSingle)
  /-- Scalar store. (R175) -/
  | sts (be : Fin 10) (h : SlotHead) (f : MSingle)
  /-- Vector load of 8 aligned words. (R175) -/
  | ldv (be : Fin 10) (h : SlotHead) (f : MSingle)
  /-- Vector store of 8 aligned words. (R175) -/
  | stv (be : Fin 10) (h : SlotHead) (f : MSingle)
  /-- Load a word broadcast to every lane. (R175) -/
  | ldbc (be : Fin 10) (h : SlotHead) (f : MSingle)
  /-- Two vector loads. (R175) -/
  | ld2v (be : Fin 10) (h : SlotHead) (x1 x2 : MPair)
  /-- Two vector stores. (R175) -/
  | st2v (be : Fin 10) (h : SlotHead) (x1 x2 : MPair)
  /-- A vector load and a vector store. (R175) -/
  | lsv (be : Fin 10) (h : SlotHead) (x1 x2 : MPair)
  /-- Two scalar loads. (R175) -/
  | ld2s (be : Fin 10) (h : SlotHead) (x1 x2 : MPair)
  /-- Control-profile 32-bit byte-view load. (R175) -/
  | ldbv (be : Fin 10) (h : SlotHead) (f : MSingle)
  /-- Control-profile 32-bit byte-view store. (R175) -/
  | stbv (be : Fin 10) (h : SlotHead) (f : MSingle)
  /-- Control-profile byte load. (R175) -/
  | ldb8 (be : Fin 10) (h : SlotHead) (f : MSingle)
  /-- Control-profile byte store. (R175) -/
  | stb8 (be : Fin 10) (h : SlotHead) (f : MSingle)
  /-- V-slot no-operation, or with an opcode other than 0 an unassigned VOP. (R178, R185) -/
  | vnop (be : Fin 10) (x : IdleSlot 7)
  /-- Vector move. (R178) -/
  | vmov (be : Fin 10) (h : SlotHead) (f : VFields)
  /-- Vector saturating real add. (R178) -/
  | vadd (be : Fin 10) (h : SlotHead) (f : VFields)
  /-- Vector saturating real subtract. (R178) -/
  | vsub (be : Fin 10) (h : SlotHead) (f : VFields)
  /-- Vector per-half complex add. (R178) -/
  | vcadd (be : Fin 10) (h : SlotHead) (f : VFields)
  /-- Vector per-half complex subtract. (R178) -/
  | vcsub (be : Fin 10) (h : SlotHead) (f : VFields)
  /-- Vector complex conjugate. (R178) -/
  | vconj (be : Fin 10) (h : SlotHead) (f : VFields)
  /-- Vector negate, real or per half. (R178) -/
  | vneg (be : Fin 10) (h : SlotHead) (f : VFields)
  /-- Vector signed maximum. (R178) -/
  | vmax (be : Fin 10) (h : SlotHead) (f : VFields)
  /-- Vector signed minimum. (R178) -/
  | vmin (be : Fin 10) (h : SlotHead) (f : VFields)
  /-- Vector select by mask bit. (R178) -/
  | vsel (be : Fin 10) (h : SlotHead) (f : VFields)
  /-- Vector lane permutation. (R178) -/
  | vperm (be : Fin 10) (h : SlotHead) (f : VFields)
  /-- Broadcast a scalar to all lanes. (R178) -/
  | vbcast (be : Fin 10) (h : SlotHead) (f : VFields)
  /-- Extract a lane to a scalar. (R178) -/
  | vext (be : Fin 10) (h : SlotHead) (f : VFields)
  /-- Vector less-than into a mask. (R178) -/
  | vcmplt (be : Fin 10) (h : SlotHead) (f : VFields)
  /-- Vector less-or-equal into a mask. (R178) -/
  | vcmple (be : Fin 10) (h : SlotHead) (f : VFields)
  /-- Vector scale by a block exponent. (R183) -/
  | vscale (be : Fin 10) (h : SlotHead) (f : VFields)
  /-- Block-exponent headroom search. (R183) -/
  | vnorm (be : Fin 10) (h : SlotHead) (f : VFields)
  /-- Vector squared magnitude. (R178) -/
  | vabs2 (be : Fin 10) (h : SlotHead) (f : VFields)
  /-- Vector scaled reciprocal. (R184) -/
  | vrcp (be : Fin 10) (h : SlotHead) (f : VFields)
  /-- Vector real MAC. (R179) -/
  | vmac (be : Fin 10) (h : SlotHead) (f : VFields)
  /-- Vector complex MAC. (R179) -/
  | vcmac (be : Fin 10) (h : SlotHead) (f : VFields)
  /-- Vector complex conjugate MAC. (R179) -/
  | vcmacj (be : Fin 10) (h : SlotHead) (f : VFields)
  /-- Vector tap MAC with lane shift of VA. (R179) -/
  | vtapm (be : Fin 10) (h : SlotHead) (f : VFields)
  /-- Vector real multiply with store. (R179) -/
  | vmulr (be : Fin 10) (h : SlotHead) (f : VFields)
  /-- Vector complex multiply with store. (R179) -/
  | vcmulr (be : Fin 10) (h : SlotHead) (f : VFields)
  /-- Vector conjugate complex multiply with store. (R179) -/
  | vcmuljr (be : Fin 10) (h : SlotHead) (f : VFields)
  /-- Store a vector accumulator, real layout. (R179) -/
  | vsta (be : Fin 10) (h : SlotHead) (f : VFields)
  /-- Store a vector accumulator, complex layout. (R179) -/
  | vstax (be : Fin 10) (h : SlotHead) (f : VFields)
  /-- Load a vector accumulator, real, starting form. (R179) -/
  | vlda (be : Fin 10) (h : SlotHead) (f : VFields)
  /-- Load a vector accumulator, complex, starting form. (R179) -/
  | vldax (be : Fin 10) (h : SlotHead) (f : VFields)
  /-- Clear a vector accumulator, starting form. (R179) -/
  | vaclr (be : Fin 10) (h : SlotHead) (f : VFields)
  /-- Adaptive filter-word update. (R184) -/
  | vnlmsu (be : Fin 10) (h : SlotHead) (f : VFields)
  /-- Twiddle multiply from the twiddle table. (R181) -/
  | vtw (be : Fin 10) (h : SlotHead) (f : VFields)
  /-- Radix-4 butterfly. (R182) -/
  | vbf4 (be : Fin 10) (h : SlotHead) (f : VFields)
  /-- A write of a rill program step is refused with PROG_REJECT when its page is in use. (R74) -/
  | programStoreWrite (master : Fin 18) (re : Fin 17) (word : Fin 98304) (data : BitVec 36)
  /-- A write to a basin code half is refused with CODE_REJECT when the half is in use. (R146) -/
  | codeStoreWrite (master : Fin 18) (be : Fin 9) (word : BitVec 16) (data : BitVec 36)
  /-- A write to a staged region of an engine or table window writes the shadow, or is refused with WIN_ERR in the active view, when busy or on a parked-only spare. (R89) -/
  | engineWindowWrite (master : Fin 18) (off : BitVec 23) (data : BitVec 36)
  /-- A word-space yard access by a master is admitted or refused by bank ownership and performed with ECC. (R383) -/
  | yardWordAccess (master : Fin 18) (w : BitVec 23) (wr : Option (BitVec 36))
  /-- A byte-view write merges bytes into bits [31:0] and fills [35:32] by EXT, with unaligned accesses split under R378. (R377) -/
  | yardByteWrite (master : Fin 18) (o : BitVec 25) (data : List Byte)
  /-- A corrected word is written back in the next cycle that no master uses the bank. (R380) -/
  | correctedWordWriteBack (w : BitVec 23)
  /-- Every SCRUB_PERIOD UTIL cycles the scrubber reads one row of every bank. (R381) -/
  | scrubRow (row : BitVec 16)
  /-- A tack-room access is admitted only for the control core and the debug master in BLANK and DEVELOP, and writes are refused while WLOCK is 1. (R390) -/
  | tackRoomAccess (master : Fin 18) (o : BitVec 14) (size : Fin 3) (wr : Option (BitVec 32))
  /-- A write of 1 to TACK_CTRL.WLOCK locks tack-room writes until a wipe or reset. (R391) -/
  | wlock (v : BitVec 32)
  /-- A filtered falling edge of TAMPER_N starts a tack-room wipe and raises an event. (R392) -/
  | tamper
  /-- A tack-room wipe completes after 1,024 UTIL cycles and clears WLOCK. (R392) -/
  | tackWipeEnd
  /-- An access with no target returns an error, zero for reads, and records MEM_DEC_ADDR. (R394) -/
  | defaultTargetAccess (master : Fin 18) (addr : BitVec 32) (word write : Bool)
  /-- A write of MEM_BANK_OWNER.OWNER requests a handover, refusing the old owner's new requests. (R385) -/
  | memBankOwnerWrite (master : Fin 18) (b : Fin 32) (v : BitVec 32)
  /-- When the old owner's accepted accesses drain, CUR takes the new owner and held requests are served. (R385) -/
  | handoverComplete (b : Fin 32)
  /-- The clear of all banks and the tack room ends and held accesses proceed. (R389) -/
  | wakeClearEnd
  /-- Setting a PDM_CLK_EN bit claims the clock pin and starts the clock at a low phase. (R251) -/
  | pdmClkEnWrite (v : BitVec 32)
  /-- After SETTLE ms the decimator starts writing the decimated signal. (R252) -/
  | pdmSettleEnd (m : Fin 128)
  /-- A microphone with no transition for STUCK_WIN ms is flagged stuck and optionally muted. (R255) -/
  | pdmStuck (m : Fin 128)
  /-- The PGA steps 1 dB toward its target at a sign change or 10 ms after its last step. (R258) -/
  | pgaStep (i : Fin 4)
  /-- A MICBIAS drawing over 5 mA for 1 ms switches off and sets BIAS_SHORT. (R259) -/
  | biasShort (i : Fin 4)
  /-- A TDM_CTRL write sets enables with configuration checks and claims pins, refusing other field changes while enabled. (R264) -/
  | tdmCtrlWrite (p : Fin 4) (v : MasterWrite)
  /-- A TDM_FRAME write is performed only while the port is disabled. (R264) -/
  | tdmFrameWrite (p : Fin 4) (v : MasterWrite)
  /-- A received TDM frame completes and its slots are written to stalls in the next interval. (R265) -/
  | tdmRxFrame (p : Fin 4) (slots : List (BitVec 32)) (phase : BitVec 16)
  /-- A slave FS edge at a wrong count sets FS_ERR and starts a new frame. (R266) -/
  | tdmFsEdge (p : Fin 4)
  /-- With no FS edge for 1 ms a slave port sets CLK_LOST and writes zero to its receive stalls. (R266) -/
  | clkLost (p : Fin 4)
  /-- The DLL locks once its capture tap has held for 16 frames. (R267) -/
  | dllLock (p : Fin 4) (tap : BitVec 6)
  /-- After the ratio holds within 100 ppm for 100 ms the port locks and fades in. (R270) -/
  | asrcLock (p : Fin 4) (ratio : BitVec 32)
  /-- A ratio change over 1 % in 10 ms or CLK_LOST unlocks the port. (R270) -/
  | asrcUnlock (p : Fin 4)
  /-- A write to a media PLL configuration register restarts acquisition when EN is 1, or stops the PLL. (R284) -/
  | mpllConfigWrite (k : Fin 4) (v : BitVec 32)
  /-- When the lock count reaches 256 the state becomes LOCKED and the gate opens. (R285) -/
  | mpllLock (ctrl : BitVec 10)
  /-- A frequency-monitor window above 1.08 × F_NOM ends acquisition with OVER. (R287) -/
  | mpllOver
  /-- When lock is not reached within TIMEOUT acquisition ends in FAIL. (R288) -/
  | mpllTimeout
  /-- Reference or lock loss in LOCKED freezes the loop and enters HOLDOVER. (R289) -/
  | holdover (refLoss : Bool)
  /-- A returning reference within tolerance for 256 periods ends HOLDOVER back to LOCKED. (R290) -/
  | resumed
  /-- A write to MNCO_ADJ sets the clamped steering target, refused while the servo owns it. (R280) -/
  | mncoAdjWrite (v : MasterWrite)
  /-- Every 366 UTIL cycles ADJ_NOW moves 1,024 units toward the written value. (R280) -/
  | adjSlewStep
  /-- A write to MNCO_FW_HI applies the 48-bit FW at once. (R284) -/
  | mncoFwHiWrite (v : BitVec 32)
  /-- Missing XO edges for 10 µs or utility PLL unlock assert FAULT_N and cause a warm reset. (R277) -/
  | clockFault
  /-- Setting MCLK_EN or WCLK_EN claims the pin and starts the clock output. (R296) -/
  | clkoutCtrlWrite (v : BitVec 32)
  /-- An ETH_CTRL write sets enables with partition checks and claims, refusing configuration changes while enabled. (R302) -/
  | ethCtrlWrite (p : Fin 3) (v : MasterWrite)
  /-- A write of ETH_MDIO_CMD starts one MDIO transaction or is refused with MDIO_ERR. (R305) -/
  | ethMdioCmdWrite (p : Fin 2) (v : BitVec 32)
  /-- An MDIO transaction ends, BUSY clears and read data stands in ETH_MDIO_DATA. (R305) -/
  | mdioComplete (p : Fin 2) (data : BitVec 16)
  /-- The link goes up or down, setting LINK_CHG and holding or aborting frames. (R303) -/
  | linkChange (p : Fin 3) (up : Bool) (speed : BitVec 2) (full : Bool)
  /-- At a frame boundary the MAC starts the highest eligible queue's head frame. (R307) -/
  | txFrameStart (p : Fin 3) (cycles : BitVec 64) (deferred : Bool) (emptied : Option (BitVec 14))
  /-- A half-duplex collision causes backoff and retry, or discard after 16 attempts or late. (R310) -/
  | collision (p : Fin 3) (late : Bool)
  /-- The collision backoff of r slot times expires and the frame is retried. (R310) -/
  | backoffEnd (p : Fin 3)
  /-- A TX descriptor from the ring is fetched and its frame or segmented send is queued. (R370) -/
  | txDescriptor (p : Fin 3) (q : Fin 8) (desc data : List Byte) (failed : Bool)
  /-- A received frame is classified by the filters, admitted, checked and delivered, dropped or passed to the stream engine. (R314) -/
  | rxFrame (p : Fin 3) (frame : List Byte) (align code : Bool) (cycles : BitVec 64) (descs : List (List Byte))
  /-- A write of ETH_FILT_C applies the held filter fields between frames. (R315) -/
  | ethFiltCWrite (p : Fin 3) (f : Fin 32) (v : BitVec 32)
  /-- A write of ETH_TXTS_STAT.POP removes the oldest timestamp entry. (R318) -/
  | txtsPop (p : Fin 3)
  /-- After LPI_IDLE µs of empty queues the transmit path enters LPI. (R320) -/
  | lpiEntry (p : Fin 2)
  /-- After HOLD seconds of low utilisation the port saves the advertisement and renegotiates down. (R321) -/
  | downshift (p : Fin 2)
  /-- High utilisation, a reservation or clearing DS_EN restores the advertisement and renegotiates. (R321) -/
  | downshiftReturn (p : Fin 2)
  /-- At each 64-wire-sample cycle boundary the T1S sends its downlink frame and plays the uplinks received. (R326) -/
  | t1sAudioCycle
  /-- A received uplink audio frame is kept for the next cycle, or dropped as duplicate or unknown. (R329) -/
  | t1sUplinkFrame
  /-- TIME_SET_CMD.LOAD sets TIME to the step value. (R333) -/
  | timeLoad
  /-- TIME_SET_CMD.ADD adds signed TIME_SET_NS to TIME. (R333) -/
  | timeAdd
  /-- A capture channel records TIME at each event of its source. (R334) -/
  | timeCapture (c : Fin 4) (cycles : BitVec 64)
  /-- A compare channel fires when TIME reaches its compare time, pulsing TIME_OUT and reloading. (R334) -/
  | timeCompare (k : Fin 2) (cycles : BitVec 64)
  /-- TIME_OUTk falls after WIDTH µs. (R334) -/
  | comparePulseEnd (k : Fin 2)
  /-- Setting a capture or compare EN claims the channel and its pin. (R334) -/
  | timeCapCfgWrite (cmp : Bool) (c : Fin 4) (v : BitVec 32)
  /-- A stream register write is refused while EN is 1, and an enable is refused on bad configuration. (R340) -/
  | stxCtrlWrite (rx : Bool) (i : Fin 64) (o : Fin 8) (v : MasterWrite)
  /-- At tick M + P a TX stream builds a packet from the template and queues it. (R341) -/
  | streamTxPacket (i : Fin 64)
  /-- A STREAM frame is matched to an RX stream and its samples placed on their ticks. (R342) -/
  | streamRxPacket
  /-- No accepted packet for LOSS_MS puts the RX stream in LOST. (R343) -/
  | streamLoss (i : Fin 64)
  /-- An inbound BAR0 or BAR4 request enters the crossbar as host DMA or is aborted. (R348) -/
  | barRequest (bar : Fin 4) (off : BitVec 25) (req : BarRequest)
  /-- Link-down, hot reset, PERST_N, FLR or D3hot stops the host interface and disables every ring. (R349) -/
  | hostLinkDown (why : LinkStop)
  /-- A doorbell write advances a ring's PI, or is ignored with RING_ERR. (R351) -/
  | doorbell (r : Fin 64) (v : BitVec 32) (fromCore : Bool) (descs : List (List Byte))
  /-- A RING_CFG write enables a ring, resetting PI and CI, or starts its disable. (R353) -/
  | ringCfgWrite (r : Fin 64) (v : MasterWrite)
  /-- After a disable, started work completes and STOPPED is set. (R353) -/
  | ringStopped (r : Fin 64)
  /-- A failed device read of host memory sets CPL_ERR or CTO with the effect of Table 15-4. (R355) -/
  | hostReadError (what : HostRead) (timeout : Bool)
  /-- Command that does nothing. (R358) -/
  | nopCommand (opcode tag : BitVec 16)
  /-- Command that writes the identity record to host memory. (R358) -/
  | identify (tag : BitVec 16) (addr : BitVec 64)
  /-- Command that copies words from the host buffer to word space. (R358) -/
  | loadWords (tag : BitVec 16) (arg0 len : BitVec 32) (addr : BitVec 64) (data : List Byte)
  /-- Command that copies words from word space to the host buffer. (R358) -/
  | readWords (tag : BitVec 16) (arg0 len : BitVec 32) (addr : BitVec 64)
  /-- Command that copies bytes from the host buffer to the yard byte view. (R358) -/
  | loadBytes (tag : BitVec 16) (arg0 len : BitVec 32) (addr : BitVec 64) (data : List Byte)
  /-- Command that copies yard or flash bytes to the host buffer. (R358) -/
  | readBytes (tag : BitVec 16) (arg0 len : BitVec 32) (addr : BitVec 64)
  /-- Command that commits every named set in one CORE cycle with a group. (R360) -/
  | commitCommand (tag : BitVec 16) (mask : BitVec 64) (group : BitVec 4) (wait : Bool)
  /-- A WAIT commit's completion is written after the frame tick at which the last accepted set swaps. (R360) -/
  | commitWaitCompletion
  /-- Command that writes a group's SL_GMASK. (R358) -/
  | groupMask (tag : BitVec 16) (arg0 arg1 : BitVec 32) (group : BitVec 4)
  /-- Command that writes SL_ABORT. (R358) -/
  | abortGroup (tag : BitVec 16) (group : BitVec 4)
  /-- Command that passes a mode, STANDBY or SAFE request to the supervisor. (R361) -/
  | modeSet (tag : BitVec 16) (mode : BitVec 3) (family : Bool) (group : BitVec 4)
  /-- Command that checks and passes a policy table to the supervisor. (R444) -/
  | policyLoad (tag : BitVec 16) (len : BitVec 32) (addr : BitVec 64) (data : List Byte)
  /-- Command that programs 16-byte granules in a slot region. (R358) -/
  | flashProgram (tag : BitVec 16) (arg0 len : BitVec 32) (addr : BitVec 64) (data : List Byte)
  /-- Command that erases 64 KiB blocks in a slot region. (R358) -/
  | flashErase (tag : BitVec 16) (arg0 len : BitVec 32)
  /-- Command that writes its completion then enters warm reset. (R358) -/
  | resetCommand (tag : BitVec 16) (arg0 : BitVec 32)
  /-- At each AIN period start, the period's descriptor data plays or the period plays zero with LATE. (R367) -/
  | ainPeriodStart (a : Fin 8)
  /-- Once descriptor d is produced and period d - 2 has begun its data is fetched. (R367) -/
  | ainDescriptorFetch (a : Fin 8) (data : List Byte)
  /-- At each AOUT period end the captured samples are written back, or discarded with OVERRUN. (R368) -/
  | aoutPeriodEnd (a : Fin 8) (desc : List Byte)
  /-- When MOD µs have passed, gathered ring events are sent as one message. (R372) -/
  | moderationEnd (r : Fin 64)
  /-- A HOST_CTRL write sets LOCAL only while every ring is disabled. (R373) -/
  | hostCtrlWrite (v : MasterWrite)
  /-- A write of SYS_IRQ_HOST_ACK resends the aggregator message when a host source is still pending. (R509) -/
  | irqAck
  /-- A write of CSP_CTRL.ROLE switches role and claims pins, refused while busy or selected. (R398) -/
  | cspRole (v : BitVec 32)
  /-- A write of CSP_M_LEN.START runs one master sequence, or is refused with CFG_REJECT. (R404) -/
  | cspStart (v : BitVec 32)
  /-- A master sequence ends, BUSY clears and M_DONE is set. (R404) -/
  | mDone (rx : List (BitVec 8))
  /-- A write of CSP_M_FIFO pushes 4 bytes to the TX FIFO, resuming a paused clock. (R402) -/
  | cspFifoPush (v : BitVec 32) (sent : Fin 65)
  /-- A read of CSP_M_FIFO pops 4 bytes from the RX FIFO, resuming a paused clock. (R402) -/
  | cspFifoPop (rx : List (BitVec 8))
  /-- Assertion of CSP_SEL_N starts a slave selection and applies pending CSP_SL_CFG changes. (R405) -/
  | cspSelNAssert
  /-- A complete 32-bit host word is taken as a command, data or filler word and answered in the next word time. (R407) -/
  | cspSlaveWord (v : BitVec 32) (ready : Bool)
  /-- Release of CSP_SEL_N ends the selection, discarding any partial word with FRAME_ERR. (R412) -/
  | cspSelNRelease (partialWord : Bool)
  /-- A write of BOOT_CTRL.STARTED stops the start watchdog and clears BOOT_FAILCNT. (R426) -/
  | bootStarted
  /-- A write of BOOT_CTRL.CONFIRM on a trial image programs CONFIRMED and retires the older slot. (R427) -/
  | bootConfirm
  /-- The start watchdog expires without STARTED and causes a warm reset. (R426) -/
  | startTimeout
  /-- A keyed write of BOOT_SAFE_REQ with a valid reason causes a warm reset into SAFE. (R430) -/
  | bootSafeReq (v : BitVec 32)
  /-- A write of BOOT_RUN.GO in SAFE checks a yard image and starts it, or sets RUN_ERR. (R433) -/
  | bootGo (offset : BitVec 25)
  /-- A keyed write of BOOT_LC_REQ records a pending life-cycle request for the next reset. (R435) -/
  | bootLcReq (v : BitVec 32)
  /-- A write of DBG_CTL.REQ causes a warm reset in which stage 0 checks the unlock response. (R438) -/
  | dbgReq (key : BitVec 2)
  /-- BOOT_OTP_CMD.PROG_HASH programs a key hash from DBG_RESP0-7 into OTP. (R439) -/
  | progHash (k : Fin 4)
  /-- BOOT_OTP_CMD.REVOKE revokes key k, refused for the running image's key. (R439) -/
  | revoke (k : Fin 4)
  /-- FL_CMD operation 1 programs one 16-byte granule, refused when protected, not erased or misaligned. (R416) -/
  | programGranule (master : Fin 18)
  /-- FL_CMD operation 2 erases one 64 KiB block, refused when protected or misaligned. (R416) -/
  | eraseBlock (master : Fin 18)
  /-- A flash program or erase ends, setting DONE and releasing waiting fetches. (R416) -/
  | flashOperationDone (failed : Bool)
  /-- Every PERIOD_MS the supervisor samples monitors and advances each rule's state. (R445) -/
  | policyEvaluation (temps : List (BitVec 12))
  /-- After FAR_PERIOD the spare moves to shadow the next running role and starts its copy phase. (R452) -/
  | shadowRotate (basin : Bool)
  /-- Once memories are copied, registers are copied at C - 60 and lockstep starts at the next frame tick. (R453) -/
  | shadowCopyEnd (basin : Bool)
  /-- A basin target never IDLE for a FAR_PERIOD ends its shadow with SKIPPED. (R454) -/
  | skipped
  /-- After 2,048 intervals BIST ends and its outcome schedules a takeover, retirement or restart. (R455) -/
  | bistEnd (basin activePass sparePass : Bool)
  /-- Each FAR_PERIOD the spare lane moves to the next lane, and a failed lane is remapped at a frame tick. (R456) -/
  | laneShadow (be : Fin 8) (check : LaneCheck)
  /-- A CE rate over the limit, a UE or FAR_BANK_REQ starts migrating a bank to a spare with mirrored writes. (R457) -/
  | bankMigrationStart (b : Fin 32) (cause : Fin 3)
  /-- After the last row is copied PHYS changes at B - 8 of the next frame tick and the old bank is retired. (R457) -/
  | bankRemap (b : Fin 32)
  /-- A write of FAR_INIT.APPLY applies a journalled retirement before the first mode. (R463) -/
  | farApply (v : BitVec 32)
  /-- Every 16 frame ticks hardware sends HELLO on each port. (R472) -/
  | tetherHello
  /-- A received control message is delivered to TETH_MSG_RX, forwarded, or dropped as duplicate or unknown. (R473) -/
  | tetherMessageReceive (p : Fin 2) (m : TetherMsg) (phase : BitVec 32)
  /-- A write to TETH_MSG_TX adds a header or body word; the last word queues the message for sending. (R473) -/
  | tethMsgTxWrite (header : Bool) (v : BitVec 32)
  /-- A read of TETH_MSG_RX returns the next word of the oldest message and removes it when done. (R473) -/
  | tethMsgRxRead (master : Fin 18)
  /-- A tether lane mismatch, error rate or lock loss sends LANE and moves traffic to the spare. (R466) -/
  | laneFail (p : Fin 2) (lane : Fin 5)
  /-- Receipt of LANE moves the named transmit lane to the spare at the frame tick it names. (R466) -/
  | laneMessage (p : Fin 2) (lane : BitVec 2) (frame : BitVec 32)
  /-- A write of TETH_SYNC_CTL.GO arms a hardware commit of group g for frame tick T, or sets SYNC_LATE. (R476) -/
  | syncGo (v : BitVec 32)
  /-- In the cycle after B - 24 of frame tick T - 1 hardware commits every set of group g. (R476) -/
  | syncCommit
  /-- At the frame tick J when HELLO is exchanged over a restored link, authority is re-evaluated and realignment may follow. (R477) -/
  | rejoin (p : Fin 2)
  /-- VBAT and main rails rise from OFF and a power-on reset is held. (R487) -/
  | powerOn (io : BitVec 3)
  /-- A RESET_N pulse of 1 µs or more causes a warm reset with reason 0x13. (R489) -/
  | resetN
  /-- A fault-threshold crossing or low PWR_GOOD for over 1 µs pulls FAULT_N low and resets. (R482) -/
  | railFault
  /-- A droop-threshold crossing is counted for the RAIL monitor. (R482) -/
  | railDroop (r : Fin 5)
  /-- 16 UTIL cycles after UTIL lock reset is released and the control core fetches from 0. (R489) -/
  | resetRelease
  /-- A keyed write of PWR.STBY_REQ mutes, stops clocks and powers down ports, or is refused without a wake source. (R483) -/
  | stbyReq (v : BitVec 32)
  /-- 1 ms after the STANDBY write PWR_ON goes low and the main rails fall. (R483) -/
  | pwrOnFall
  /-- A WAKE pin edge or RTC match raises PWR_ON and starts a wake reset. (R485) -/
  | wake (edge : Option Bool) (timer : Bool)
  /-- A write of PWR_RTC_SEC sets the seconds and clears SUB. (R513) -/
  | pwrRtcSecWrite (v : BitVec 32)
  /-- A GPIO_CFG write with EN claims the pin for GPIO, or is refused and recorded in SYS_CONFLICT. (R497) -/
  | gpioCfgWrite (i : Fin 124) (v : BitVec 32)
  /-- A write of GPIO_SETk sets OUT of the named pins. (R500) -/
  | gpioSet (k : Fin 4) (v : BitVec 32)
  /-- A write of GPIO_CLRk clears OUT of the named pins. (R500) -/
  | gpioClr (k : Fin 4) (v : BitVec 32)
  /-- A selected edge on a pin sets its GPIO_IRQ bit. (R500) -/
  | gpioEdge (i : Fin 124) (level : Bool)
  /-- A keyed control-core write of TICK_SWITCH arms the mode switch, or is ignored with MASTER_ERR. (R511) -/
  | tickSwitch (v : BitVec 32) (master : Fin 18)
  /-- A JTAG bridge access performs one aligned word access as the debug master. (R514) -/
  | debugBridgeAccess (what : TapInstr) (addr : BitVec 32) (wr : Option (BitVec 32))
  /-- A write to a register with no row of its own is decoded and performed under the field types. (R504) -/
  | registerWrite (master : Fin 18) (off : BitVec 24) (size : Fin 3) (v : BitVec 32)
  /-- In LOCKED before CORE has returned to the media PLL, a reference cycle that fails the lock test closes the gate again and restarts the lock count. (R286) -/
  | mpllGateClose
  /-- The PCIe link trains to L0 and the host interface raises the LINK_UP event. (R363) -/
  | hostLinkUp (speed width : BitVec 2) (limits : PciLimits) (msixOn funcMask : Bool)
  /-- A tether port's lanes gain lock and its link comes up, so that MARK and HELLO can flow and a ring can form or rejoin. (R472) -/
  | tetherLinkUp (p : Fin 2) (lanes : BitVec 5)
  /-- TAMPER_N returns high and tack-room accesses, blocked while it was low, are admitted again. (R392) -/
  | tamperRelease
  /-- The PHY signals receive LPI from the link partner, which shows in LPI_RX and is counted in RX_LPI. (R320) -/
  | lpiRx (p : Fin 2) (on : Bool)
  /-- A transmitted frame finishes on the wire; its descriptor is written back and, with TS_REQ, a timestamp entry is added or lost. (R318) -/
  | txFrameEnd (p : Fin 3) (cycles : BitVec 64)
  /-- A witness bitmap expires 500 ms after the supervisor wrote it, and a partition relying on it loses authority and becomes frozen. (R475) -/
  | witnessExpiry
  /-- After FAR_PERIOD a tether port's spare lane moves on to mirror the next data lane. (R466) -/
  | spareLaneRotate (p : Fin 2)
  /-- A wake latched during STANDBY entry raises PWR_ON again after it has been low for 10 ms. (R486) -/
  | latchedWake
  deriving DecidableEq, Repr

end Sys2Proof
end

