-- ==== Sys2Proof/Decode.lean ====
section
/-! DEFINITION. The command that a word spells by the bits of the table of operations and events (none: no row of that table gives
bits, log entry 2), and the encodings the spec itself gives: the 64-bit step word of a rill engine (Tables 05-1 to 05-7) and the
128-bit bundle of a basin engine or the control core (Tables 07-1 to 07-10), each with its decoder and its encoder. -/
namespace Sys2Proof

/-- The command spelled by the `_nbits` low bits of `_w`: none. -/
def decodeTableWord (_nbits _w : Nat) : Option Instr := none

/-! ### Rill step words -/

/-- The fields of a step word that its opcode does not fix (Table 05-1). -/
def stepFields (w : BitVec 64) : RillFields :=
  { g := w.extractLsb' 54 3, gn := w.getLsbD 53, dst := w.extractLsb' 48 5, sa := w.extractLsb' 43 5, sb := w.extractLsb' 38 5,
    m := w.extractLsb' 0 38 }

/-- A step word with opcode `op` and the fields `f`. -/
def stepWord (op : BitVec 7) (f : RillFields) : BitVec 64 := op ++ f.g ++ BitVec.ofBool f.gn ++ f.dst ++ f.sa ++ f.sb ++ f.m

/-- A MAC, by FORM in OP[5:4] and CX, Z, N/J and AM in OP[3:0] (Table 05-7). -/
def decodeMac (re : Fin 16) (op : BitVec 7) (f : RillFields) : Instr :=
  let cx := op.getLsbD 3
  let z := op.getLsbD 2
  let nj := op.getLsbD 1
  let am := op.getLsbD 0
  match (op.extractLsb' 4 2).toNat with
  | 0 => .macr re f cx z nj am
  | 1 => .mack re f cx z nj am
  | 2 => .macc re f cx z nj am
  | _ => .macw re f cx z nj am

/-- The operation of an opcode below 0x38 (Tables 05-5 and 05-6); an unassigned one is the no-operation (R118). -/
def decodeRillPlain (re : Fin 16) (op : BitVec 7) (f : RillFields) : Instr :=
  match op.toNat with
  | 0x01 => .rillMov re f
  | 0x02 => .rillAdd re f
  | 0x03 => .rillSub re f
  | 0x04 => .rillNeg re f
  | 0x05 => .rillAbs re f
  | 0x06 => .rillMin re f
  | 0x07 => .rillMax re f
  | 0x08 => .rillAnd re f
  | 0x09 => .rillOr re f
  | 0x0A => .rillXor re f
  | 0x0B => .rillShl re f
  | 0x0C => .rillShr re f
  | 0x0D => .rillSel re f
  | 0x0E => .rillCadd re f
  | 0x0F => .rillCsub re f
  | 0x10 => .rillConj re f
  | 0x11 => .rillCpack re f
  | 0x12 => .rillMova re f
  | 0x13 => .rillMovax re f
  | 0x14 => .rillLut re f
  | 0x18 => .rillCmpeq re f
  | 0x19 => .rillCmplt re f
  | 0x1A => .rillCmple re f
  | 0x1B => .rillPlog re f
  | 0x20 => .rillLdc re f
  | 0x21 => .rillStc re f
  | 0x22 => .rillStcx re f
  | 0x23 => .rillLdw re f
  | 0x24 => .rillStw re f
  | 0x25 => .rillStwx re f
  | 0x28 => .rillAclr re f
  | 0x29 => .rillLda re f
  | 0x2A => .rillLdax re f
  | 0x2C => .rillAdda re f
  | 0x2D => .rillAddaC re f
  | 0x2E => .rillAddax re f
  | 0x2F => .rillAddaxC re f
  | _ => .rillNop re ⟨op, f⟩

/-- The command of the step word `w` on engine `re`: MAC for OP 0x40 to 0x7F, TAPM for 0x38 to 0x3F (R123, R125), and Tables 05-5
and 05-6 below that. -/
def decodeRill (re : Fin 16) (w : BitVec 64) : Instr :=
  let op := w.extractLsb' 57 7
  let f := stepFields w
  if op.getLsbD 6 then decodeMac re op f
  else if 0x38 ≤ op.toNat then .tapm re f (op.getLsbD 2) (op.getLsbD 1) (op.getLsbD 0)
  else decodeRillPlain re op f

/-- Whether OP is the no-operation or unassigned (Table 05-4). -/
def rillOpIdle (op : BitVec 7) : Bool := match decodeRill 0 (stepWord op ⟨0, false, 0, 0, 0, 0⟩) with
  | .rillNop _ _ => true
  | _ => false

/-- OP of a MAC: 0x40 + 16 FORM + 8 CX + 4 Z + 2 N/J + AM (R123). -/
def macOp (form : BitVec 2) (cx z nj am : Bool) : BitVec 7 :=
  1#1 ++ form ++ BitVec.ofBool cx ++ BitVec.ofBool z ++ BitVec.ofBool nj ++ BitVec.ofBool am

/-- OP of TAPM: 0x38 + 4 Z + 2 N + AM (R125). -/
def tapmOp (z n am : Bool) : BitVec 7 := 7#4 ++ BitVec.ofBool z ++ BitVec.ofBool n ++ BitVec.ofBool am

/-- The step word of a rill step; none of any other command. -/
def encodeRill : Instr → Option (BitVec 64)
  | .rillNop _ ⟨op, f⟩ => some (stepWord op f)
  | .macr _ f cx z nj am => some (stepWord (macOp 0 cx z nj am) f)
  | .mack _ f cx z nj am => some (stepWord (macOp 1 cx z nj am) f)
  | .macc _ f cx z nj am => some (stepWord (macOp 2 cx z nj am) f)
  | .macw _ f cx z nj am => some (stepWord (macOp 3 cx z nj am) f)
  | .tapm _ f z n am => some (stepWord (tapmOp z n am) f)
  | .rillMov _ f => some (stepWord 0x01 f)
  | .rillAdd _ f => some (stepWord 0x02 f)
  | .rillSub _ f => some (stepWord 0x03 f)
  | .rillNeg _ f => some (stepWord 0x04 f)
  | .rillAbs _ f => some (stepWord 0x05 f)
  | .rillMin _ f => some (stepWord 0x06 f)
  | .rillMax _ f => some (stepWord 0x07 f)
  | .rillAnd _ f => some (stepWord 0x08 f)
  | .rillOr _ f => some (stepWord 0x09 f)
  | .rillXor _ f => some (stepWord 0x0A f)
  | .rillShl _ f => some (stepWord 0x0B f)
  | .rillShr _ f => some (stepWord 0x0C f)
  | .rillSel _ f => some (stepWord 0x0D f)
  | .rillCadd _ f => some (stepWord 0x0E f)
  | .rillCsub _ f => some (stepWord 0x0F f)
  | .rillConj _ f => some (stepWord 0x10 f)
  | .rillCpack _ f => some (stepWord 0x11 f)
  | .rillMova _ f => some (stepWord 0x12 f)
  | .rillMovax _ f => some (stepWord 0x13 f)
  | .rillLut _ f => some (stepWord 0x14 f)
  | .rillCmpeq _ f => some (stepWord 0x18 f)
  | .rillCmplt _ f => some (stepWord 0x19 f)
  | .rillCmple _ f => some (stepWord 0x1A f)
  | .rillPlog _ f => some (stepWord 0x1B f)
  | .rillLdc _ f => some (stepWord 0x20 f)
  | .rillStc _ f => some (stepWord 0x21 f)
  | .rillStcx _ f => some (stepWord 0x22 f)
  | .rillLdw _ f => some (stepWord 0x23 f)
  | .rillStw _ f => some (stepWord 0x24 f)
  | .rillStwx _ f => some (stepWord 0x25 f)
  | .rillAclr _ f => some (stepWord 0x28 f)
  | .rillLda _ f => some (stepWord 0x29 f)
  | .rillLdax _ f => some (stepWord 0x2A f)
  | .rillAdda _ f => some (stepWord 0x2C f)
  | .rillAddaC _ f => some (stepWord 0x2D f)
  | .rillAddax _ f => some (stepWord 0x2E f)
  | .rillAddaxC _ f => some (stepWord 0x2F f)
  | _ => none

/-! ### Slots of a bundle -/

/-- The R, I and B forms of the S slot (Table 07-4). -/
def slotROf (w : BitVec 40) : SlotR :=
  { d := w.extractLsb' 24 5, a := w.extractLsb' 19 5, b := w.extractLsb' 14 5, sx := w.extractLsb' 0 14 }
def slotIOf (w : BitVec 40) : SlotI := { d := w.extractLsb' 24 5, a := w.extractLsb' 19 5, imm := w.extractLsb' 0 19 }
def slotBOf (w : BitVec 40) : SlotB := { d := w.extractLsb' 24 5, off := w.extractLsb' 0 24 }

/-- The single and pair forms of the M slot (Table 07-6). -/
def mSingleOf (w : BitVec 40) : MSingle :=
  { dr := w.extractLsb' 25 6, a := w.extractLsb' 20 5, pi := w.getLsbD 19, off := w.extractLsb' 0 19 }
def mFirstOf (w : BitVec 40) : MPair := { dr := w.extractLsb' 25 6, a := w.extractLsb' 20 5, inc := w.extractLsb' 16 4 }
def mSecondOf (w : BitVec 40) : MPair := { dr := w.extractLsb' 10 6, a := w.extractLsb' 5 5, inc := w.extractLsb' 1 4 }

/-- The fields of the V slot (Table 07-8). -/
def vFieldsOf (w : BitVec 44) : VFields :=
  { mask := w.extractLsb' 29 3, vd := w.extractLsb' 23 6, va := w.extractLsb' 17 6, vb := w.extractLsb' 11 6,
    vc := w.extractLsb' 5 6, x := w.extractLsb' 0 5 }

/-- The guard of each slot (Table 07-2), with what the header gives. -/
def headS (last atomic : Bool) (rsv : BitVec 2) (w : BitVec 40) : SlotHead := ⟨last, atomic, rsv, w.extractLsb' 30 4, w.getLsbD 29⟩
def headM (last atomic : Bool) (rsv : BitVec 2) (w : BitVec 40) : SlotHead := ⟨last, atomic, rsv, w.extractLsb' 32 4, w.getLsbD 31⟩
def headV (last atomic : Bool) (rsv : BitVec 2) (w : BitVec 44) : SlotHead := ⟨last, atomic, rsv, w.extractLsb' 33 4, w.getLsbD 32⟩

/-- The S-slot command with opcode `op`, head `h` and slot word `w` (Table 07-5); an unassigned SOP stays one (R185). -/
def decodeS (be : Fin 10) (h : SlotHead) (op : BitVec 6) (w : BitVec 40) : Instr :=
  match op.toNat with
  | 0x01 => .basinMov be h (slotROf w)
  | 0x02 => .basinAdd be h (slotROf w)
  | 0x03 => .basinSub be h (slotROf w)
  | 0x04 => .addi be h (slotIOf w)
  | 0x05 => .ldi be h (slotIOf w)
  | 0x06 => .ldih be h (slotIOf w)
  | 0x07 => .basinAnd be h (slotROf w)
  | 0x08 => .basinOr be h (slotROf w)
  | 0x09 => .basinXor be h (slotROf w)
  | 0x0A => .andi be h (slotIOf w)
  | 0x0B => .basinShl be h (slotROf w)
  | 0x0C => .basinShr be h (slotROf w)
  | 0x0D => .sra be h (slotROf w)
  | 0x0E => .adds be h (slotROf w)
  | 0x0F => .subs be h (slotROf w)
  | 0x10 => .basinMin be h (slotROf w)
  | 0x11 => .basinMax be h (slotROf w)
  | 0x12 => .mulf be h (slotROf w)
  | 0x13 => .muli be h (slotROf w)
  | 0x14 => .cls be h (slotROf w)
  | 0x18 => .basinCmpeq be h (slotROf w)
  | 0x19 => .basinCmplt be h (slotROf w)
  | 0x1A => .cmpltu be h (slotROf w)
  | 0x1B => .basinCmple be h (slotROf w)
  | 0x1C => .cmpeqi be h (slotIOf w)
  | 0x1D => .cmplti be h (slotIOf w)
  | 0x1E => .basinPlog be h (slotROf w)
  | 0x20 => .mfc be h (slotROf w)
  | 0x21 => .mtc be h (slotROf w)
  | 0x22 => .mset be h (slotROf w)
  | 0x23 => .mget be h (slotROf w)
  | 0x28 => .br be h (slotBOf w)
  | 0x29 => .brl be h (slotBOf w)
  | 0x2A => .brr be h (slotROf w)
  | 0x2B => .brt be h (slotBOf w)
  | 0x2C => .trap be h
  | 0x2D => .rfe be h
  | _ => .snop be ⟨h, op⟩

/-- The M-slot command (Table 07-7). -/
def decodeM (be : Fin 10) (h : SlotHead) (op : BitVec 4) (w : BitVec 40) : Instr :=
  match op.toNat with
  | 0x1 => .lds be h (mSingleOf w)
  | 0x2 => .sts be h (mSingleOf w)
  | 0x3 => .ldv be h (mSingleOf w)
  | 0x4 => .stv be h (mSingleOf w)
  | 0x5 => .ldbc be h (mSingleOf w)
  | 0x6 => .ld2v be h (mFirstOf w) (mSecondOf w)
  | 0x7 => .st2v be h (mFirstOf w) (mSecondOf w)
  | 0x8 => .lsv be h (mFirstOf w) (mSecondOf w)
  | 0x9 => .ld2s be h (mFirstOf w) (mSecondOf w)
  | 0xA => .ldbv be h (mSingleOf w)
  | 0xB => .stbv be h (mSingleOf w)
  | 0xC => .ldb8 be h (mSingleOf w)
  | 0xD => .stb8 be h (mSingleOf w)
  | _ => .mnop be ⟨h, op⟩

/-- The V-slot command (Tables 07-9 and 07-10, R181, R182, R184). -/
def decodeV (be : Fin 10) (h : SlotHead) (op : BitVec 7) (w : BitVec 44) : Instr :=
  match op.toNat with
  | 0x01 => .vmov be h (vFieldsOf w)
  | 0x02 => .vadd be h (vFieldsOf w)
  | 0x03 => .vsub be h (vFieldsOf w)
  | 0x04 => .vcadd be h (vFieldsOf w)
  | 0x05 => .vcsub be h (vFieldsOf w)
  | 0x06 => .vconj be h (vFieldsOf w)
  | 0x07 => .vneg be h (vFieldsOf w)
  | 0x08 => .vmax be h (vFieldsOf w)
  | 0x09 => .vmin be h (vFieldsOf w)
  | 0x0A => .vsel be h (vFieldsOf w)
  | 0x0B => .vperm be h (vFieldsOf w)
  | 0x0C => .vbcast be h (vFieldsOf w)
  | 0x0D => .vext be h (vFieldsOf w)
  | 0x0E => .vcmplt be h (vFieldsOf w)
  | 0x0F => .vcmple be h (vFieldsOf w)
  | 0x10 => .vscale be h (vFieldsOf w)
  | 0x11 => .vnorm be h (vFieldsOf w)
  | 0x12 => .vabs2 be h (vFieldsOf w)
  | 0x13 => .vrcp be h (vFieldsOf w)
  | 0x20 => .vmac be h (vFieldsOf w)
  | 0x21 => .vcmac be h (vFieldsOf w)
  | 0x22 => .vcmacj be h (vFieldsOf w)
  | 0x23 => .vtapm be h (vFieldsOf w)
  | 0x24 => .vmulr be h (vFieldsOf w)
  | 0x25 => .vcmulr be h (vFieldsOf w)
  | 0x26 => .vcmuljr be h (vFieldsOf w)
  | 0x28 => .vsta be h (vFieldsOf w)
  | 0x29 => .vstax be h (vFieldsOf w)
  | 0x2A => .vlda be h (vFieldsOf w)
  | 0x2B => .vldax be h (vFieldsOf w)
  | 0x2C => .vaclr be h (vFieldsOf w)
  | 0x30 => .vnlmsu be h (vFieldsOf w)
  | 0x31 => .vtw be h (vFieldsOf w)
  | 0x32 => .vbf4 be h (vFieldsOf w)
  | _ => .vnop be ⟨h, op⟩

/-- The slots of a bundle (Table 07-1). -/
def bundleS (w : BitVec 128) : BitVec 40 := w.extractLsb' 84 40
def bundleM (w : BitVec 128) : BitVec 40 := w.extractLsb' 44 40
def bundleV (w : BitVec 128) : BitVec 44 := w.extractLsb' 0 44

/-- The command that ends a stop bundle: KERNEL_STOP on a basin engine, CC_WAIT on the control core (R135, R158). -/
def stopCommand (be : Fin 10) (atomic : Bool) : List Instr :=
  if h : be.val < 8 then [.kernelStop ⟨be.val, h⟩] else if be = 9 then [.ccWait atomic] else []

/-- The commands of the bundle `w` on core `be`: its three slots, and the end of a stop bundle. -/
def decodeBundle (be : Fin 10) (w : BitVec 128) : List Instr :=
  let stop := w.getLsbD 127
  let atomic := w.getLsbD 126
  let rsv := w.extractLsb' 124 2
  let ws := bundleS w
  let wm := bundleM w
  let wv := bundleV w
  [decodeS be (headS false atomic rsv ws) (ws.extractLsb' 34 6) ws, decodeM be (headM false atomic rsv wm) (wm.extractLsb' 36 4) wm,
    decodeV be (headV (!stop) atomic rsv wv) (wv.extractLsb' 37 7) wv] ++ if stop then stopCommand be atomic else []

/-- An S-slot word with opcode `op`, the guard of `h` and the 29 bits `x`. -/
def sWordOf (op : BitVec 6) (h : SlotHead) (x : BitVec 29) : BitVec 40 := op ++ h.g ++ BitVec.ofBool h.gn ++ x
def sWordR (op : BitVec 6) (h : SlotHead) (f : SlotR) : BitVec 40 := sWordOf op h (f.d ++ f.a ++ f.b ++ f.sx)
def sWordI (op : BitVec 6) (h : SlotHead) (f : SlotI) : BitVec 40 := sWordOf op h (f.d ++ f.a ++ f.imm)
def sWordB (op : BitVec 6) (h : SlotHead) (f : SlotB) : BitVec 40 := sWordOf op h (f.d ++ f.off)

/-- An M-slot word with opcode `op`, the guard of `h` and the 31 bits `x`. -/
def mWordOf (op : BitVec 4) (h : SlotHead) (x : BitVec 31) : BitVec 40 := op ++ h.g ++ BitVec.ofBool h.gn ++ x
def mWord1 (op : BitVec 4) (h : SlotHead) (f : MSingle) : BitVec 40 := mWordOf op h (f.dr ++ f.a ++ BitVec.ofBool f.pi ++ f.off)
def mWord2 (op : BitVec 4) (h : SlotHead) (a b : MPair) : BitVec 40 :=
  mWordOf op h (a.dr ++ a.a ++ a.inc ++ b.dr ++ b.a ++ b.inc ++ 0#1)

/-- A V-slot word. -/
def vWordOf (op : BitVec 7) (h : SlotHead) (x : BitVec 32) : BitVec 44 := op ++ h.g ++ BitVec.ofBool h.gn ++ x
def vWordF (op : BitVec 7) (h : SlotHead) (f : VFields) : BitVec 44 := vWordOf op h (f.mask ++ f.vd ++ f.va ++ f.vb ++ f.vc ++ f.x)

/-- The head and the slot word of an S-slot command. -/
def encodeS : Instr → Option (SlotHead × BitVec 40)
  | .snop _ ⟨h, op⟩ => some (h, sWordOf op h 0)
  | .basinMov _ h f => some (h, sWordR 0x01 h f)
  | .basinAdd _ h f => some (h, sWordR 0x02 h f)
  | .basinSub _ h f => some (h, sWordR 0x03 h f)
  | .addi _ h f => some (h, sWordI 0x04 h f)
  | .ldi _ h f => some (h, sWordI 0x05 h f)
  | .ldih _ h f => some (h, sWordI 0x06 h f)
  | .basinAnd _ h f => some (h, sWordR 0x07 h f)
  | .basinOr _ h f => some (h, sWordR 0x08 h f)
  | .basinXor _ h f => some (h, sWordR 0x09 h f)
  | .andi _ h f => some (h, sWordI 0x0A h f)
  | .basinShl _ h f => some (h, sWordR 0x0B h f)
  | .basinShr _ h f => some (h, sWordR 0x0C h f)
  | .sra _ h f => some (h, sWordR 0x0D h f)
  | .adds _ h f => some (h, sWordR 0x0E h f)
  | .subs _ h f => some (h, sWordR 0x0F h f)
  | .basinMin _ h f => some (h, sWordR 0x10 h f)
  | .basinMax _ h f => some (h, sWordR 0x11 h f)
  | .mulf _ h f => some (h, sWordR 0x12 h f)
  | .muli _ h f => some (h, sWordR 0x13 h f)
  | .cls _ h f => some (h, sWordR 0x14 h f)
  | .basinCmpeq _ h f => some (h, sWordR 0x18 h f)
  | .basinCmplt _ h f => some (h, sWordR 0x19 h f)
  | .cmpltu _ h f => some (h, sWordR 0x1A h f)
  | .basinCmple _ h f => some (h, sWordR 0x1B h f)
  | .cmpeqi _ h f => some (h, sWordI 0x1C h f)
  | .cmplti _ h f => some (h, sWordI 0x1D h f)
  | .basinPlog _ h f => some (h, sWordR 0x1E h f)
  | .mfc _ h f => some (h, sWordR 0x20 h f)
  | .mtc _ h f => some (h, sWordR 0x21 h f)
  | .mset _ h f => some (h, sWordR 0x22 h f)
  | .mget _ h f => some (h, sWordR 0x23 h f)
  | .br _ h f => some (h, sWordB 0x28 h f)
  | .brl _ h f => some (h, sWordB 0x29 h f)
  | .brr _ h f => some (h, sWordR 0x2A h f)
  | .brt _ h f => some (h, sWordB 0x2B h f)
  | .trap _ h => some (h, sWordOf 0x2C h 0)
  | .rfe _ h => some (h, sWordOf 0x2D h 0)
  | _ => none

/-- The head and the slot word of an M-slot command. -/
def encodeM : Instr → Option (SlotHead × BitVec 40)
  | .mnop _ ⟨h, op⟩ => some (h, mWordOf op h 0)
  | .lds _ h f => some (h, mWord1 0x1 h f)
  | .sts _ h f => some (h, mWord1 0x2 h f)
  | .ldv _ h f => some (h, mWord1 0x3 h f)
  | .stv _ h f => some (h, mWord1 0x4 h f)
  | .ldbc _ h f => some (h, mWord1 0x5 h f)
  | .ld2v _ h a b => some (h, mWord2 0x6 h a b)
  | .st2v _ h a b => some (h, mWord2 0x7 h a b)
  | .lsv _ h a b => some (h, mWord2 0x8 h a b)
  | .ld2s _ h a b => some (h, mWord2 0x9 h a b)
  | .ldbv _ h f => some (h, mWord1 0xA h f)
  | .stbv _ h f => some (h, mWord1 0xB h f)
  | .ldb8 _ h f => some (h, mWord1 0xC h f)
  | .stb8 _ h f => some (h, mWord1 0xD h f)
  | _ => none

/-- The head and the slot word of a V-slot command. -/
def encodeV : Instr → Option (SlotHead × BitVec 44)
  | .vnop _ ⟨h, op⟩ => some (h, vWordOf op h 0)
  | .vmov _ h f => some (h, vWordF 0x01 h f)
  | .vadd _ h f => some (h, vWordF 0x02 h f)
  | .vsub _ h f => some (h, vWordF 0x03 h f)
  | .vcadd _ h f => some (h, vWordF 0x04 h f)
  | .vcsub _ h f => some (h, vWordF 0x05 h f)
  | .vconj _ h f => some (h, vWordF 0x06 h f)
  | .vneg _ h f => some (h, vWordF 0x07 h f)
  | .vmax _ h f => some (h, vWordF 0x08 h f)
  | .vmin _ h f => some (h, vWordF 0x09 h f)
  | .vsel _ h f => some (h, vWordF 0x0A h f)
  | .vperm _ h f => some (h, vWordF 0x0B h f)
  | .vbcast _ h f => some (h, vWordF 0x0C h f)
  | .vext _ h f => some (h, vWordF 0x0D h f)
  | .vcmplt _ h f => some (h, vWordF 0x0E h f)
  | .vcmple _ h f => some (h, vWordF 0x0F h f)
  | .vscale _ h f => some (h, vWordF 0x10 h f)
  | .vnorm _ h f => some (h, vWordF 0x11 h f)
  | .vabs2 _ h f => some (h, vWordF 0x12 h f)
  | .vrcp _ h f => some (h, vWordF 0x13 h f)
  | .vmac _ h f => some (h, vWordF 0x20 h f)
  | .vcmac _ h f => some (h, vWordF 0x21 h f)
  | .vcmacj _ h f => some (h, vWordF 0x22 h f)
  | .vtapm _ h f => some (h, vWordF 0x23 h f)
  | .vmulr _ h f => some (h, vWordF 0x24 h f)
  | .vcmulr _ h f => some (h, vWordF 0x25 h f)
  | .vcmuljr _ h f => some (h, vWordF 0x26 h f)
  | .vsta _ h f => some (h, vWordF 0x28 h f)
  | .vstax _ h f => some (h, vWordF 0x29 h f)
  | .vlda _ h f => some (h, vWordF 0x2A h f)
  | .vldax _ h f => some (h, vWordF 0x2B h f)
  | .vaclr _ h f => some (h, vWordF 0x2C h f)
  | .vnlmsu _ h f => some (h, vWordF 0x30 h f)
  | .vtw _ h f => some (h, vWordF 0x31 h f)
  | .vbf4 _ h f => some (h, vWordF 0x32 h f)
  | _ => none

/-- The bundle with these slot words. -/
def bundleOf (stop atomic : Bool) (rsv : BitVec 2) (ws wm : BitVec 40) (wv : BitVec 44) : BitVec 128 :=
  BitVec.ofBool stop ++ BitVec.ofBool atomic ++ rsv ++ ws ++ wm ++ wv

/-- Whether SOP, MOP or VOP is the no-operation or unassigned. -/
def sOpIdle (op : BitVec 6) : Bool := match decodeS 0 ⟨false, false, 0, 0, false⟩ op 0 with
  | .snop _ _ => true
  | _ => false
def mOpIdle (op : BitVec 4) : Bool := match decodeM 0 ⟨false, false, 0, 0, false⟩ op 0 with
  | .mnop _ _ => true
  | _ => false
def vOpIdle (op : BitVec 7) : Bool := match decodeV 0 ⟨false, false, 0, 0, false⟩ op 0 with
  | .vnop _ _ => true
  | _ => false

end Sys2Proof
end

