-- ==== Sys2Proof/Machine/Crypto.lean ====
section
/-! DEFINITION. The check functions of stage 0 and the policy and journal tables: CRC-32C, SHA-256 and ECDSA over P-256 (R418,
R423, R438). The spec names these functions and takes them from their own standards: PRESUMED (log 30). -/
namespace Sys2Proof.Machine

/-- One bit of the reflected CRC-32C (Castagnoli) division. -/
def crcBit (x : BitVec 32) : BitVec 32 := if x.getLsbD 0 then (x >>> 1) ^^^ 0x82F63B78#32 else x >>> 1

/-- One byte of the CRC. -/
def crcByte (x : BitVec 32) (b : Byte) : BitVec 32 :=
  crcBit (crcBit (crcBit (crcBit (crcBit (crcBit (crcBit (crcBit (x ^^^ b.zeroExtend 32))))))))

/-- CRC-32C of a byte string: initial value and final inversion all ones. -/
def crc32c (l : List Byte) : BitVec 32 := ~~~(l.foldl crcByte 0xFFFFFFFF#32)

/-! ### SHA-256 -/

/-- The largest number below `r + 2 ^ n`, from `r` on, whose `k`-th power is at most `x`. -/
def intRoot (k x : Nat) : Nat → Nat → Nat
  | 0, r => r
  | n + 1, r => intRoot k x n (if (r + 2 ^ n) ^ k ≤ x then r + 2 ^ n else r)

/-- The first 32 bits of the fraction of the `k`-th root of a small number, from which SHA-256 takes its constants. -/
def rootFraction (k p : Nat) : BitVec 32 := BitVec.ofNat 32 (intRoot k (p * 2 ^ (32 * k)) 35 0)

/-- The first 64 primes. -/
def shaPrimes : List Nat := (List.range 312).filter fun p => decide (2 ≤ p) && [2, 3, 5, 7, 11, 13, 17].all fun d => decide (p = d ∨ p % d ≠ 0)

/-- The round constants of SHA-256: the cube roots of the first 64 primes. -/
def shaK : List (BitVec 32) := shaPrimes.map (rootFraction 3)

/-- The eight chaining words of SHA-256. -/
structure Sha where
  a : BitVec 32
  b : BitVec 32
  c : BitVec 32
  d : BitVec 32
  e : BitVec 32
  f : BitVec 32
  g : BitVec 32
  h : BitVec 32
  deriving DecidableEq, Repr

/-- The initial chaining value: the square roots of the first eight primes. -/
def shaInit : Sha :=
  ⟨rootFraction 2 2, rootFraction 2 3, rootFraction 2 5, rootFraction 2 7, rootFraction 2 11, rootFraction 2 13, rootFraction 2 17,
    rootFraction 2 19⟩

/-- One round with the sum of its constant and message word. -/
def shaRound (s : Sha) (kw : BitVec 32) : Sha :=
  let s1 := s.e.rotateRight 6 ^^^ s.e.rotateRight 11 ^^^ s.e.rotateRight 25
  let t1 := s.h + s1 + ((s.e &&& s.f) ^^^ (~~~s.e &&& s.g)) + kw
  let s0 := s.a.rotateRight 2 ^^^ s.a.rotateRight 13 ^^^ s.a.rotateRight 22
  ⟨t1 + s0 + ((s.a &&& s.b) ^^^ (s.a &&& s.c) ^^^ (s.b &&& s.c)), s.a, s.b, s.c, s.d + t1, s.e, s.f, s.g⟩

/-- Message words `n` more, from the last sixteen (newest last). -/
def shaExpand : Nat → List (BitVec 32) → List (BitVec 32)
  | 0, _ => []
  | n + 1, w =>
    let x := w.getD 1 0#32
    let y := w.getD 14 0#32
    let v := w.getD 0 0#32 + (x.rotateRight 7 ^^^ x.rotateRight 18 ^^^ (x >>> 3)) + w.getD 9 0#32
      + (y.rotateRight 17 ^^^ y.rotateRight 19 ^^^ (y >>> 10))
    v :: shaExpand n (w.drop 1 ++ [v])

/-- A big-endian number of a byte string. -/
def beVal (l : List Byte) : Nat := l.foldl (fun n b => n * 256 + b.toNat) 0

/-- The `n` big-endian bytes of a number. -/
def beBytes (n x : Nat) : List Byte := (List.range n).map fun k => BitVec.ofNat 8 (x / 256 ^ (n - 1 - k))

/-- One 64-byte block. -/
def shaBlock (s : Sha) (blk : List Byte) : Sha :=
  let w0 := (List.range 16).map fun i => BitVec.ofNat 32 (beVal ((blk.drop (4 * i)).take 4))
  let w := w0 ++ shaExpand 48 w0
  let t := (List.zipWith (· + ·) shaK w).foldl shaRound s
  ⟨s.a + t.a, s.b + t.b, s.c + t.c, s.d + t.d, s.e + t.e, s.f + t.f, s.g + t.g, s.h + t.h⟩

/-- `n` blocks in order. -/
def shaBlocks : Nat → List Byte → Sha → Sha
  | 0, _, s => s
  | n + 1, l, s => shaBlocks n (l.drop 64) (shaBlock s (l.take 64))

/-- A message padded to whole blocks. -/
def shaPad (l : List Byte) : List Byte :=
  l ++ [0x80#8] ++ List.replicate ((119 - l.length % 64) % 64) 0#8 ++ beBytes 8 (8 * l.length)

/-- SHA-256 of a byte string. -/
def sha256 (l : List Byte) : List Byte :=
  let p := shaPad l
  let s := shaBlocks (p.length / 64) p shaInit
  [s.a, s.b, s.c, s.d, s.e, s.f, s.g, s.h].flatMap fun x => beBytes 4 x.toNat

/-! ### ECDSA over P-256 -/

/-- The field prime, the curve coefficient b, the group order and the base point. -/
def ecP : Nat := 2 ^ 256 - 2 ^ 224 + 2 ^ 192 + 2 ^ 96 - 1
def ecB : Nat := 0x5ac635d8aa3a93e7b3ebbd55769886bc651d06b0cc53b0f63bce3c3e27d2604b
def ecN : Nat := 0xffffffff00000000ffffffffffffffffbce6faada7179e84f3b9cac2fc632551
def ecGx : Nat := 0x6b17d1f2e12c4247f8bce6e563a440f277037d812deb33a0f4a13945d898c296
def ecGy : Nat := 0x4fe342e2fe1a7f9b8ee7eb4a7c0f9e162bce33576b315ececbb6406837bf51f5

/-- `x` to the power of the low `n` bits of `k`, modulo `m`. -/
def powMod (m : Nat) : Nat → Nat → Nat → Nat
  | 0, _, _ => 1 % m
  | n + 1, x, k =>
    let r := powMod m n (x * x % m) (k / 2)
    if k % 2 = 1 then r * x % m else r

/-- The inverse modulo a prime. -/
def invMod (m x : Nat) : Nat := powMod m 256 (x % m) (m - 2)

/-- A difference modulo `m`. -/
def subMod (m x y : Nat) : Nat := (x % m + (m - y % m)) % m

/-- Addition of affine points; `none` is the point at infinity. -/
def ecAdd : Option (Nat × Nat) → Option (Nat × Nat) → Option (Nat × Nat)
  | none, q => q
  | p, none => p
  | some (x1, y1), some (x2, y2) =>
    if x1 = x2 ∧ (y1 + y2) % ecP = 0 then none
    else
      let l :=
        if x1 = x2 then (3 * x1 * x1 + (ecP - 3)) % ecP * invMod ecP (2 * y1) % ecP
        else subMod ecP y2 y1 * invMod ecP (subMod ecP x2 x1) % ecP
      let x3 := subMod ecP (l * l) (x1 + x2)
      some (x3, subMod ecP (l * subMod ecP x1 x3) y1)

/-- The low `n` bits of `k` times a point. -/
def ecMul : Nat → Nat → Option (Nat × Nat) → Option (Nat × Nat)
  | 0, _, _ => none
  | n + 1, k, p =>
    let r := ecMul n (k / 2) (ecAdd p p)
    if k % 2 = 1 then ecAdd p r else r

/-- Whether (x, y) is a point of the curve. -/
def ecOnCurve (x y : Nat) : Bool :=
  decide (x < ecP) && decide (y < ecP) && decide (y * y % ecP = (x * x * x + (ecP - 3) * x + ecB) % ecP)

/-- Whether the signature (r, s) verifies over a digest with the public key (x, y). -/
def ecdsaVerify (digest sig key : List Byte) : Bool :=
  let r := beVal (sig.take 32)
  let t := beVal (sig.drop 32)
  let x := beVal (key.take 32)
  let y := beVal (key.drop 32)
  if r = 0 ∨ ecN ≤ r ∨ t = 0 ∨ ecN ≤ t ∨ ecOnCurve x y = false then false
  else
    let w := invMod ecN t
    match ecAdd (ecMul 256 (beVal digest * w % ecN) (some (ecGx, ecGy))) (ecMul 256 (r * w % ecN) (some (x, y))) with
    | some p => decide (p.1 % ecN = r)
    | none => false

end Sys2Proof.Machine
end

