-- ==== Sys2Proof/Machine/Store.lean ====
section
/-! DEFINITION. The canonical sparse store behind every memory, table and register file: a list of (address, value) pairs,
addresses strictly rising, and no entry equal to what an unlisted address reads as. -/
namespace Sys2Proof.Machine

/-- A sparse store. What an unlisted address reads as is the `d` each reader passes. -/
abbrev Cells (α : Type) := List (Nat × α)

/-- The value at address `k`; an unlisted address reads as `d k`. -/
def Cells.read {α : Type} (d : Nat → α) : Cells α → Nat → α
  | [], k => d k
  | (a, v) :: t, k => if k = a then v else Cells.read d t k

/-- Store `v` at address `k` in a strictly rising list; storing what an unlisted address reads as removes the entry. -/
def Cells.write {α : Type} [DecidableEq α] (d : Nat → α) : Cells α → Nat → α → Cells α
  | [], k, v => if v = d k then [] else [(k, v)]
  | (a, w) :: t, k, v =>
    if k < a then (if v = d k then (a, w) :: t else (k, v) :: (a, w) :: t)
    else if k = a then (if v = d k then t else (k, v) :: t)
    else (a, w) :: Cells.write d t k v

/-- Every address of the list is at least `lo`, addresses rise strictly, and no entry equals the unlisted value. -/
def Cells.wfFrom {α : Type} [DecidableEq α] (d : Nat → α) : Nat → Cells α → Bool
  | _, [] => true
  | lo, (a, v) :: t => decide (lo ≤ a) && !decide (v = d a) && Cells.wfFrom d (a + 1) t

/-- The canonical form: two stores that read alike everywhere are the same list. -/
def Cells.wf {α : Type} [DecidableEq α] (d : Nat → α) (m : Cells α) : Bool := Cells.wfFrom d 0 m

/-- The unlisted value of every word memory: zero. -/
def zeroAt {w : Nat} (_ : Nat) : BitVec w := 0#w

/-- Read a store of bit vectors whose unlisted value is zero. -/
def Cells.get {w : Nat} (m : Cells (BitVec w)) (k : Nat) : BitVec w := Cells.read zeroAt m k

/-- Write a store of bit vectors whose unlisted value is zero. -/
def Cells.set {w : Nat} (m : Cells (BitVec w)) (k : Nat) (v : BitVec w) : Cells (BitVec w) := Cells.write zeroAt m k v

/-- Write consecutive addresses from `k` upwards. -/
def Cells.setAll {w : Nat} (m : Cells (BitVec w)) (k : Nat) : List (BitVec w) → Cells (BitVec w)
  | [] => m
  | v :: t => Cells.setAll (Cells.set m k v) (k + 1) t

/-- Read `n` consecutive addresses from `k` upwards. -/
def Cells.getAll {w : Nat} (m : Cells (BitVec w)) (k : Nat) : Nat → List (BitVec w)
  | 0 => []
  | n + 1 => Cells.get m k :: Cells.getAll m (k + 1) n

/-- Keep the entries whose address satisfies `p`: every other address reads as unlisted again. -/
def Cells.keep {α : Type} (p : Nat → Bool) (m : Cells α) : Cells α := m.filter fun e => p e.1

/-- The addresses a store lists. -/
def Cells.keys {α : Type} (m : Cells α) : List Nat := m.map Prod.fst

/-- Element `i` of a register file, or `d` past its end. -/
def vget {α : Type} {n : Nat} (v : Vector α n) (i : Nat) (d : α) : α := v[i]?.getD d

/-- Replace element `i` of a register file; past its end nothing changes. -/
def vset {α : Type} {n : Nat} (v : Vector α n) (i : Nat) (x : α) : Vector α n := v.setIfInBounds i x

/-- Apply `f` to element `i` of a register file. -/
def vmod {α : Type} {n : Nat} (v : Vector α n) (i : Nat) (f : α → α) : Vector α n :=
  match v[i]? with
  | some x => v.setIfInBounds i (f x)
  | none => v

end Sys2Proof.Machine
end

