-- ==== Sys2Proof/Machine/Frames.lean ====
section
/-! DEFINITION. Ethernet frames: the FCS, header parsing, checksums and segmentation (R311 to R313). -/
namespace Sys2Proof.Machine

/-- One bit of the reflected CRC-32 of IEEE 802.3. -/
def fcsBit (x : BitVec 32) : BitVec 32 := if x.getLsbD 0 then (x >>> 1) ^^^ 0xEDB88320#32 else x >>> 1

/-- One byte of the FCS. -/
def fcsByte (x : BitVec 32) (b : Byte) : BitVec 32 :=
  fcsBit (fcsBit (fcsBit (fcsBit (fcsBit (fcsBit (fcsBit (fcsBit (x ^^^ b.zeroExtend 32))))))))

/-- The four FCS bytes of a frame in wire order. -/
def fcsOf (l : List Byte) : List Byte :=
  let c := ~~~(l.foldl fcsByte 0xFFFFFFFF#32)
  (List.range 4).map fun k => c.extractLsb' (8 * k) 8

/-- The 16-bit big-endian field at offset `o`. -/
def be16 (f : List Byte) (o : Nat) : Nat := beVal ((f.drop o).take 2)

/-- Replace the bytes from offset `o`. -/
def setBytes (f : List Byte) (o : Nat) (bs : List Byte) : List Byte := f.take o ++ bs ++ f.drop (o + bs.length)

/-- The offset of the EtherType that follows up to two VLAN tags (R311, R315): 0x8100, and 0x88A8 as outer tag alone (R301). -/
def etypeAt (f : List Byte) : Nat :=
  if be16 f 12 = 0x8100 ∨ be16 f 12 = 0x88A8 then (if be16 f 16 = 0x8100 then 20 else 16) else 12

/-- The outer VLAN tag. -/
def vlanOf (f : List Byte) : Option (BitVec 16) := if etypeAt f = 12 then none else some (BitVec.ofNat 16 (be16 f 14))

/-- What the offload engine found: the offsets of the network and transport headers, IPv6, TCP, and the headers' length. -/
structure Parsed where
  l3 : Nat
  l4 : Nat
  v6 : Bool
  tcp : Bool
  hdr : Nat
  deriving DecidableEq, Repr

/-- The network header of a frame: its offset, whether IPv6, the protocol and the transport offset. -/
def parseIp (f : List Byte) : Option (Nat × Bool × Nat × Nat) :=
  let e := etypeAt f
  let l3 := e + 2
  let b0 := ((f.drop l3).headD 0#8).toNat
  if be16 f e = 0x0800 then
    let ihl := b0 % 16
    if b0 / 16 = 4 ∧ 5 ≤ ihl ∧ l3 + 4 * ihl ≤ f.length then some (l3, false, (f.getD (l3 + 9) 0#8).toNat, l3 + 4 * ihl) else none
  else if be16 f e = 0x86DD then
    if b0 / 16 = 6 ∧ l3 + 40 ≤ f.length then some (l3, true, (f.getD (l3 + 6) 0#8).toNat, l3 + 40) else none
  else none

/-- Parse the headers of R311. -/
def parseFrame (f : List Byte) : Option Parsed :=
  match parseIp f with
  | some (l3, v6, proto, l4) =>
    let dataOff := (f.getD (l4 + 12) 0#8).toNat / 16
    if proto = 6 ∧ 5 ≤ dataOff ∧ l4 + 4 * dataOff ≤ f.length then some ⟨l3, l4, v6, true, l4 + 4 * dataOff⟩
    else if proto = 17 ∧ l4 + 8 ≤ f.length then some ⟨l3, l4, v6, false, l4 + 8⟩
    else none
  | none => none

/-- The sum of the 16-bit words of a byte string, an odd last byte padded with zero. -/
def sum16 : List Byte → Nat
  | [] => 0
  | [a] => a.toNat * 256
  | a :: b :: t => a.toNat * 256 + b.toNat + sum16 t

/-- Fold a sum to 16 bits with end-around carry. -/
def fold16 (n : Nat) : Nat := let a := n % 65536 + n / 65536; let b := a % 65536 + a / 65536; b % 65536 + b / 65536

/-- The Internet checksum of a byte string. -/
def inetSum (l : List Byte) : Nat := 65535 - fold16 (sum16 l)

/-- The pseudo-header of a transport segment of `n` bytes. -/
def pseudoHeader (f : List Byte) (p : Parsed) (n : Nat) : List Byte :=
  let proto := if p.tcp then 6 else 17
  if p.v6 then (f.drop (p.l3 + 8)).take 32 ++ beBytes 4 n ++ beBytes 4 proto
  else (f.drop (p.l3 + 12)).take 8 ++ beBytes 2 proto ++ beBytes 2 n

/-- Replace the IPv4 header checksum (R313). -/
def putIpSum (f : List Byte) (p : Parsed) : List Byte :=
  if p.v6 then f
  else
    let z := setBytes f (p.l3 + 10) [0#8, 0#8]
    setBytes z (p.l3 + 10) (beBytes 2 (inetSum ((z.drop p.l3).take (p.l4 - p.l3))))

/-- The length of the transport segment that the network header gives. -/
def l4Length (f : List Byte) (p : Parsed) : Nat := if p.v6 then be16 f (p.l3 + 4) else be16 f (p.l3 + 2) - (p.l4 - p.l3)

/-- Replace the TCP or UDP checksum; a computed UDP checksum of 0 is sent as 0xFFFF (R313). -/
def putL4Sum (f : List Byte) (p : Parsed) : List Byte :=
  let o := p.l4 + if p.tcp then 16 else 6
  let z := setBytes f o [0#8, 0#8]
  let n := l4Length f p
  let c := inetSum (pseudoHeader f p n ++ (z.drop p.l4).take n)
  setBytes z o (beBytes 2 (if c = 0 ∧ p.tcp = false then 0xFFFF else c))

/-- Segment `i` of `n` of a segmented send with payload `pay` from offset `i` x MSS (R312). -/
def segment (hdr pay : List Byte) (p : Parsed) (mss i n : Nat) : List Byte :=
  let len := hdr.length + pay.length
  let f0 := hdr ++ pay
  let f1 := if p.v6 then setBytes f0 (p.l3 + 4) (beBytes 2 (len - p.l4))
    else setBytes (setBytes f0 (p.l3 + 2) (beBytes 2 (len - p.l3))) (p.l3 + 4) (beBytes 2 ((be16 hdr (p.l3 + 4) + i) % 65536))
  let f2 := if p.tcp then
      let flags := (hdr.getD (p.l4 + 13) 0#8).toNat
      let keep := flags - (if i + 1 = n then 0 else flags % 2 + flags / 8 % 2 * 8) - (if i = 0 then 0 else flags / 128 % 2 * 128)
      setBytes (setBytes f1 (p.l4 + 4) (beBytes 4 ((beVal ((hdr.drop (p.l4 + 4)).take 4) + i * mss) % 2 ^ 32))) (p.l4 + 13) [BitVec.ofNat 8 keep]
    else setBytes f1 (p.l4 + 4) (beBytes 2 (len - p.l4))
  putL4Sum (putIpSum f2 p) p

/-- The frames of a segmented send (R312). -/
def segments (f : List Byte) (p : Parsed) (mss : Nat) : List (List Byte) :=
  let pay := f.drop p.hdr
  let n := (pay.length + mss - 1) / mss
  (List.range n).map fun i => segment (f.take p.hdr) ((pay.drop (i * mss)).take mss) p mss i n

/-- A checksum status: 0 NOT_CHECKED, 1 OK, 2 BAD. -/
def csumCode (ok : Bool) : Nat := if ok then 1 else 2

/-- The checksum status of a received frame without FCS (R314, R371): bits [1:0] the IPv4 header, [3:2] TCP or UDP. A fragment,
and a UDP datagram over IPv4 with checksum 0, carry no transport checksum to test. -/
def csumStatus (f : List Byte) : BitVec 4 :=
  match parseIp f with
  | none => 0#4
  | some (l3, v6, _, l4) =>
    let ip := if v6 then 0 else csumCode (decide (inetSum ((f.drop l3).take (l4 - l3)) = 0))
    let l4s := match parseFrame f with
      | none => 0
      | some p =>
        let n := l4Length f p
        let frag := !v6 && decide (be16 f (l3 + 6) % 0x4000 ≠ 0)
        if frag || decide (f.length < p.l4 + n) || (!p.tcp && !v6 && decide (be16 f (p.l4 + 6) = 0)) then 0
        else csumCode (decide (inetSum (pseudoHeader f p n ++ (f.drop p.l4).take n) = 0))
    BitVec.ofNat 4 (ip + 4 * l4s)

end Sys2Proof.Machine
end

