-- ==== Sys2Proof/Config.lean ====
section
/-! DEFINITION. What the spec leaves open: free values. Each is a constant with no body, applied to the machine's count of
free values taken so far (a torn flash byte to its offset), so nothing can be proved of the value it gives. The log entries name each. -/
namespace Sys2Proof.Config

/-- The dither a mix bus with RS = 0b10 adds: R61 gives the fabric no noise LFSR (log entry 20). -/
opaque freeDither : Nat → BitVec 32

/-- The word a PDM decimator writes: the filter chain is given by figures, not by coefficients (log entry 21). -/
opaque freePdm : Nat → BitVec 36

/-- The word an ADC writes (log entry 21). -/
opaque freeAdc : Nat → BitVec 36

/-- The word an ASRC writes to a receive stall, or sends in a transmit slot (log entry 22). -/
opaque freeAsrc : Nat → BitVec 36

/-- The word that a DC blocker with corner field `corner` gives for a word: R253 and R257 give the corner, not the coefficients (log
entry 85). -/
opaque freeBlocker : Nat → (corner : Nat) → BitVec 36 → BitVec 36

/-- Wire sample `i` of an audio cycle, in units of 2^-22 of its last bit, made of the words that the output stall read in that cycle, the
newest first (log entry 23). -/
opaque freeWire : Nat → List (BitVec 36) → (i : Nat) → BitVec 36

/-- Octet `i` of the G.722 stream of a cycle's 64 wire samples (log entry 23). -/
opaque freeOctet : Nat → List Int → (i : Nat) → BitVec 8

/-- The word that an uplink's octets give an input stall (log entry 23). -/
opaque freeVoice : Nat → List (BitVec 8) → BitVec 36

/-- The backoff r of a collision (log entry 24). -/
opaque freeBackoff : Nat → BitVec 32

/-- A word of a debug challenge (log entry 25). -/
opaque freeChallenge : Nat → BitVec 32

/-- Word `i` of what stage 0 loads from the factory area, whose layout the spec does not give, by the bytes programmed there and the torn
granules (log entry 27). -/
opaque freeFactory : List (Nat × BitVec 8) → List (Nat × Bool) → (i : Nat) → BitVec 32

/-- Word `i` of the device secrets after a write of BOOT_OTP_CMD that may have programmed them: the spec gives no field that selects them
(log entry 113). -/
opaque freeSecret : Nat → (i : Nat) → BitVec 32

/-- What MEM_ERRADDR.ADDR shows for a word of a spare bank, which has no yard word address (log entry 94). -/
opaque freeSpareAddr : Nat → Nat

/-- What a byte of a torn flash granule reads as (R419), by its offset (log entry 96). -/
opaque freeTorn : Nat → BitVec 8

/-- The level of multiplexed pin `i` while nothing drives it and no pull is on (log entry 119). -/
opaque freePin : (i : Nat) → Bool

/-- The cycles of the LF oscillator that pass while no command tells the time: in STANDBY and while a reset is held (log entry 6). -/
opaque freeRtc : Nat → Nat

/-- The word with which the CSP slave answers a write command: the spec names none (log entry 28). -/
opaque freeCspWord : Nat → BitVec 32

/-- DWORD `k` of the function's configuration space, where the spec fixes none (log entry 115). -/
opaque freeConfig : Nat → (k : Nat) → BitVec 32

/-- The reads of host memory in flight at once: a matter of the host's latency (log entry 29). -/
opaque freeTags : Nat → Nat

/-- The way a line fill replaces in a full set of the execute-in-place cache (log entry 32). -/
opaque freeWay : Nat → BitVec 2

/-- What MGET reads on the control core, which has no lane masks and on which MGET is not undefined (log entry 33). -/
opaque freeMask : Nat → BitVec 8

/-- The cycles by which an interval is lengthened until its boundary meets the reference's edge (log entry 81). -/
opaque freeEdge : Nat → Nat

end Sys2Proof.Config
end

