-- ==== Sys2Proof/Machine/Flags.lean ====
section
/-! DEFINITION. Arithmetic of chapter 03: accumulation in wrap and clamp mode, the store of a result, rounding, saturation,
noise and PCM conversion, with every flag they compute (GOV, SAT). -/
namespace Sys2Proof.Machine

/-- Wrap an integer to the range of a signed `n`-bit field and say whether it had to be clipped (R59 step 3, R64). -/
def satTo (n : Nat) (v : Int) : Int × Bool :=
  if v < -(2 ^ (n - 1)) then (-(2 ^ (n - 1)), true)
  else if 2 ^ (n - 1) - 1 < v then (2 ^ (n - 1) - 1, true)
  else (v, false)

/-- Nearest value of `v / 2^d`, an exact tie to the even neighbour (Table 03-5, 0b00). -/
def roundHalfEven (v : Int) (d : Nat) : Int :=
  let q := v / 2 ^ d
  let r := v % 2 ^ d
  if 2 * r < 2 ^ d then q
  else if 2 ^ d < 2 * r then q + 1
  else if q % 2 = 0 then q else q + 1

/-- `v / 2^d` under rounding mode `rs` (Table 03-5); `dith` is the dither value in units of the discarded field's last bit. -/
def roundRS (rs : BitVec 2) (v : Int) (d : Nat) (dith : Int) : Int :=
  if rs = 1#2 then v / 2 ^ d
  else if rs = 2#2 then (v + dith) / 2 ^ d
  else roundHalfEven v d

/-- One advance of a noise LFSR: Galois form of x^32 + x^22 + x^2 + x + 1, shifting right (R61; DEDUCED: the direction).
Zero stays zero. -/
def lfsrNext (x : BitVec 32) : BitVec 32 :=
  if x.getLsbD 0 then (x >>> 1) ^^^ 0x80200003#32 else x >>> 1

/-- The value a written seed loads as: zero loads as 1 (R61). -/
def lfsrSeed (x : BitVec 32) : BitVec 32 := if x = 0#32 then 1#32 else x

/-- What a real store yields: the word, whether it saturated, and the rounding residue before saturation in units of
2^-71 (R59, R65). -/
structure Stored where
  w : Word
  sat : Bool
  residue : Int
  deriving DecidableEq, Repr

/-- A real store of the exact accumulator value `v` (units of 2^-71) with shift `k` (R59, R62). -/
def storeRealInt (v : Int) (k : Nat) (rs : BitVec 2) (lfsr : BitVec 32) : Stored :=
  let x := v * 2 ^ k
  let q := roundRS rs x 36 (lfsr.toNat * 16)
  let c := satTo 36 q
  { w := BitVec.ofInt 36 c.1, sat := c.2, residue := x - q * 2 ^ 36 }

/-- A real store of an accumulator. -/
def storeReal (a : Acc) (k : BitVec 3) (rs : BitVec 2) (lfsr : BitVec 32) : Stored :=
  storeRealInt a.toInt k.toNat rs lfsr

/-- One half of a complex store: `v` in units of 2^-35, rounded to 17 fraction bits and saturated (R59, R62, R63). -/
def storeHalf (v : Int) (k : Nat) (rs : BitVec 2) (dith : Nat) : Int × Bool :=
  satTo 18 (roundRS rs (v * 2 ^ k) 18 (dith * 4))

/-- A complex store of an accumulator: each half on its own (R63). No residue is kept. -/
def storeCplx (a : Acc) (k : BitVec 3) (rs : BitVec 2) (lfsr : BitVec 32) : Stored :=
  let r := storeHalf a.re.toInt k.toNat rs (lfsr >>> 16).toNat
  let i := storeHalf a.im.toInt k.toNat rs (lfsr.toNat % 65536)
  { w := Word.ofHalves (BitVec.ofInt 18 r.1) (BitVec.ofInt 18 i.1), sat := r.2 || i.2, residue := 0 }

/-- An accumulator with its pin flags, one for each complex half (R54). -/
structure AccReg where
  val : Acc
  pinRe : Bool
  pinIm : Bool
  deriving DecidableEq, Repr

/-- Add `delta` to a signed `n`-bit field in wrap or clamp mode: the new value, whether a guard overflow was made, and
whether clamp mode pinned (R52 to R54). -/
def guardAdd (n : Nat) (clamp : Bool) (old delta : Int) : Int × Bool × Bool :=
  let x := old + delta
  if x < -(2 ^ (n - 1)) then (if clamp then -(2 ^ (n - 1)) else x, true, clamp)
  else if 2 ^ (n - 1) - 1 < x then (if clamp then 2 ^ (n - 1) - 1 else x, true, clamp)
  else (x, false, false)

/-- One accumulating step in the real layout (R51 to R55): a starting form forgets the old content and ends any pin; a
pinned accumulator is left unchanged and makes no overflow. -/
def accReal (start clamp : Bool) (a : AccReg) (delta : Int) : AccReg × Bool :=
  if !start && (a.pinRe || a.pinIm) then (a, false)
  else
    let r := guardAdd 80 clamp (if start then 0 else a.val.toInt) delta
    ({ val := BitVec.ofInt 80 r.1, pinRe := r.2.2, pinIm := r.2.2 }, r.2.1)

/-- One half of an accumulating step in the complex layout. -/
def accHalf (start clamp pinned : Bool) (old : BitVec 40) (delta : Int) : BitVec 40 × Bool × Bool :=
  if !start && pinned then (old, false, true)
  else
    let r := guardAdd 40 clamp (if start then 0 else old.toInt) delta
    (BitVec.ofInt 40 r.1, r.2.1, r.2.2)

/-- One accumulating step in the complex layout: the halves are independent and pin on their own (R49, R54). -/
def accCplx (start clamp : Bool) (a : AccReg) (dre dim : Int) : AccReg × Bool :=
  let r := accHalf start clamp a.pinRe a.val.re dre
  let i := accHalf start clamp a.pinIm a.val.im dim
  ({ val := Acc.ofHalves r.1 i.1, pinRe := r.2.2, pinIm := i.2.2 }, r.2.1 || i.2.1)

/-- A real s.35 by s.35 product in accumulator units of 2^-71 (Table 03-2). -/
def prodReal (a b : Word) : Int := a.toInt * b.toInt * 2

/-- The real and imaginary parts of a complex product in half units of 2^-35; `conj` conjugates the second operand
(Table 03-2). -/
def prodCplx (conj : Bool) (a b : Word) : Int × Int :=
  let ar := a.re.toInt; let ai := a.im.toInt; let br := b.re.toInt
  let bi := if conj then - b.im.toInt else b.im.toInt
  ((ar * br - ai * bi) * 2, (ar * bi + ai * br) * 2)

/-- A saturated s.35 result and its SAT flag. -/
def satWord (v : Int) : Word × Bool := let c := satTo 36 v; (BitVec.ofInt 36 c.1, c.2)

/-- Apply an integer operation to each complex half with saturation (R63). -/
def satHalves (f : Int → Int → Int) (a b : Word) : Word × Bool :=
  let r := satTo 18 (f a.re.toInt b.re.toInt)
  let i := satTo 18 (f a.im.toInt b.im.toInt)
  (Word.ofHalves (BitVec.ofInt 18 r.1) (BitVec.ofInt 18 i.1), r.2 || i.2)

/-- The complex conjugate with saturation of the imaginary half. -/
def conjWord (a : Word) : Word × Bool :=
  let i := satTo 18 (- a.im.toInt)
  (Word.ofHalves a.re (BitVec.ofInt 18 i.1), i.2)

/-- PCM input of an `n`-bit sample (24 or 32): exact, sign carried into bit 35, zeros below (R66). -/
def pcmIn (n : Nat) (p : BitVec 32) : Word :=
  BitVec.ofInt 36 ((BitVec.ofNat 32 (p.toNat % 2 ^ n * 2 ^ (32 - n))).toInt * 16)

/-- What an output conversion yields: the PCM sample, SAT and the converter's LFSR after it (R67, R68). -/
structure Pcm where
  p : BitVec 32
  sat : Bool
  lfsr : BitVec 32
  deriving DecidableEq, Repr

/-- PCM output of a word at `n` bits (R67). With dither the LFSR advances twice, and u1 and u2
are its states after each (R61, R68). -/
def pcmOut (n : Nat) (dither : Bool) (w : Word) (l : BitVec 32) : Pcm :=
  let d := 36 - n
  if dither then
    let l1 := lfsrNext l
    let l2 := lfsrNext l1
    let r := (w.toInt + (l1 >>> (32 - d)).toNat + (l2 >>> (32 - d)).toNat - 2 ^ (d - 1)) / 2 ^ d
    let c := satTo n r
    { p := BitVec.ofInt 32 c.1, sat := c.2, lfsr := l2 }
  else
    let c := satTo n (roundHalfEven w.toInt d)
    { p := BitVec.ofInt 32 c.1, sat := c.2, lfsr := l }

/-- The product of a word and a gain of g/256 (0 to 256), rounded half even (R35). -/
def scale256 (w : Word) (g : Nat) : Word := BitVec.ofInt 36 (roundHalfEven (w.toInt * g) 8)

/-- `num / den` rounded half even, for a positive denominator. -/
def divHalfEven (num : Int) (den : Nat) : Int :=
  let q := num / den
  let r := num % den
  if 2 * r < den then q
  else if (den : Int) < 2 * r then q + 1
  else if q % 2 = 0 then q else q + 1

/-- A word scaled by num/den, rounded half even and saturated (Table 02-10). -/
def scaleFrac (w : Word) (num den : Nat) : Word := (satWord (divHalfEven (w.toInt * num) den)).1

end Sys2Proof.Machine
end

