-- ==== Sys2Proof/Machine/Regs.lean ====
section
/-! DEFINITION. The register map: every register the summary tables of the chapters list, with its address, its repeats,
its reset value, and the bits of its RW, ST and W1C fields (Table 00-5). Bits named in none of the three are read-only,
write-only action bits, life-cycle fields or reserved bits: a plain write leaves them alone (R4, R8), and the operations
that give them a meaning are in the files of their blocks. -/
namespace Sys2Proof.Machine

/-- One row of a register summary: `n1` groups `s1` bytes apart, each of `n2` registers `s2` bytes apart. -/
structure RegDesc where
  name : String
  base : Nat
  n1 : Nat
  s1 : Nat
  n2 : Nat
  s2 : Nat
  reset : BitVec 32
  rw : BitVec 32
  st : BitVec 32
  w1c : BitVec 32
  deriving DecidableEq, Repr

/-- Whether the row lists byte address `a`. A group's registers end before the next group begins. -/
def RegDesc.covers (d : RegDesc) (a : Nat) : Bool :=
  let i := (a - d.base) / d.s1
  let o := a - d.base - i * d.s1
  decide (d.base ≤ a) && decide (i < d.n1) &&
    (if d.n2 ≤ 1 then decide (o = 0) else decide (o % d.s2 = 0) && decide (o / d.s2 < d.n2))

abbrev Reg.SYS_ID : Nat := 0x40000000
abbrev Reg.SYS_STATUS : Nat := 0x40000004
abbrev Reg.SYS_CONFLICT : Nat := 0x40000008
abbrev Reg.SYS_UNMAPPED : Nat := 0x4000000C
abbrev Reg.SYS_IRQ_RAW : Nat := 0x40000010
abbrev Reg.SYS_IRQ_EN_CC : Nat := 0x40000014
abbrev Reg.SYS_IRQ_EN_HOST : Nat := 0x40000018
abbrev Reg.SYS_IRQ_PEND_CC : Nat := 0x4000001C
abbrev Reg.SYS_IRQ_PEND_HOST : Nat := 0x40000020
abbrev Reg.SYS_IRQ_HOST_ACK : Nat := 0x40000024
abbrev Reg.CLK_STATUS : Nat := 0x40010000
abbrev Reg.MPLL_CFG : Nat := 0x40010004
abbrev Reg.MPLL_DIV : Nat := 0x40010008
abbrev Reg.MPLL_FRAC : Nat := 0x4001000C
abbrev Reg.MPLL_SEED : Nat := 0x40010010
abbrev Reg.MPLL_ACQ : Nat := 0x40010014
abbrev Reg.MPLL_STATUS : Nat := 0x40010018
abbrev Reg.MPLL_LOOP : Nat := 0x4001001C
abbrev Reg.MPLL_EVENTS : Nat := 0x40010020
abbrev Reg.MPLL_BAND (i : Nat) : Nat := 0x40010040 + 0x4 * i
abbrev Reg.MPLL_BANDF (i : Nat) : Nat := 0x40010080 + 0x4 * i
abbrev Reg.MNCO_FW_LO : Nat := 0x40010100
abbrev Reg.MNCO_FW_HI : Nat := 0x40010104
abbrev Reg.MNCO_ADJ : Nat := 0x40010108
abbrev Reg.MNCO_ADJ_NOW : Nat := 0x4001010C
abbrev Reg.CLKOUT_CTRL : Nat := 0x40010110
abbrev Reg.PWR_CTRL : Nat := 0x40020000
abbrev Reg.PWR_STBY : Nat := 0x40020004
abbrev Reg.PWR_STATUS : Nat := 0x40020008
abbrev Reg.PWR_RST : Nat := 0x4002000C
abbrev Reg.PWR_RTC_SEC : Nat := 0x40020010
abbrev Reg.PWR_RTC_SUB : Nat := 0x40020014
abbrev Reg.PWR_WAKE_TIME : Nat := 0x40020018
abbrev Reg.PWR_SCRATCH (i : Nat) : Nat := 0x40020020 + 0x4 * i
abbrev Reg.BOOT_STATUS : Nat := 0x40030000
abbrev Reg.BOOT_SEQ : Nat := 0x40030004
abbrev Reg.BOOT_CTRL : Nat := 0x40030008
abbrev Reg.BOOT_SAFE : Nat := 0x4003000C
abbrev Reg.BOOT_SAFE_REQ : Nat := 0x40030010
abbrev Reg.BOOT_FAILCNT : Nat := 0x40030014
abbrev Reg.BOOT_WDT : Nat := 0x40030018
abbrev Reg.BOOT_LC_REQ : Nat := 0x4003001C
abbrev Reg.BOOT_OTP : Nat := 0x40030020
abbrev Reg.BOOT_OTP_CMD : Nat := 0x40030024
abbrev Reg.BOOT_RUN : Nat := 0x40030028
abbrev Reg.FL_ADDR : Nat := 0x40030030
abbrev Reg.FL_CMD : Nat := 0x40030034
abbrev Reg.FL_STATUS : Nat := 0x40030038
abbrev Reg.FL_DATA (i : Nat) : Nat := 0x40030040 + 0x4 * i
abbrev Reg.DBG_CHAL (i : Nat) : Nat := 0x40030080 + 0x4 * i
abbrev Reg.DBG_CTL : Nat := 0x400300A0
abbrev Reg.DBG_RESP (i : Nat) : Nat := 0x40030100 + 0x4 * i
abbrev Reg.MEM_CTRL : Nat := 0x40040000
abbrev Reg.MEM_STATUS : Nat := 0x40040004
abbrev Reg.MEM_ECC : Nat := 0x40040008
abbrev Reg.MEM_ERRADDR : Nat := 0x4004000C
abbrev Reg.MEM_OWN_ERR : Nat := 0x40040010
abbrev Reg.MEM_OWN_INFO : Nat := 0x40040014
abbrev Reg.MEM_DEC_ERR : Nat := 0x40040018
abbrev Reg.MEM_DEC_ADDR : Nat := 0x4004001C
abbrev Reg.MEM_DEC_INFO : Nat := 0x40040020
abbrev Reg.TACK_CTRL : Nat := 0x40040024
abbrev Reg.MEM_BANK_OWNER (i : Nat) : Nat := 0x40040100 + 0x4 * i
abbrev Reg.MEM_BANK_ATTR (i : Nat) : Nat := 0x40040180 + 0x4 * i
abbrev Reg.MEM_BANK_MAP (i : Nat) : Nat := 0x40040200 + 0x4 * i
abbrev Reg.MEM_BANK_STAT (i : Nat) : Nat := 0x40040280 + 0x4 * i
abbrev Reg.TICK_MODE : Nat := 0x40050000
abbrev Reg.TICK_TIMING : Nat := 0x40050004
abbrev Reg.TICK_SAMPLE_LO : Nat := 0x40050008
abbrev Reg.TICK_SAMPLE_HI : Nat := 0x4005000C
abbrev Reg.TICK_FRAME_LO : Nat := 0x40050010
abbrev Reg.TICK_FRAME_HI : Nat := 0x40050014
abbrev Reg.TICK_POS : Nat := 0x40050018
abbrev Reg.TICK_STATUS : Nat := 0x4005001C
abbrev Reg.TICK_SWITCH : Nat := 0x40050020
abbrev Reg.RILL_CTRL (i : Nat) : Nat := 0x40100000 + 0x1000 * i
abbrev Reg.RILL_PROG (i : Nat) : Nat := 0x40100004 + 0x1000 * i
abbrev Reg.RILL_COMMIT (i : Nat) : Nat := 0x40100008 + 0x1000 * i
abbrev Reg.RILL_STATUS (i : Nat) : Nat := 0x4010000C + 0x1000 * i
abbrev Reg.RILL_ACTIVE (i : Nat) : Nat := 0x40100010 + 0x1000 * i
abbrev Reg.RILL_LIMIT (i : Nat) : Nat := 0x40100014 + 0x1000 * i
abbrev Reg.RILL_NOISE_SEED (i : Nat) : Nat := 0x40100018 + 0x1000 * i
abbrev Reg.RILL_LUT_CFG (i : Nat) : Nat := 0x4010001C + 0x1000 * i
abbrev Reg.RILL_PTR_LO (i : Nat) : Nat := 0x40100020 + 0x1000 * i
abbrev Reg.RILL_PTR_HI (i : Nat) : Nat := 0x40100024 + 0x1000 * i
abbrev Reg.RILL_ECC (i : Nat) : Nat := 0x40100028 + 0x1000 * i
abbrev Reg.RILL_ERRADDR (i : Nat) : Nat := 0x4010002C + 0x1000 * i
abbrev Reg.BASIN_CTRL (i : Nat) : Nat := 0x40200000 + 0x1000 * i
abbrev Reg.BASIN_COMMIT (i : Nat) : Nat := 0x40200004 + 0x1000 * i
abbrev Reg.BASIN_STATUS (i : Nat) : Nat := 0x40200008 + 0x1000 * i
abbrev Reg.BASIN_ACTIVE (i : Nat) : Nat := 0x4020000C + 0x1000 * i
abbrev Reg.BASIN_SHED (i : Nat) : Nat := 0x40200010 + 0x1000 * i
abbrev Reg.BASIN_MISS (i : Nat) : Nat := 0x40200014 + 0x1000 * i
abbrev Reg.BASIN_BUSY (i : Nat) : Nat := 0x40200018 + 0x1000 * i
abbrev Reg.BASIN_PEAK (i : Nat) : Nat := 0x4020001C + 0x1000 * i
abbrev Reg.BASIN_LIMIT (i : Nat) : Nat := 0x40200020 + 0x1000 * i
abbrev Reg.BASIN_NOISE_SEED (i : Nat) : Nat := 0x40200024 + 0x1000 * i
abbrev Reg.BASIN_FAULT (i : Nat) : Nat := 0x40200028 + 0x1000 * i
abbrev Reg.BASIN_ECC (i : Nat) : Nat := 0x4020002C + 0x1000 * i
abbrev Reg.BASIN_ERRADDR (i : Nat) : Nat := 0x40200030 + 0x1000 * i
abbrev Reg.CC_STATUS : Nat := 0x40209000
abbrev Reg.CC_CACHE : Nat := 0x40209004
abbrev Reg.CC_CACHE_MISS : Nat := 0x40209008
abbrev Reg.FABRIC_CTRL : Nat := 0x40300000
abbrev Reg.FABRIC_COMMIT : Nat := 0x40300004
abbrev Reg.FABRIC_STATUS : Nat := 0x40300008
abbrev Reg.FABRIC_LIMIT : Nat := 0x4030000C
abbrev Reg.FABRIC_FADES : Nat := 0x40300010
abbrev Reg.FABRIC_ECC : Nat := 0x40300014
abbrev Reg.FABRIC_ERRADDR : Nat := 0x40300018
abbrev Reg.CASCADE_CTRL : Nat := 0x40310000
abbrev Reg.CASCADE_COMMIT : Nat := 0x40310004
abbrev Reg.CASCADE_STATUS : Nat := 0x40310008
abbrev Reg.CASCADE_LIMIT : Nat := 0x4031000C
abbrev Reg.CASCADE_NOISE_SEED : Nat := 0x40310010
abbrev Reg.CASCADE_ECC : Nat := 0x40310014
abbrev Reg.CASCADE_ERRADDR : Nat := 0x40310018
abbrev Reg.SL_STATUS : Nat := 0x40310100
abbrev Reg.SL_PEND_LO : Nat := 0x40310104
abbrev Reg.SL_PEND_HI : Nat := 0x40310108
abbrev Reg.SL_ABORT : Nat := 0x4031010C
abbrev Reg.SL_LAST_SWAP : Nat := 0x40310110
abbrev Reg.SL_GMASK_LO (i : Nat) : Nat := 0x40310140 + 0x8 * i
abbrev Reg.SL_GMASK_HI (i : Nat) : Nat := 0x40310144 + 0x8 * i
abbrev Reg.RB_CTRL : Nat := 0x40320000
abbrev Reg.RB_COMMIT : Nat := 0x40320004
abbrev Reg.RB_STATUS : Nat := 0x40320008
abbrev Reg.RB_NOWRITE : Nat := 0x4032000C
abbrev Reg.RB_ECC : Nat := 0x40320010
abbrev Reg.RB_ERRADDR : Nat := 0x40320014
abbrev Reg.PDM_CLK_EN : Nat := 0x40400000
abbrev Reg.PDM_CFG : Nat := 0x40400004
abbrev Reg.PDM_EN (i : Nat) : Nat := 0x40400010 + 0x4 * i
abbrev Reg.PDM_STUCK (i : Nat) : Nat := 0x40400020 + 0x4 * i
abbrev Reg.PDM_STATUS : Nat := 0x40400030
abbrev Reg.PDM_SAT_COUNT : Nat := 0x40400034
abbrev Reg.PDM_TRIM (i : Nat) : Nat := 0x40400200 + 0x4 * i
abbrev Reg.ANA_CTRL : Nat := 0x40410000
abbrev Reg.ANA_ADC_CFG (i : Nat) : Nat := 0x40410010 + 0x4 * i
abbrev Reg.ANA_STATUS : Nat := 0x40410020
abbrev Reg.TDM_CTRL (i : Nat) : Nat := 0x40420000 + 0x1000 * i
abbrev Reg.TDM_FRAME (i : Nat) : Nat := 0x40420004 + 0x1000 * i
abbrev Reg.TDM_RX_SLOTS (i : Nat) : Nat := 0x40420008 + 0x1000 * i
abbrev Reg.TDM_TX_SLOTS (i : Nat) : Nat := 0x4042000C + 0x1000 * i
abbrev Reg.TDM_DITHER (i : Nat) : Nat := 0x40420010 + 0x1000 * i
abbrev Reg.TDM_ASRC (i : Nat) : Nat := 0x40420014 + 0x1000 * i
abbrev Reg.TDM_STATUS (i : Nat) : Nat := 0x40420018 + 0x1000 * i
abbrev Reg.TDM_SLIP_COUNT (i : Nat) : Nat := 0x4042001C + 0x1000 * i
abbrev Reg.TDM_SAT_COUNT (i : Nat) : Nat := 0x40420020 + 0x1000 * i
abbrev Reg.TDM_DLL (i : Nat) : Nat := 0x40420024 + 0x1000 * i
abbrev Reg.TDM_PHASE (i : Nat) : Nat := 0x40420028 + 0x1000 * i
abbrev Reg.TDM_NOISE_SEED (i : Nat) : Nat := 0x4042002C + 0x1000 * i
abbrev Reg.ASRC_USED (i : Nat) : Nat := 0x40430000 + 0x4 * i
abbrev Reg.ASRC_RATIO (i : Nat) : Nat := 0x40430010 + 0x4 * i
abbrev Reg.ASRC_STATUS : Nat := 0x40430020
abbrev Reg.ETH_CTRL (i : Nat) : Nat := 0x40500000 + 0x10000 * i
abbrev Reg.ETH_STATUS (i : Nat) : Nat := 0x40500004 + 0x10000 * i
abbrev Reg.ETH_MAC_LO (i : Nat) : Nat := 0x40500008 + 0x10000 * i
abbrev Reg.ETH_MAC_HI (i : Nat) : Nat := 0x4050000C + 0x10000 * i
abbrev Reg.ETH_MAXLEN (i : Nat) : Nat := 0x40500010 + 0x10000 * i
abbrev Reg.ETH_CBS_IDLE (p i : Nat) : Nat := 0x40500020 + 0x10000 * p + 8 * i
abbrev Reg.ETH_CBS_HI (p i : Nat) : Nat := 0x40500024 + 0x10000 * p + 8 * i
abbrev Reg.ETH_EEE (i : Nat) : Nat := 0x40500030 + 0x10000 * i
abbrev Reg.ETH_DS (i : Nat) : Nat := 0x40500034 + 0x10000 * i
abbrev Reg.ETH_MDIO_CMD (i : Nat) : Nat := 0x40500038 + 0x10000 * i
abbrev Reg.ETH_MDIO_DATA (i : Nat) : Nat := 0x4050003C + 0x10000 * i
abbrev Reg.ETH_TXQ (p i : Nat) : Nat := 0x40500040 + 0x10000 * p + 4 * i
abbrev Reg.ETH_RXQ (p i : Nat) : Nat := 0x40500060 + 0x10000 * p + 4 * i
abbrev Reg.ETH_FILT_A (p i : Nat) : Nat := 0x40500100 + 0x10000 * p + 16 * i
abbrev Reg.ETH_FILT_B (p i : Nat) : Nat := 0x40500104 + 0x10000 * p + 16 * i
abbrev Reg.ETH_FILT_C (p i : Nat) : Nat := 0x40500108 + 0x10000 * p + 16 * i
abbrev Reg.ETH_TXTS_STAT (i : Nat) : Nat := 0x40500300 + 0x10000 * i
abbrev Reg.ETH_TXTS_TAG (i : Nat) : Nat := 0x40500304 + 0x10000 * i
abbrev Reg.ETH_TXTS_NS (i : Nat) : Nat := 0x40500308 + 0x10000 * i
abbrev Reg.ETH_TXTS_SEC_LO (i : Nat) : Nat := 0x4050030C + 0x10000 * i
abbrev Reg.ETH_TXTS_SEC_HI (i : Nat) : Nat := 0x40500310 + 0x10000 * i
abbrev Reg.ETH_TS_LAT (i : Nat) : Nat := 0x40500314 + 0x10000 * i
abbrev Reg.ETH_HALF (p i : Nat) : Nat := 0x40500380 + 0x10000 * p + 4 * i
abbrev Reg.ETH_INT_EN (i : Nat) : Nat := 0x40500388 + 0x10000 * i
abbrev Reg.ETH_CNT (p i : Nat) : Nat := 0x40500400 + 0x10000 * p + 4 * i
abbrev Reg.T1S_PLCA : Nat := 0x40520800
abbrev Reg.T1S_AUDIO : Nat := 0x40520804
abbrev Reg.T1S_AUDIO_DA_LO : Nat := 0x40520808
abbrev Reg.T1S_AUDIO_DA_HI : Nat := 0x4052080C
abbrev Reg.T1S_CH : Nat := 0x40520810
abbrev Reg.T1S_ASTATUS : Nat := 0x40520814
abbrev Reg.STR_STATUS : Nat := 0x40530000
abbrev Reg.STR_UNMATCHED : Nat := 0x40530004
abbrev Reg.STR_CFG : Nat := 0x40530008
abbrev Reg.STR_NOISE_SEED : Nat := 0x4053000C
abbrev Reg.STX_CTRL (i : Nat) : Nat := 0x40531000 + 0x20 * i
abbrev Reg.STX_HDR (i : Nat) : Nat := 0x40531004 + 0x20 * i
abbrev Reg.STX_OFFSET (i : Nat) : Nat := 0x40531008 + 0x20 * i
abbrev Reg.STX_MOFF (i : Nat) : Nat := 0x4053100C + 0x20 * i
abbrev Reg.STX_COUNT (i : Nat) : Nat := 0x40531010 + 0x20 * i
abbrev Reg.SRX_CTRL (i : Nat) : Nat := 0x40533000 + 0x20 * i
abbrev Reg.SRX_KEY_LO (i : Nat) : Nat := 0x40533004 + 0x20 * i
abbrev Reg.SRX_KEY_HI (i : Nat) : Nat := 0x40533008 + 0x20 * i
abbrev Reg.SRX_MOFF (i : Nat) : Nat := 0x4053300C + 0x20 * i
abbrev Reg.SRX_LINK (i : Nat) : Nat := 0x40533010 + 0x20 * i
abbrev Reg.SRX_CNT_A (i : Nat) : Nat := 0x40533014 + 0x20 * i
abbrev Reg.SRX_CNT_B (i : Nat) : Nat := 0x40533018 + 0x20 * i
abbrev Reg.SRX_STATE (i : Nat) : Nat := 0x4053301C + 0x20 * i
abbrev Reg.TIME_CTRL : Nat := 0x40540000
abbrev Reg.TIME_NS : Nat := 0x40540004
abbrev Reg.TIME_SEC_LO : Nat := 0x40540008
abbrev Reg.TIME_SEC_HI : Nat := 0x4054000C
abbrev Reg.TIME_INC : Nat := 0x40540010
abbrev Reg.TIME_SET_NS : Nat := 0x40540014
abbrev Reg.TIME_SET_SEC_LO : Nat := 0x40540018
abbrev Reg.TIME_SET_SEC_HI : Nat := 0x4054001C
abbrev Reg.TIME_SET_CMD : Nat := 0x40540020
abbrev Reg.TIME_STATUS : Nat := 0x40540024
abbrev Reg.TIME_MEDIA_LO : Nat := 0x40540030
abbrev Reg.TIME_MEDIA_HI : Nat := 0x40540034
abbrev Reg.TIME_SERVO : Nat := 0x40540040
abbrev Reg.TIME_SERVO_ERR : Nat := 0x40540044
abbrev Reg.TIME_CAP_CFG (i : Nat) : Nat := 0x40540080 + 0x10 * i
abbrev Reg.TIME_CAP_NS (i : Nat) : Nat := 0x40540084 + 0x10 * i
abbrev Reg.TIME_CAP_SEC_LO (i : Nat) : Nat := 0x40540088 + 0x10 * i
abbrev Reg.TIME_CAP_SEC_HI (i : Nat) : Nat := 0x4054008C + 0x10 * i
abbrev Reg.TIME_CMP_CFG (i : Nat) : Nat := 0x405400C0 + 0x10 * i
abbrev Reg.TIME_CMP_NS (i : Nat) : Nat := 0x405400C4 + 0x10 * i
abbrev Reg.TIME_CMP_SEC (i : Nat) : Nat := 0x405400C8 + 0x10 * i
abbrev Reg.TIME_CMP_PERIOD (i : Nat) : Nat := 0x405400CC + 0x10 * i
abbrev Reg.HOST_CTRL : Nat := 0x40600000
abbrev Reg.HOST_STATUS : Nat := 0x40600004
abbrev Reg.HOST_MIRROR_LO : Nat := 0x40600008
abbrev Reg.HOST_MIRROR_HI : Nat := 0x4060000C
abbrev Reg.HOST_VEC_AGG : Nat := 0x40600010
abbrev Reg.HOST_EVT_LOST : Nat := 0x40600014
abbrev Reg.HOST_TAGS : Nat := 0x40600018
abbrev Reg.HOST_INB_ERRADDR : Nat := 0x4060001C
abbrev Reg.HOST_LOCAL_PEND : Nat := 0x40600020
abbrev Reg.HOST_SAT_COUNT : Nat := 0x40600024
abbrev Reg.HOST_NOISE_SEED : Nat := 0x40600028
abbrev Reg.HOST_DITHER (i : Nat) : Nat := 0x40600030 + 0x4 * i
abbrev Reg.RING_BASE_LO (i : Nat) : Nat := 0x40601000 + 0x10 * i
abbrev Reg.RING_BASE_HI (i : Nat) : Nat := 0x40601004 + 0x10 * i
abbrev Reg.RING_CFG (i : Nat) : Nat := 0x40601008 + 0x10 * i
abbrev Reg.RING_STATE (i : Nat) : Nat := 0x4060100C + 0x10 * i
abbrev Reg.RING_AUD (i : Nat) : Nat := 0x40602000 + 0x4 * i
abbrev Reg.RING_AUDCNT (i : Nat) : Nat := 0x40602040 + 0x4 * i
abbrev Reg.HOST_DOORBELL (i : Nat) : Nat := 0x40608000 + 0x4 * i
abbrev Reg.CSP_CTRL : Nat := 0x40610000
abbrev Reg.CSP_STATUS : Nat := 0x40610004
abbrev Reg.CSP_M_CFG : Nat := 0x40610010
abbrev Reg.CSP_M_PHASE : Nat := 0x40610014
abbrev Reg.CSP_M_CMD : Nat := 0x40610018
abbrev Reg.CSP_M_ADDR : Nat := 0x4061001C
abbrev Reg.CSP_M_LEN : Nat := 0x40610020
abbrev Reg.CSP_M_FIFO : Nat := 0x40610024
abbrev Reg.CSP_M_STATUS : Nat := 0x40610028
abbrev Reg.CSP_SL_CFG : Nat := 0x40610030
abbrev Reg.CSP_SL_ERRS : Nat := 0x40610034
abbrev Reg.CSP_SL_DROP : Nat := 0x40610038
abbrev Reg.SUP_CTRL : Nat := 0x40700000
abbrev Reg.SUP_STATE : Nat := 0x40700004
abbrev Reg.SUP_REPORT0 : Nat := 0x40700008
abbrev Reg.SUP_REPORT1 : Nat := 0x4070000C
abbrev Reg.SUP_REPORT2 : Nat := 0x40700010
abbrev Reg.SUP_REPORT3 : Nat := 0x40700014
abbrev Reg.SUP_TEMP (i : Nat) : Nat := 0x40700020 + 0x4 * i
abbrev Reg.SUP_RAIL : Nat := 0x40700030
abbrev Reg.SUP_RAIL_CNT : Nat := 0x40700034
abbrev Reg.SUP_FIRED : Nat := 0x40700040
abbrev Reg.SUP_PBLK (i : Nat) : Nat := 0x40700080 + 0x4 * i
abbrev Reg.FAR_CTRL : Nat := 0x40710000
abbrev Reg.FAR_STATUS : Nat := 0x40710004
abbrev Reg.FAR_PERIOD : Nat := 0x40710008
abbrev Reg.FAR_TARGET : Nat := 0x4071000C
abbrev Reg.FAR_COUNTS : Nat := 0x40710010
abbrev Reg.FAR_SPARES : Nat := 0x40710014
abbrev Reg.FAR_RETIRED_R : Nat := 0x40710020
abbrev Reg.FAR_RETIRED_B : Nat := 0x40710024
abbrev Reg.FAR_BANK_CFG : Nat := 0x40710028
abbrev Reg.FAR_BANK_REQ : Nat := 0x4071002C
abbrev Reg.FAR_INIT : Nat := 0x40710030
abbrev Reg.FAR_BIST : Nat := 0x40710034
abbrev Reg.FAR_ROLE (i : Nat) : Nat := 0x40710040 + 0x4 * i
abbrev Reg.FAR_LANE_MAP (i : Nat) : Nat := 0x407100C0 + 0x4 * i
abbrev Reg.TETH_CFG : Nat := 0x40800000
abbrev Reg.TETH_STATUS : Nat := 0x40800004
abbrev Reg.TETH_WITNESS : Nat := 0x40800008
abbrev Reg.TETH_SHARED_LO : Nat := 0x4080000C
abbrev Reg.TETH_SHARED_HI : Nat := 0x40800010
abbrev Reg.TETH_SYNC_FRAME : Nat := 0x40800014
abbrev Reg.TETH_SYNC_CTL : Nat := 0x40800018
abbrev Reg.TETH_MSG_TX : Nat := 0x40800020
abbrev Reg.TETH_MSG_RX : Nat := 0x40800024
abbrev Reg.TETH_COMMIT (i : Nat) : Nat := 0x40800100 + 0x40 * i
abbrev Reg.TETH_PSTAT (i : Nat) : Nat := 0x40800104 + 0x40 * i
abbrev Reg.TETH_PHASE (i : Nat) : Nat := 0x40800108 + 0x40 * i
abbrev Reg.TETH_ERR (i : Nat) : Nat := 0x4080010C + 0x40 * i
abbrev Reg.GPIO_CFG (i : Nat) : Nat := 0x40900000 + 0x4 * i
abbrev Reg.GPIO_IN (i : Nat) : Nat := 0x40900200 + 0x4 * i
abbrev Reg.GPIO_SET (i : Nat) : Nat := 0x40900210 + 0x4 * i
abbrev Reg.GPIO_CLR (i : Nat) : Nat := 0x40900220 + 0x4 * i
abbrev Reg.GPIO_IRQ (i : Nat) : Nat := 0x40900230 + 0x4 * i
abbrev Reg.DBG_BP (i : Nat) : Nat := 0x40F00000 + 0x4 * i
abbrev Reg.DBG_HIT : Nat := 0x40F00010
abbrev Reg.TETH_TXE (p i : Nat) : Nat := 0x40801000 + 0x1000 * p + 4 * i
abbrev Reg.TETH_RXE (p i : Nat) : Nat := 0x40801800 + 0x1000 * p + 4 * i

/-- The registers of block Sys. -/
def regsSys : List RegDesc := [
  ⟨"SYS_ID", 0x40000000, 1, 0x0, 1, 0, 0x18360A01, 0x0, 0x0, 0x0⟩,
  ⟨"SYS_STATUS", 0x40000004, 1, 0x0, 1, 0, 0x0, 0x0, 0x0, 0x1F⟩,
  ⟨"SYS_CONFLICT", 0x40000008, 1, 0x0, 1, 0, 0x0, 0x0, 0x0, 0x0⟩,
  ⟨"SYS_UNMAPPED", 0x4000000C, 1, 0x0, 1, 0, 0x0, 0x0, 0x0, 0x0⟩,
  ⟨"SYS_IRQ_RAW", 0x40000010, 1, 0x0, 1, 0, 0x0, 0x0, 0x0, 0x0⟩,
  ⟨"SYS_IRQ_EN_CC", 0x40000014, 1, 0x0, 1, 0, 0x0, 0x3FFFFFF, 0x0, 0x0⟩,
  ⟨"SYS_IRQ_EN_HOST", 0x40000018, 1, 0x0, 1, 0, 0x0, 0x3FFFFFF, 0x0, 0x0⟩,
  ⟨"SYS_IRQ_PEND_CC", 0x4000001C, 1, 0x0, 1, 0, 0x0, 0x0, 0x0, 0x0⟩,
  ⟨"SYS_IRQ_PEND_HOST", 0x40000020, 1, 0x0, 1, 0, 0x0, 0x0, 0x0, 0x0⟩,
  ⟨"SYS_IRQ_HOST_ACK", 0x40000024, 1, 0x0, 1, 0, 0x0, 0x0, 0x0, 0x0⟩]

/-- The registers of block Clk. -/
def regsClk : List RegDesc := [
  ⟨"CLK_STATUS", 0x40010000, 1, 0x0, 1, 0, 0xC0, 0x0, 0x0, 0x0⟩,
  ⟨"MPLL_CFG", 0x40010004, 1, 0x0, 1, 0, 0x0, 0x7F3F, 0x0, 0x0⟩,
  ⟨"MPLL_DIV", 0x40010008, 1, 0x0, 1, 0, 0x100001, 0xFFFFFFF, 0x0, 0x0⟩,
  ⟨"MPLL_FRAC", 0x4001000C, 1, 0x0, 1, 0, 0x0, 0xFFFFFF, 0x0, 0x0⟩,
  ⟨"MPLL_SEED", 0x40010010, 1, 0x0, 1, 0, 0x0, 0xFFFFFF, 0x0, 0x0⟩,
  ⟨"MPLL_ACQ", 0x40010014, 1, 0x0, 1, 0, 0x100, 0x1FF, 0x0, 0x0⟩,
  ⟨"MPLL_STATUS", 0x40010018, 1, 0x0, 1, 0, 0x0, 0x0, 0x0, 0x3FF⟩,
  ⟨"MPLL_LOOP", 0x4001001C, 1, 0x0, 1, 0, 0x0, 0x0, 0x0, 0x0⟩,
  ⟨"MPLL_EVENTS", 0x40010020, 1, 0x0, 1, 0, 0x0, 0x0, 0x0, 0x0⟩,
  ⟨"MPLL_BAND", 0x40010040, 16, 0x4, 1, 0, 0x0, 0x8003FF3F, 0x0, 0x0⟩,
  ⟨"MPLL_BANDF", 0x40010080, 16, 0x4, 1, 0, 0x0, 0x7FFFFF, 0x0, 0x0⟩,
  ⟨"MNCO_FW_LO", 0x40010100, 1, 0x0, 1, 0, 0x0, 0xFFFFFFFF, 0x0, 0x0⟩,
  ⟨"MNCO_FW_HI", 0x40010104, 1, 0x0, 1, 0, 0x200, 0xFFFF, 0x0, 0x0⟩,
  ⟨"MNCO_ADJ", 0x40010108, 1, 0x0, 1, 0, 0x0, 0xFFFFFFFF, 0x0, 0x0⟩,
  ⟨"MNCO_ADJ_NOW", 0x4001010C, 1, 0x0, 1, 0, 0x0, 0x0, 0x0, 0x0⟩,
  ⟨"CLKOUT_CTRL", 0x40010110, 1, 0x0, 1, 0, 0x0, 0x1F, 0x0, 0x0⟩]

/-- The registers of block Pwr. -/
def regsPwr : List RegDesc := [
  ⟨"PWR_CTRL", 0x40020000, 1, 0x0, 1, 0, 0x0, 0x3F, 0x0, 0x0⟩,
  ⟨"PWR_STBY", 0x40020004, 1, 0x0, 1, 0, 0x0, 0x0, 0x0, 0x0⟩,
  ⟨"PWR_STATUS", 0x40020008, 1, 0x0, 1, 0, 0x0, 0x0, 0x0, 0x1⟩,
  ⟨"PWR_RST", 0x4002000C, 1, 0x0, 1, 0, 0x0, 0x0, 0x0, 0x0⟩,
  ⟨"PWR_RTC_SEC", 0x40020010, 1, 0x0, 1, 0, 0x0, 0xFFFFFFFF, 0x0, 0x0⟩,
  ⟨"PWR_RTC_SUB", 0x40020014, 1, 0x0, 1, 0, 0x0, 0x0, 0x0, 0x0⟩,
  ⟨"PWR_WAKE_TIME", 0x40020018, 1, 0x0, 1, 0, 0x0, 0xFFFFFFFF, 0x0, 0x0⟩,
  ⟨"PWR_SCRATCH", 0x40020020, 4, 0x4, 1, 0, 0x0, 0xFFFFFFFF, 0x0, 0x0⟩]

/-- The registers of block Boot. -/
def regsBoot : List RegDesc := [
  ⟨"BOOT_STATUS", 0x40030000, 1, 0x0, 1, 0, 0x0, 0x0, 0x0, 0x100000⟩,
  ⟨"BOOT_SEQ", 0x40030004, 1, 0x0, 1, 0, 0x0, 0x0, 0x0, 0x0⟩,
  ⟨"BOOT_CTRL", 0x40030008, 1, 0x0, 1, 0, 0x0, 0x0, 0x0, 0x0⟩,
  ⟨"BOOT_SAFE", 0x4003000C, 1, 0x0, 1, 0, 0x0, 0x0, 0x0, 0x0⟩,
  ⟨"BOOT_SAFE_REQ", 0x40030010, 1, 0x0, 1, 0, 0x0, 0x0, 0x0, 0x0⟩,
  ⟨"BOOT_FAILCNT", 0x40030014, 1, 0x0, 1, 0, 0x0, 0x0, 0x0, 0x0⟩,
  ⟨"BOOT_WDT", 0x40030018, 1, 0x0, 1, 0, 0xA, 0x0, 0x0, 0x0⟩,
  ⟨"BOOT_LC_REQ", 0x4003001C, 1, 0x0, 1, 0, 0x0, 0x0, 0x0, 0x0⟩,
  ⟨"BOOT_OTP", 0x40030020, 1, 0x0, 1, 0, 0x0, 0x0, 0x0, 0x0⟩,
  ⟨"BOOT_OTP_CMD", 0x40030024, 1, 0x0, 1, 0, 0x0, 0x0, 0x0, 0x0⟩,
  ⟨"BOOT_RUN", 0x40030028, 1, 0x0, 1, 0, 0x0, 0x1FFFFFF, 0x0, 0x0⟩,
  ⟨"FL_ADDR", 0x40030030, 1, 0x0, 1, 0, 0x0, 0x7FFFFF, 0x0, 0x0⟩,
  ⟨"FL_CMD", 0x40030034, 1, 0x0, 1, 0, 0x0, 0x0, 0x0, 0x0⟩,
  ⟨"FL_STATUS", 0x40030038, 1, 0x0, 1, 0, 0x0, 0x0, 0x0, 0x1E⟩,
  ⟨"FL_DATA", 0x40030040, 4, 0x4, 1, 0, 0x0, 0xFFFFFFFF, 0x0, 0x0⟩,
  ⟨"DBG_CHAL", 0x40030080, 8, 0x4, 1, 0, 0x0, 0x0, 0x0, 0x0⟩,
  ⟨"DBG_CTL", 0x400300A0, 1, 0x0, 1, 0, 0x0, 0x3, 0x0, 0x0⟩,
  ⟨"DBG_RESP", 0x40030100, 32, 0x4, 1, 0, 0x0, 0xFFFFFFFF, 0x0, 0x0⟩]

/-- The registers of block Mem. -/
def regsMem : List RegDesc := [
  ⟨"MEM_CTRL", 0x40040000, 1, 0x0, 1, 0, 0x100000, 0xFFFF01, 0x0, 0x0⟩,
  ⟨"MEM_STATUS", 0x40040004, 1, 0x0, 1, 0, 0x0, 0x0, 0x0, 0x7F⟩,
  ⟨"MEM_ECC", 0x40040008, 1, 0x0, 1, 0, 0x0, 0x0, 0x0, 0x0⟩,
  ⟨"MEM_ERRADDR", 0x4004000C, 1, 0x0, 1, 0, 0x0, 0x0, 0x0, 0x0⟩,
  ⟨"MEM_OWN_ERR", 0x40040010, 1, 0x0, 1, 0, 0x0, 0x0, 0x0, 0x0⟩,
  ⟨"MEM_OWN_INFO", 0x40040014, 1, 0x0, 1, 0, 0x0, 0x0, 0x0, 0x0⟩,
  ⟨"MEM_DEC_ERR", 0x40040018, 1, 0x0, 1, 0, 0x0, 0x0, 0x0, 0x0⟩,
  ⟨"MEM_DEC_ADDR", 0x4004001C, 1, 0x0, 1, 0, 0x0, 0x0, 0x0, 0x0⟩,
  ⟨"MEM_DEC_INFO", 0x40040020, 1, 0x0, 1, 0, 0x0, 0x0, 0x0, 0x0⟩,
  ⟨"TACK_CTRL", 0x40040024, 1, 0x0, 1, 0, 0x0, 0x0, 0x0, 0x0⟩,
  ⟨"MEM_BANK_OWNER", 0x40040100, 32, 0x4, 1, 0, 0x10001, 0x1F, 0x0, 0x0⟩,
  ⟨"MEM_BANK_ATTR", 0x40040180, 32, 0x4, 1, 0, 0x0, 0x3, 0x0, 0x0⟩,
  ⟨"MEM_BANK_MAP", 0x40040200, 32, 0x4, 1, 0, 0x0, 0x0, 0x0, 0x0⟩,
  ⟨"MEM_BANK_STAT", 0x40040280, 32, 0x4, 1, 0, 0x0, 0x0, 0x0, 0x0⟩]

/-- The registers of block Tick. -/
def regsTick : List RegDesc := [
  ⟨"TICK_MODE", 0x40050000, 1, 0x0, 1, 0, 0x3, 0x0, 0x0, 0x0⟩,
  ⟨"TICK_TIMING", 0x40050004, 1, 0x0, 1, 0, 0x0, 0x0, 0x0, 0x0⟩,
  ⟨"TICK_SAMPLE_LO", 0x40050008, 1, 0x0, 1, 0, 0x0, 0x0, 0x0, 0x0⟩,
  ⟨"TICK_SAMPLE_HI", 0x4005000C, 1, 0x0, 1, 0, 0x0, 0x0, 0x0, 0x0⟩,
  ⟨"TICK_FRAME_LO", 0x40050010, 1, 0x0, 1, 0, 0x0, 0x0, 0x0, 0x0⟩,
  ⟨"TICK_FRAME_HI", 0x40050014, 1, 0x0, 1, 0, 0x0, 0x0, 0x0, 0x0⟩,
  ⟨"TICK_POS", 0x40050018, 1, 0x0, 1, 0, 0x0, 0x0, 0x0, 0x0⟩,
  ⟨"TICK_STATUS", 0x4005001C, 1, 0x0, 1, 0, 0x0, 0x0, 0x0, 0x3⟩,
  ⟨"TICK_SWITCH", 0x40050020, 1, 0x0, 1, 0, 0x0, 0x0, 0x0, 0x0⟩]

/-- The registers of block Rill. -/
def regsRill : List RegDesc := [
  ⟨"RILL_CTRL", 0x40100000, 17, 0x1000, 1, 0, 0x0, 0x2, 0x1, 0x0⟩,
  ⟨"RILL_PROG", 0x40100004, 17, 0x1000, 1, 0, 0x0, 0x0, 0x3FFFF, 0x0⟩,
  ⟨"RILL_COMMIT", 0x40100008, 17, 0x1000, 1, 0, 0x0, 0xF0, 0x0, 0x0⟩,
  ⟨"RILL_STATUS", 0x4010000C, 17, 0x1000, 1, 0, 0x0, 0x0, 0x0, 0xFF⟩,
  ⟨"RILL_ACTIVE", 0x40100010, 17, 0x1000, 1, 0, 0x0, 0x0, 0x0, 0x0⟩,
  ⟨"RILL_LIMIT", 0x40100014, 17, 0x1000, 1, 0, 0x0, 0x0, 0x0, 0x0⟩,
  ⟨"RILL_NOISE_SEED", 0x40100018, 17, 0x1000, 1, 0, 0x0, 0x0, 0xFFFFFFFF, 0x0⟩,
  ⟨"RILL_LUT_CFG", 0x4010001C, 17, 0x1000, 1, 0, 0x0, 0x0, 0xF, 0x0⟩,
  ⟨"RILL_PTR_LO", 0x40100020, 17, 0x1000, 1, 0, 0x0, 0x0, 0x0, 0x0⟩,
  ⟨"RILL_PTR_HI", 0x40100024, 17, 0x1000, 1, 0, 0x0, 0x0, 0x0, 0x0⟩,
  ⟨"RILL_ECC", 0x40100028, 17, 0x1000, 1, 0, 0x0, 0x0, 0x0, 0x0⟩,
  ⟨"RILL_ERRADDR", 0x4010002C, 17, 0x1000, 1, 0, 0x0, 0x0, 0x0, 0x0⟩]

/-- The registers of block Basin. -/
def regsBasin : List RegDesc := [
  ⟨"BASIN_CTRL", 0x40200000, 9, 0x1000, 1, 0, 0x0, 0x2, 0x5, 0x0⟩,
  ⟨"BASIN_COMMIT", 0x40200004, 9, 0x1000, 1, 0, 0x0, 0xF0, 0x0, 0x0⟩,
  ⟨"BASIN_STATUS", 0x40200008, 9, 0x1000, 1, 0, 0x0, 0x0, 0x0, 0x3FF⟩,
  ⟨"BASIN_ACTIVE", 0x4020000C, 9, 0x1000, 1, 0, 0x0, 0x0, 0x0, 0x0⟩,
  ⟨"BASIN_SHED", 0x40200010, 9, 0x1000, 1, 0, 0x10, 0x1F, 0x0, 0x0⟩,
  ⟨"BASIN_MISS", 0x40200014, 9, 0x1000, 1, 0, 0x0, 0x0, 0x0, 0x0⟩,
  ⟨"BASIN_BUSY", 0x40200018, 9, 0x1000, 1, 0, 0x0, 0x0, 0x0, 0x0⟩,
  ⟨"BASIN_PEAK", 0x4020001C, 9, 0x1000, 1, 0, 0x0, 0x0, 0x0, 0x0⟩,
  ⟨"BASIN_LIMIT", 0x40200020, 9, 0x1000, 1, 0, 0x0, 0x0, 0x0, 0x0⟩,
  ⟨"BASIN_NOISE_SEED", 0x40200024, 9, 0x1000, 1, 0, 0x0, 0x0, 0xFFFFFFFF, 0x0⟩,
  ⟨"BASIN_FAULT", 0x40200028, 9, 0x1000, 1, 0, 0x0, 0x0, 0x0, 0x0⟩,
  ⟨"BASIN_ECC", 0x4020002C, 9, 0x1000, 1, 0, 0x0, 0x0, 0x0, 0x0⟩,
  ⟨"BASIN_ERRADDR", 0x40200030, 9, 0x1000, 1, 0, 0x0, 0x0, 0x0, 0x0⟩,
  ⟨"CC_STATUS", 0x40209000, 1, 0x0, 1, 0, 0x0, 0x0, 0x0, 0x1⟩,
  ⟨"CC_CACHE", 0x40209004, 1, 0x0, 1, 0, 0x1, 0x1, 0x0, 0x0⟩,
  ⟨"CC_CACHE_MISS", 0x40209008, 1, 0x0, 1, 0, 0x0, 0x0, 0x0, 0x0⟩]

/-- The registers of block Fabric. -/
def regsFabric : List RegDesc := [
  ⟨"FABRIC_CTRL", 0x40300000, 1, 0x0, 1, 0, 0x0, 0x1, 0x0, 0x0⟩,
  ⟨"FABRIC_COMMIT", 0x40300004, 1, 0x0, 1, 0, 0x0, 0xF0, 0x0, 0x0⟩,
  ⟨"FABRIC_STATUS", 0x40300008, 1, 0x0, 1, 0, 0x0, 0x0, 0x0, 0xFF⟩,
  ⟨"FABRIC_LIMIT", 0x4030000C, 1, 0x0, 1, 0, 0x0, 0x0, 0x0, 0x0⟩,
  ⟨"FABRIC_FADES", 0x40300010, 1, 0x0, 1, 0, 0x0, 0x0, 0x0, 0x0⟩,
  ⟨"FABRIC_ECC", 0x40300014, 1, 0x0, 1, 0, 0x0, 0x0, 0x0, 0x0⟩,
  ⟨"FABRIC_ERRADDR", 0x40300018, 1, 0x0, 1, 0, 0x0, 0x0, 0x0, 0x0⟩]

/-- The registers of block Cascade. -/
def regsCascade : List RegDesc := [
  ⟨"CASCADE_CTRL", 0x40310000, 1, 0x0, 1, 0, 0x0, 0x1, 0x0, 0x0⟩,
  ⟨"CASCADE_COMMIT", 0x40310004, 1, 0x0, 1, 0, 0x0, 0xF0, 0x0, 0x0⟩,
  ⟨"CASCADE_STATUS", 0x40310008, 1, 0x0, 1, 0, 0x0, 0x0, 0x0, 0xFF⟩,
  ⟨"CASCADE_LIMIT", 0x4031000C, 1, 0x0, 1, 0, 0x0, 0x0, 0x0, 0x0⟩,
  ⟨"CASCADE_NOISE_SEED", 0x40310010, 1, 0x0, 1, 0, 0x0, 0x0, 0xFFFFFFFF, 0x0⟩,
  ⟨"CASCADE_ECC", 0x40310014, 1, 0x0, 1, 0, 0x0, 0x0, 0x0, 0x0⟩,
  ⟨"CASCADE_ERRADDR", 0x40310018, 1, 0x0, 1, 0, 0x0, 0x0, 0x0, 0x0⟩,
  ⟨"SL_STATUS", 0x40310100, 1, 0x0, 1, 0, 0x0, 0x0, 0x0, 0x3⟩,
  ⟨"SL_PEND_LO", 0x40310104, 1, 0x0, 1, 0, 0x0, 0x0, 0x0, 0x0⟩,
  ⟨"SL_PEND_HI", 0x40310108, 1, 0x0, 1, 0, 0x0, 0x0, 0x0, 0x0⟩,
  ⟨"SL_ABORT", 0x4031010C, 1, 0x0, 1, 0, 0x0, 0x0, 0x0, 0x0⟩,
  ⟨"SL_LAST_SWAP", 0x40310110, 1, 0x0, 1, 0, 0x0, 0x0, 0x0, 0x0⟩,
  ⟨"SL_GMASK_LO", 0x40310140, 15, 0x8, 1, 0, 0x0, 0x1FFFFFFF, 0x0, 0x0⟩,
  ⟨"SL_GMASK_HI", 0x40310144, 15, 0x8, 1, 0, 0x0, 0x0, 0x0, 0x0⟩]

/-- The registers of block RillBus. -/
def regsRillBus : List RegDesc := [
  ⟨"RB_CTRL", 0x40320000, 1, 0x0, 1, 0, 0x0, 0x1, 0x0, 0x0⟩,
  ⟨"RB_COMMIT", 0x40320004, 1, 0x0, 1, 0, 0x0, 0xF0, 0x0, 0x0⟩,
  ⟨"RB_STATUS", 0x40320008, 1, 0x0, 1, 0, 0x0, 0x0, 0x0, 0x3F⟩,
  ⟨"RB_NOWRITE", 0x4032000C, 1, 0x0, 1, 0, 0x0, 0x0, 0x0, 0x0⟩,
  ⟨"RB_ECC", 0x40320010, 1, 0x0, 1, 0, 0x0, 0x0, 0x0, 0x0⟩,
  ⟨"RB_ERRADDR", 0x40320014, 1, 0x0, 1, 0, 0x0, 0x0, 0x0, 0x0⟩]

/-- The registers of block Pdm. -/
def regsPdm : List RegDesc := [
  ⟨"PDM_CLK_EN", 0x40400000, 1, 0x0, 1, 0, 0x0, 0xFF, 0x0, 0x0⟩,
  ⟨"PDM_CFG", 0x40400004, 1, 0x0, 1, 0, 0x0, 0x7FFFF, 0x0, 0x0⟩,
  ⟨"PDM_EN", 0x40400010, 4, 0x4, 1, 0, 0x0, 0xFFFFFFFF, 0x0, 0x0⟩,
  ⟨"PDM_STUCK", 0x40400020, 4, 0x4, 1, 0, 0x0, 0x0, 0x0, 0xFFFFFFFF⟩,
  ⟨"PDM_STATUS", 0x40400030, 1, 0x0, 1, 0, 0x0, 0x0, 0x0, 0x3⟩,
  ⟨"PDM_SAT_COUNT", 0x40400034, 1, 0x0, 1, 0, 0x0, 0x0, 0x0, 0x0⟩,
  ⟨"PDM_TRIM", 0x40400200, 128, 0x4, 1, 0, 0x0, 0x1FF, 0x0, 0x0⟩]

/-- The registers of block Analog. -/
def regsAnalog : List RegDesc := [
  ⟨"ANA_CTRL", 0x40410000, 1, 0x0, 1, 0, 0x0, 0x3FF, 0x0, 0x0⟩,
  ⟨"ANA_ADC_CFG", 0x40410010, 4, 0x4, 1, 0, 0x0, 0x73F, 0x0, 0x0⟩,
  ⟨"ANA_STATUS", 0x40410020, 1, 0x0, 1, 0, 0x0, 0x0, 0x0, 0xFF⟩]

/-- The registers of block Tdm. -/
def regsTdm : List RegDesc := [
  ⟨"TDM_CTRL", 0x40420000, 4, 0x1000, 1, 0, 0x0, 0x3F, 0x0, 0x0⟩,
  ⟨"TDM_FRAME", 0x40420004, 4, 0x1000, 1, 0, 0x0, 0xFF3FF, 0x0, 0x0⟩,
  ⟨"TDM_RX_SLOTS", 0x40420008, 4, 0x1000, 1, 0, 0x0, 0xFFFFFFFF, 0x0, 0x0⟩,
  ⟨"TDM_TX_SLOTS", 0x4042000C, 4, 0x1000, 1, 0, 0x0, 0xFFFFFFFF, 0x0, 0x0⟩,
  ⟨"TDM_DITHER", 0x40420010, 4, 0x1000, 1, 0, 0x0, 0xFFFFFFFF, 0x0, 0x0⟩,
  ⟨"TDM_ASRC", 0x40420014, 4, 0x1000, 1, 0, 0x0, 0x7F7F, 0x0, 0x0⟩,
  ⟨"TDM_STATUS", 0x40420018, 4, 0x1000, 1, 0, 0x0, 0x0, 0x0, 0x3F⟩,
  ⟨"TDM_SLIP_COUNT", 0x4042001C, 4, 0x1000, 1, 0, 0x0, 0x0, 0x0, 0x0⟩,
  ⟨"TDM_SAT_COUNT", 0x40420020, 4, 0x1000, 1, 0, 0x0, 0x0, 0x0, 0x0⟩,
  ⟨"TDM_DLL", 0x40420024, 4, 0x1000, 1, 0, 0x0, 0x0, 0x0, 0x0⟩,
  ⟨"TDM_PHASE", 0x40420028, 4, 0x1000, 1, 0, 0x0, 0x0, 0x0, 0x0⟩,
  ⟨"TDM_NOISE_SEED", 0x4042002C, 4, 0x1000, 1, 0, 0x0, 0xFFFFFFFF, 0x0, 0x0⟩]

/-- The registers of block Asrc. -/
def regsAsrc : List RegDesc := [
  ⟨"ASRC_USED", 0x40430000, 4, 0x4, 1, 0, 0x0, 0x0, 0x0, 0x0⟩,
  ⟨"ASRC_RATIO", 0x40430010, 4, 0x4, 1, 0, 0x0, 0x0, 0x0, 0x0⟩,
  ⟨"ASRC_STATUS", 0x40430020, 1, 0x0, 1, 0, 0x0, 0x0, 0x0, 0xF0⟩]

/-- The registers of block Eth. -/
def regsEth : List RegDesc := [
  ⟨"ETH_CTRL", 0x40500000, 2, 0x10000, 1, 0, 0x0, 0xFFF, 0x0, 0x0⟩,
  ⟨"ETH_STATUS", 0x40500004, 2, 0x10000, 1, 0, 0x0, 0x0, 0x0, 0x7FF00⟩,
  ⟨"ETH_MAC_LO", 0x40500008, 2, 0x10000, 1, 0, 0x0, 0xFFFFFFFF, 0x0, 0x0⟩,
  ⟨"ETH_MAC_HI", 0x4050000C, 2, 0x10000, 1, 0, 0x0, 0xFFFF, 0x0, 0x0⟩,
  ⟨"ETH_MAXLEN", 0x40500010, 2, 0x10000, 1, 0, 0x5F2, 0x3FFF, 0x0, 0x0⟩,
  ⟨"ETH_CBS_IDLE", 0x40500020, 2, 0x10000, 2, 8, 0x0, 0x803FFFFF, 0x0, 0x0⟩,
  ⟨"ETH_CBS_HI", 0x40500024, 2, 0x10000, 2, 8, 0x0, 0xFFFFFF, 0x0, 0x0⟩,
  ⟨"ETH_EEE", 0x40500030, 2, 0x10000, 1, 0, 0x110064, 0xFFFFFFFF, 0x0, 0x0⟩,
  ⟨"ETH_DS", 0x40500034, 2, 0x10000, 1, 0, 0xF1E0A, 0x7FFFFFFF, 0x0, 0x0⟩,
  ⟨"ETH_MDIO_CMD", 0x40500038, 2, 0x10000, 1, 0, 0x0, 0xFFFFFFF, 0x0, 0x0⟩,
  ⟨"ETH_MDIO_DATA", 0x4050003C, 2, 0x10000, 1, 0, 0x0, 0xFFFF, 0x0, 0x0⟩,
  ⟨"ETH_TXQ", 0x40500040, 2, 0x10000, 8, 4, 0x8, 0x17F, 0x0, 0x0⟩,
  ⟨"ETH_RXQ", 0x40500060, 2, 0x10000, 8, 4, 0x10, 0xFF, 0x0, 0x0⟩,
  ⟨"ETH_FILT_A", 0x40500100, 2, 0x10000, 32, 16, 0x0, 0xFFFFFFFF, 0x0, 0x0⟩,
  ⟨"ETH_FILT_B", 0x40500104, 2, 0x10000, 32, 16, 0x0, 0xFFFFFFFF, 0x0, 0x0⟩,
  ⟨"ETH_FILT_C", 0x40500108, 2, 0x10000, 32, 16, 0x0, 0x81FF7FFF, 0x0, 0x0⟩,
  ⟨"ETH_TXTS_STAT", 0x40500300, 2, 0x10000, 1, 0, 0x0, 0x0, 0x0, 0x0⟩,
  ⟨"ETH_TXTS_TAG", 0x40500304, 2, 0x10000, 1, 0, 0x0, 0x0, 0x0, 0x0⟩,
  ⟨"ETH_TXTS_NS", 0x40500308, 2, 0x10000, 1, 0, 0x0, 0x0, 0x0, 0x0⟩,
  ⟨"ETH_TXTS_SEC_LO", 0x4050030C, 2, 0x10000, 1, 0, 0x0, 0x0, 0x0, 0x0⟩,
  ⟨"ETH_TXTS_SEC_HI", 0x40500310, 2, 0x10000, 1, 0, 0x0, 0x0, 0x0, 0x0⟩,
  ⟨"ETH_TS_LAT", 0x40500314, 2, 0x10000, 1, 0, 0x0, 0xFFFFFFFF, 0x0, 0x0⟩,
  ⟨"ETH_HALF", 0x40500380, 2, 0x10000, 2, 4, 0x0, 0x0, 0x0, 0xFFFFFFFF⟩,
  ⟨"ETH_INT_EN", 0x40500388, 2, 0x10000, 1, 0, 0x0, 0x7FF01, 0x0, 0x0⟩,
  ⟨"ETH_CNT", 0x40500400, 2, 0x10000, 64, 4, 0x0, 0x0, 0x0, 0x0⟩]

/-- The registers of block T1s. -/
def regsT1s : List RegDesc := [
  ⟨"T1S_ETH_CTRL", 0x40520000, 1, 0x10000, 1, 0, 0x0, 0x3E3, 0x0, 0x0⟩,
  ⟨"T1S_ETH_STATUS", 0x40520004, 1, 0x10000, 1, 0, 0x0, 0x0, 0x0, 0x7FF00⟩,
  ⟨"T1S_ETH_MAC_LO", 0x40520008, 1, 0x10000, 1, 0, 0x0, 0xFFFFFFFF, 0x0, 0x0⟩,
  ⟨"T1S_ETH_MAC_HI", 0x4052000C, 1, 0x10000, 1, 0, 0x0, 0xFFFF, 0x0, 0x0⟩,
  ⟨"T1S_ETH_MAXLEN", 0x40520010, 1, 0x10000, 1, 0, 0x5F2, 0x3FFF, 0x0, 0x0⟩,
  ⟨"T1S_ETH_CBS_IDLE", 0x40520020, 1, 0x10000, 2, 8, 0x0, 0x0, 0x0, 0x0⟩,
  ⟨"T1S_ETH_CBS_HI", 0x40520024, 1, 0x10000, 2, 8, 0x0, 0x0, 0x0, 0x0⟩,
  ⟨"T1S_ETH_EEE", 0x40520030, 1, 0x10000, 1, 0, 0x0, 0x0, 0x0, 0x0⟩,
  ⟨"T1S_ETH_DS", 0x40520034, 1, 0x10000, 1, 0, 0x0, 0x0, 0x0, 0x0⟩,
  ⟨"T1S_ETH_MDIO_CMD", 0x40520038, 1, 0x10000, 1, 0, 0x0, 0x0, 0x0, 0x0⟩,
  ⟨"T1S_ETH_MDIO_DATA", 0x4052003C, 1, 0x10000, 1, 0, 0x0, 0x0, 0x0, 0x0⟩,
  ⟨"T1S_ETH_TXQ", 0x40520040, 1, 0x10000, 8, 4, 0x8, 0x7F, 0x0, 0x0⟩,
  ⟨"T1S_ETH_RXQ", 0x40520060, 1, 0x10000, 8, 4, 0x10, 0xFF, 0x0, 0x0⟩,
  ⟨"T1S_ETH_FILT_A", 0x40520100, 1, 0x10000, 32, 16, 0x0, 0xFFFFFFFF, 0x0, 0x0⟩,
  ⟨"T1S_ETH_FILT_B", 0x40520104, 1, 0x10000, 32, 16, 0x0, 0xFFFFFFFF, 0x0, 0x0⟩,
  ⟨"T1S_ETH_FILT_C", 0x40520108, 1, 0x10000, 32, 16, 0x0, 0x81FF7FFF, 0x0, 0x0⟩,
  ⟨"T1S_ETH_TXTS_STAT", 0x40520300, 1, 0x10000, 1, 0, 0x0, 0x0, 0x0, 0x0⟩,
  ⟨"T1S_ETH_TXTS_TAG", 0x40520304, 1, 0x10000, 1, 0, 0x0, 0x0, 0x0, 0x0⟩,
  ⟨"T1S_ETH_TXTS_NS", 0x40520308, 1, 0x10000, 1, 0, 0x0, 0x0, 0x0, 0x0⟩,
  ⟨"T1S_ETH_TXTS_SEC_LO", 0x4052030C, 1, 0x10000, 1, 0, 0x0, 0x0, 0x0, 0x0⟩,
  ⟨"T1S_ETH_TXTS_SEC_HI", 0x40520310, 1, 0x10000, 1, 0, 0x0, 0x0, 0x0, 0x0⟩,
  ⟨"T1S_ETH_TS_LAT", 0x40520314, 1, 0x10000, 1, 0, 0x0, 0xFFFFFFFF, 0x0, 0x0⟩,
  ⟨"T1S_ETH_HALF", 0x40520380, 1, 0x10000, 2, 4, 0x0, 0x0, 0x0, 0xFFFFFFFF⟩,
  ⟨"T1S_ETH_INT_EN", 0x40520388, 1, 0x10000, 1, 0, 0x0, 0x7FF01, 0x0, 0x0⟩,
  ⟨"T1S_ETH_CNT", 0x40520400, 1, 0x10000, 64, 4, 0x0, 0x0, 0x0, 0x0⟩,
  ⟨"T1S_PLCA", 0x40520800, 1, 0x0, 1, 0, 0x8100, 0x3FFFFF, 0x0, 0x0⟩,
  ⟨"T1S_AUDIO", 0x40520804, 1, 0x0, 1, 0, 0x1116A, 0x1FFFF, 0x0, 0x0⟩,
  ⟨"T1S_AUDIO_DA_LO", 0x40520808, 1, 0x0, 1, 0, 0x0, 0xFFFFFFFF, 0x0, 0x0⟩,
  ⟨"T1S_AUDIO_DA_HI", 0x4052080C, 1, 0x0, 1, 0, 0x0, 0xFFFF, 0x0, 0x0⟩,
  ⟨"T1S_CH", 0x40520810, 1, 0x0, 1, 0, 0x0, 0xFFFFFFFF, 0x0, 0x0⟩,
  ⟨"T1S_ASTATUS", 0x40520814, 1, 0x0, 1, 0, 0x0, 0x0, 0x0, 0xF00⟩]

/-- The registers of block Stream. -/
def regsStream : List RegDesc := [
  ⟨"STR_STATUS", 0x40530000, 1, 0x0, 1, 0, 0x0, 0x0, 0x0, 0x7⟩,
  ⟨"STR_UNMATCHED", 0x40530004, 1, 0x0, 1, 0, 0x0, 0x0, 0x0, 0x0⟩,
  ⟨"STR_CFG", 0x40530008, 1, 0x0, 1, 0, 0xA, 0xFF, 0x0, 0x0⟩,
  ⟨"STR_NOISE_SEED", 0x4053000C, 1, 0x0, 1, 0, 0x0, 0xFFFFFFFF, 0x0, 0x0⟩,
  ⟨"STX_CTRL", 0x40531000, 64, 0x20, 1, 0, 0x0, 0x3FFFFFF, 0x0, 0x0⟩,
  ⟨"STX_HDR", 0x40531004, 64, 0x20, 1, 0, 0x0, 0xFFFFFFFF, 0x0, 0x0⟩,
  ⟨"STX_OFFSET", 0x40531008, 64, 0x20, 1, 0, 0x0, 0xFFFFFFFF, 0x0, 0x0⟩,
  ⟨"STX_MOFF", 0x4053100C, 64, 0x20, 1, 0, 0x0, 0xFFFFFFFF, 0x0, 0x0⟩,
  ⟨"STX_COUNT", 0x40531010, 64, 0x20, 1, 0, 0x0, 0x0, 0x0, 0x0⟩,
  ⟨"SRX_CTRL", 0x40533000, 64, 0x20, 1, 0, 0x0, 0xFFFFFFC7, 0x0, 0x0⟩,
  ⟨"SRX_KEY_LO", 0x40533004, 64, 0x20, 1, 0, 0x0, 0xFFFFFFFF, 0x0, 0x0⟩,
  ⟨"SRX_KEY_HI", 0x40533008, 64, 0x20, 1, 0, 0x0, 0xFFFFFFFF, 0x0, 0x0⟩,
  ⟨"SRX_MOFF", 0x4053300C, 64, 0x20, 1, 0, 0x0, 0xFFFFFFFF, 0x0, 0x0⟩,
  ⟨"SRX_LINK", 0x40533010, 64, 0x20, 1, 0, 0x0, 0xFFFFFFFF, 0x0, 0x0⟩,
  ⟨"SRX_CNT_A", 0x40533014, 64, 0x20, 1, 0, 0x0, 0x0, 0x0, 0x0⟩,
  ⟨"SRX_CNT_B", 0x40533018, 64, 0x20, 1, 0, 0x0, 0x0, 0x0, 0x0⟩,
  ⟨"SRX_STATE", 0x4053301C, 64, 0x20, 1, 0, 0x0, 0x0, 0x0, 0x0⟩]

/-- The registers of block Time. -/
def regsTime : List RegDesc := [
  ⟨"TIME_CTRL", 0x40540000, 1, 0x0, 1, 0, 0x0, 0x1, 0x0, 0x0⟩,
  ⟨"TIME_NS", 0x40540004, 1, 0x0, 1, 0, 0x0, 0x0, 0x0, 0x0⟩,
  ⟨"TIME_SEC_LO", 0x40540008, 1, 0x0, 1, 0, 0x0, 0x0, 0x0, 0x0⟩,
  ⟨"TIME_SEC_HI", 0x4054000C, 1, 0x0, 1, 0, 0x0, 0x0, 0x0, 0x0⟩,
  ⟨"TIME_INC", 0x40540010, 1, 0x0, 1, 0, 0x28B0AAAB, 0xFFFFFFFF, 0x0, 0x0⟩,
  ⟨"TIME_SET_NS", 0x40540014, 1, 0x0, 1, 0, 0x0, 0xFFFFFFFF, 0x0, 0x0⟩,
  ⟨"TIME_SET_SEC_LO", 0x40540018, 1, 0x0, 1, 0, 0x0, 0xFFFFFFFF, 0x0, 0x0⟩,
  ⟨"TIME_SET_SEC_HI", 0x4054001C, 1, 0x0, 1, 0, 0x0, 0xFFFF, 0x0, 0x0⟩,
  ⟨"TIME_SET_CMD", 0x40540020, 1, 0x0, 1, 0, 0x0, 0x0, 0x0, 0x0⟩,
  ⟨"TIME_STATUS", 0x40540024, 1, 0x0, 1, 0, 0x0, 0x0, 0x0, 0xFFF0E⟩,
  ⟨"TIME_MEDIA_LO", 0x40540030, 1, 0x0, 1, 0, 0x0, 0xFFFFFFFF, 0x0, 0x0⟩,
  ⟨"TIME_MEDIA_HI", 0x40540034, 1, 0x0, 1, 0, 0x0, 0xFFFFFFFF, 0x0, 0x0⟩,
  ⟨"TIME_SERVO", 0x40540040, 1, 0x0, 1, 0, 0x3E80A12, 0xFFFF1F1F, 0x0, 0x0⟩,
  ⟨"TIME_SERVO_ERR", 0x40540044, 1, 0x0, 1, 0, 0x0, 0x0, 0x0, 0x0⟩,
  ⟨"TIME_CAP_CFG", 0x40540080, 4, 0x10, 1, 0, 0x0, 0xF, 0x0, 0x0⟩,
  ⟨"TIME_CAP_NS", 0x40540084, 4, 0x10, 1, 0, 0x0, 0x0, 0x0, 0x0⟩,
  ⟨"TIME_CAP_SEC_LO", 0x40540088, 4, 0x10, 1, 0, 0x0, 0x0, 0x0, 0x0⟩,
  ⟨"TIME_CAP_SEC_HI", 0x4054008C, 4, 0x10, 1, 0, 0x0, 0x0, 0x0, 0x0⟩,
  ⟨"TIME_CMP_CFG", 0x405400C0, 2, 0x10, 1, 0, 0x0, 0xFF01, 0x0, 0x0⟩,
  ⟨"TIME_CMP_NS", 0x405400C4, 2, 0x10, 1, 0, 0x0, 0xFFFFFFFF, 0x0, 0x0⟩,
  ⟨"TIME_CMP_SEC", 0x405400C8, 2, 0x10, 1, 0, 0x0, 0xFFFFFFFF, 0x0, 0x0⟩,
  ⟨"TIME_CMP_PERIOD", 0x405400CC, 2, 0x10, 1, 0, 0x0, 0xFFFFFFFF, 0x0, 0x0⟩]

/-- The registers of block Host. -/
def regsHost : List RegDesc := [
  ⟨"HOST_CTRL", 0x40600000, 1, 0x0, 1, 0, 0x0, 0x3, 0x0, 0x0⟩,
  ⟨"HOST_STATUS", 0x40600004, 1, 0x0, 1, 0, 0x0, 0x0, 0x0, 0x1FF00⟩,
  ⟨"HOST_MIRROR_LO", 0x40600008, 1, 0x0, 1, 0, 0x0, 0xFFFFFFFF, 0x0, 0x0⟩,
  ⟨"HOST_MIRROR_HI", 0x4060000C, 1, 0x0, 1, 0, 0x0, 0xFFFFFFFF, 0x0, 0x0⟩,
  ⟨"HOST_VEC_AGG", 0x40600010, 1, 0x0, 1, 0, 0x0, 0x11F, 0x0, 0x0⟩,
  ⟨"HOST_EVT_LOST", 0x40600014, 1, 0x0, 1, 0, 0x0, 0x0, 0x0, 0x0⟩,
  ⟨"HOST_TAGS", 0x40600018, 1, 0x0, 1, 0, 0x0, 0x0, 0x0, 0x0⟩,
  ⟨"HOST_INB_ERRADDR", 0x4060001C, 1, 0x0, 1, 0, 0x0, 0x0, 0x0, 0x0⟩,
  ⟨"HOST_LOCAL_PEND", 0x40600020, 1, 0x0, 1, 0, 0x0, 0x0, 0x0, 0xFFFFFFFF⟩,
  ⟨"HOST_SAT_COUNT", 0x40600024, 1, 0x0, 1, 0, 0x0, 0x0, 0x0, 0x0⟩,
  ⟨"HOST_NOISE_SEED", 0x40600028, 1, 0x0, 1, 0, 0x0, 0xFFFFFFFF, 0x0, 0x0⟩,
  ⟨"HOST_DITHER", 0x40600030, 4, 0x4, 1, 0, 0x0, 0xFFFFFFFF, 0x0, 0x0⟩,
  ⟨"RING_BASE_LO", 0x40601000, 64, 0x10, 1, 0, 0x0, 0xFFFFFFFF, 0x0, 0x0⟩,
  ⟨"RING_BASE_HI", 0x40601004, 64, 0x10, 1, 0, 0x0, 0xFFFFFFFF, 0x0, 0x0⟩,
  ⟨"RING_CFG", 0x40601008, 64, 0x10, 1, 0, 0x0, 0xFF07FF, 0x0, 0x0⟩,
  ⟨"RING_STATE", 0x4060100C, 64, 0x10, 1, 0, 0x0, 0x0, 0x0, 0x10000⟩,
  ⟨"RING_AUD", 0x40602000, 16, 0x4, 1, 0, 0x0, 0xFF7FFF, 0x0, 0x0⟩,
  ⟨"RING_AUDCNT", 0x40602040, 16, 0x4, 1, 0, 0x0, 0x0, 0x0, 0x0⟩,
  ⟨"HOST_DOORBELL", 0x40608000, 64, 0x4, 1, 0, 0x0, 0x0, 0x0, 0x0⟩]

/-- The registers of block Csp. -/
def regsCsp : List RegDesc := [
  ⟨"CSP_CTRL", 0x40610000, 1, 0x0, 1, 0, 0x0, 0xFF01, 0x0, 0x0⟩,
  ⟨"CSP_STATUS", 0x40610004, 1, 0x0, 1, 0, 0x0, 0x0, 0x0, 0xFF⟩,
  ⟨"CSP_M_CFG", 0x40610010, 1, 0x0, 1, 0, 0x13, 0x3FF, 0x0, 0x0⟩,
  ⟨"CSP_M_PHASE", 0x40610014, 1, 0x0, 1, 0, 0x0, 0x7FFFFF, 0x0, 0x0⟩,
  ⟨"CSP_M_CMD", 0x40610018, 1, 0x0, 1, 0, 0x0, 0xFFFFFF, 0x0, 0x0⟩,
  ⟨"CSP_M_ADDR", 0x4061001C, 1, 0x0, 1, 0, 0x0, 0xFFFFFFFF, 0x0, 0x0⟩,
  ⟨"CSP_M_LEN", 0x40610020, 1, 0x0, 1, 0, 0x0, 0x1FFFF, 0x0, 0x0⟩,
  ⟨"CSP_M_FIFO", 0x40610024, 1, 0x0, 1, 0, 0x0, 0xFFFFFFFF, 0x0, 0x0⟩,
  ⟨"CSP_M_STATUS", 0x40610028, 1, 0x0, 1, 0, 0x0, 0x0, 0x0, 0x0⟩,
  ⟨"CSP_SL_CFG", 0x40610030, 1, 0x0, 1, 0, 0x0, 0xFF, 0x0, 0x0⟩,
  ⟨"CSP_SL_ERRS", 0x40610034, 1, 0x0, 1, 0, 0x0, 0x0, 0x0, 0x0⟩,
  ⟨"CSP_SL_DROP", 0x40610038, 1, 0x0, 1, 0, 0x0, 0x0, 0x0, 0x0⟩]

/-- The registers of block Sup. -/
def regsSup : List RegDesc := [
  ⟨"SUP_CTRL", 0x40700000, 1, 0x0, 1, 0, 0x0, 0x1, 0x0, 0x0⟩,
  ⟨"SUP_STATE", 0x40700004, 1, 0x0, 1, 0, 0x3000, 0x0, 0x0, 0x0⟩,
  ⟨"SUP_REPORT0", 0x40700008, 1, 0x0, 1, 0, 0x0, 0x0, 0x0, 0x0⟩,
  ⟨"SUP_REPORT1", 0x4070000C, 1, 0x0, 1, 0, 0x0, 0x0, 0x0, 0x0⟩,
  ⟨"SUP_REPORT2", 0x40700010, 1, 0x0, 1, 0, 0x0, 0x0, 0x0, 0x0⟩,
  ⟨"SUP_REPORT3", 0x40700014, 1, 0x0, 1, 0, 0x0, 0x0, 0x0, 0x0⟩,
  ⟨"SUP_TEMP", 0x40700020, 4, 0x4, 1, 0, 0x0, 0x0, 0x0, 0x0⟩,
  ⟨"SUP_RAIL", 0x40700030, 1, 0x0, 1, 0, 0x0, 0x0, 0x0, 0x1F⟩,
  ⟨"SUP_RAIL_CNT", 0x40700034, 1, 0x0, 1, 0, 0x0, 0x0, 0x0, 0x0⟩,
  ⟨"SUP_FIRED", 0x40700040, 1, 0x0, 1, 0, 0x0, 0x0, 0x0, 0x0⟩,
  ⟨"SUP_PBLK", 0x40700080, 8, 0x4, 1, 0, 0x0, 0x80001FFF, 0x0, 0x0⟩]

/-- The registers of block Farrier. -/
def regsFarrier : List RegDesc := [
  ⟨"FAR_CTRL", 0x40710000, 1, 0x0, 1, 0, 0x0, 0x1F, 0x0, 0x0⟩,
  ⟨"FAR_STATUS", 0x40710004, 1, 0x0, 1, 0, 0x700, 0x0, 0x0, 0x7F⟩,
  ⟨"FAR_PERIOD", 0x40710008, 1, 0x0, 1, 0, 0x7D0, 0xFFFF, 0x0, 0x0⟩,
  ⟨"FAR_TARGET", 0x4071000C, 1, 0x0, 1, 0, 0x0, 0x0, 0x0, 0x0⟩,
  ⟨"FAR_COUNTS", 0x40710010, 1, 0x0, 1, 0, 0x0, 0x0, 0x0, 0x0⟩,
  ⟨"FAR_SPARES", 0x40710014, 1, 0x0, 1, 0, 0x713FF, 0x0, 0x0, 0x0⟩,
  ⟨"FAR_RETIRED_R", 0x40710020, 1, 0x0, 1, 0, 0x0, 0x0, 0x0, 0x0⟩,
  ⟨"FAR_RETIRED_B", 0x40710024, 1, 0x0, 1, 0, 0x0, 0x0, 0x0, 0x0⟩,
  ⟨"FAR_BANK_CFG", 0x40710028, 1, 0x0, 1, 0, 0x40, 0xFFFF, 0x0, 0x0⟩,
  ⟨"FAR_BANK_REQ", 0x4071002C, 1, 0x0, 1, 0, 0x0, 0x1F, 0x0, 0x0⟩,
  ⟨"FAR_INIT", 0x40710030, 1, 0x0, 1, 0, 0x0, 0x0, 0x0, 0x0⟩,
  ⟨"FAR_BIST", 0x40710034, 1, 0x0, 1, 0, 0x0, 0x0, 0x0, 0x0⟩,
  ⟨"FAR_ROLE", 0x40710040, 26, 0x4, 1, 0, 0x0, 0x0, 0x0, 0x0⟩,
  ⟨"FAR_LANE_MAP", 0x407100C0, 8, 0x4, 1, 0, 0x0, 0x0, 0x0, 0x0⟩]

/-- The registers of block Tether. -/
def regsTether : List RegDesc := [
  ⟨"TETH_CFG", 0x40800000, 1, 0x0, 1, 0, 0x300, 0xFF0F3F, 0x0, 0x0⟩,
  ⟨"TETH_STATUS", 0x40800004, 1, 0x0, 1, 0, 0x0, 0x0, 0x0, 0x1F⟩,
  ⟨"TETH_WITNESS", 0x40800008, 1, 0x0, 1, 0, 0x0, 0xF, 0x0, 0x0⟩,
  ⟨"TETH_SHARED_LO", 0x4080000C, 1, 0x0, 1, 0, 0x0, 0xFFFFFFFF, 0x0, 0x0⟩,
  ⟨"TETH_SHARED_HI", 0x40800010, 1, 0x0, 1, 0, 0x0, 0xFFFFFFFF, 0x0, 0x0⟩,
  ⟨"TETH_SYNC_FRAME", 0x40800014, 1, 0x0, 1, 0, 0x0, 0xFFFFFFFF, 0x0, 0x0⟩,
  ⟨"TETH_SYNC_CTL", 0x40800018, 1, 0x0, 1, 0, 0x0, 0xF, 0x0, 0x0⟩,
  ⟨"TETH_MSG_TX", 0x40800020, 1, 0x0, 1, 0, 0x0, 0x0, 0x0, 0x0⟩,
  ⟨"TETH_MSG_RX", 0x40800024, 1, 0x0, 1, 0, 0x0, 0x0, 0x0, 0x0⟩,
  ⟨"TETH_COMMIT", 0x40800100, 2, 0x40, 1, 0, 0x0, 0xF0, 0x0, 0x0⟩,
  ⟨"TETH_PSTAT", 0x40800104, 2, 0x40, 1, 0, 0x0, 0x0, 0x0, 0x0⟩,
  ⟨"TETH_PHASE", 0x40800108, 2, 0x40, 1, 0, 0x0, 0x0, 0x0, 0x0⟩,
  ⟨"TETH_ERR", 0x4080010C, 2, 0x40, 1, 0, 0x0, 0x0, 0x0, 0x0⟩,
  ⟨"TETH_TXE", 0x40801000, 2, 0x1000, 512, 4, 0x0, 0x0, 0xC00007FF, 0x0⟩,
  ⟨"TETH_RXE", 0x40801800, 2, 0x1000, 512, 4, 0x0, 0x0, 0x800007FF, 0x0⟩]

/-- The registers of block Gpio. -/
def regsGpio : List RegDesc := [
  ⟨"GPIO_CFG", 0x40900000, 94, 0x4, 1, 0, 0x50, 0x3F7, 0x0, 0x0⟩,
  ⟨"GPIO_CFG", 0x40900178, 14, 0x4, 1, 0, 0x40, 0x3F7, 0x0, 0x0⟩,
  ⟨"GPIO_CFG", 0x409001B0, 16, 0x4, 1, 0, 0x50, 0x3F7, 0x0, 0x0⟩,
  ⟨"GPIO_IN", 0x40900200, 4, 0x4, 1, 0, 0x0, 0x0, 0x0, 0x0⟩,
  ⟨"GPIO_SET", 0x40900210, 4, 0x4, 1, 0, 0x0, 0x0, 0x0, 0x0⟩,
  ⟨"GPIO_CLR", 0x40900220, 4, 0x4, 1, 0, 0x0, 0x0, 0x0, 0x0⟩,
  ⟨"GPIO_IRQ", 0x40900230, 4, 0x4, 1, 0, 0x0, 0x0, 0x0, 0xFFFFFFFF⟩]

/-- The registers of block Debug. -/
def regsDebug : List RegDesc := [
  ⟨"DBG_BP", 0x40F00000, 4, 0x4, 1, 0, 0x0, 0xFFFFFFF1, 0x0, 0x0⟩,
  ⟨"DBG_HIT", 0x40F00010, 1, 0x0, 1, 0, 0x0, 0x0, 0x0, 0xF⟩]

/-- The block whose byte range of Table 22-3 holds address `a`, by its 64 KiB page. -/
def regBlock (a : Nat) : List RegDesc :=
  match a / 0x10000 with
  | 0x4000 => regsSys
  | 0x4001 => regsClk
  | 0x4002 => regsPwr
  | 0x4003 => regsBoot
  | 0x4004 => regsMem
  | 0x4005 => regsTick
  | 0x4010 => regsRill
  | 0x4020 => regsBasin
  | 0x4030 => regsFabric
  | 0x4031 => regsCascade
  | 0x4032 => regsRillBus
  | 0x4040 => regsPdm
  | 0x4041 => regsAnalog
  | 0x4042 => regsTdm
  | 0x4043 => regsAsrc
  | 0x4050 => regsEth
  | 0x4052 => regsT1s
  | 0x4053 => regsStream
  | 0x4054 => regsTime
  | 0x4060 => regsHost
  | 0x4061 => regsCsp
  | 0x4070 => regsSup
  | 0x4071 => regsFarrier
  | 0x4080 => regsTether
  | 0x4090 => regsGpio
  | 0x40F0 => regsDebug
  | 0x4011 => regsRill
  | 0x4051 => regsEth
  | _ => []

/-- The row that lists address `a`, if any. -/
def regFind (a : Nat) : Option RegDesc := (regBlock a).find? fun d => d.covers a

/-- The pages of the byte space that a register block decodes (Table 22-3). -/
def regPages : List Nat :=
  [0x4000, 0x4001, 0x4002, 0x4003, 0x4004, 0x4005, 0x4010, 0x4011, 0x4020, 0x4030, 0x4031, 0x4032, 0x4040, 0x4041, 0x4042, 0x4043, 0x4050, 0x4051, 0x4052, 0x4053, 0x4054, 0x4060, 0x4061, 0x4070, 0x4071, 0x4080, 0x4090, 0x40F0]

/-- Whether address `a` lies in the byte range of some block (R503). -/
def inRegBlock (a : Nat) : Bool := regPages.contains (a / 0x10000)

/-- The reset value of the register at `a`: the Reset column of its summary; MEM_BANK_MAP(b) resets to b and
FAR_ROLE(k) to the index of its own unit (Table 16-8, Table 19-9). An unlisted offset reads 0 (R504). -/
def regReset (a : Nat) : BitVec 32 :=
  if Reg.MEM_BANK_MAP 0 ≤ a ∧ a < Reg.MEM_BANK_MAP 32 then BitVec.ofNat 32 ((a - Reg.MEM_BANK_MAP 0) / 4)
  else if Reg.FAR_ROLE 0 ≤ a ∧ a < Reg.FAR_ROLE 17 then BitVec.ofNat 32 ((a - Reg.FAR_ROLE 0) / 4)
  else if Reg.FAR_ROLE 17 ≤ a ∧ a < Reg.FAR_ROLE 26 then BitVec.ofNat 32 ((a - Reg.FAR_ROLE 17) / 4)
  else match regFind a with
    | some d => d.reset
    | none => 0#32

end Sys2Proof.Machine
end

