-- ==== Sys2Proof/Machine/State.lean ====
section
/-! DEFINITION. The state of the TS-1836 as plain data, and the state right after reset. Registers stand in one sparse
store keyed by byte address (`regs`); what a register only shows of some other state is computed when it is read
(Machine/RegFile.lean). Memories are sparse stores; engines are indexed by logical role (R18, R19). -/
namespace Sys2Proof.Machine

/-! ### Ticks and modes (chapters 02 and 22) -/

/-- Where the supervisor's mode-change sequence stands (R32 to R36, Tables 02-8 and 02-8a). -/
inductive SeqPhase where
  /-- no change in progress -/
  | idle
  /-- accepted; the group is not yet complete, or no cutoff has passed (R33) -/
  | accepted
  /-- this frame tick is D: the group was complete at its cutoff (R34) -/
  | ready
  /-- TICK_SWITCH is armed and the outputs ramp to zero -/
  | rampDown
  /-- CORE runs on UTIL while the media PLL acquires, or CORE is stopped before the first mode -/
  | acquiring
  /-- S has passed; outputs are held at zero for two frames -/
  | hold
  /-- outputs ramp up -/
  | rampUp
  deriving DecidableEq, Repr

/-- What ends the sequence: a mode in force, STANDBY or SAFE (R30, R37, R38). -/
inductive SeqGoal where
  | mode
  | standby
  | safe
  deriving DecidableEq, Repr

/-- The mode change in progress. `heldFrames` counts the frame ticks since S; `refAcq` says that the switch needs
acquisition (a family change or exit from LISTEN). -/
structure ModeSeq where
  phase : SeqPhase
  goal : SeqGoal
  mode : BitVec 3
  family : Bool
  group : BitVec 4
  needAcq : Bool
  heldFrames : Nat
  first : Bool
  deriving DecidableEq, Repr

/-- The direction of the output ramp (R35). -/
inductive RampDir where
  | steady
  | down
  | up
  deriving DecidableEq, Repr

/-- The TICK block. `gain` is the output gain in 1/256. `boundaries` is the address unit's own count N of sample-tick
boundaries (R81). `frameDue` is 1 between a sample-tick boundary that is a frame tick and its frame-tick events. `gateSeen` is the media
PLL's gate as the deadline point of this frame saw it (R293), `outHold` the frames for which outputs that a switch tick muted have been
held at zero while a mode request waits (R20), `frameExtra` the cycles by which the first interval of this frame is lengthened (R21, R294,
R470). -/
structure TickState where
  entered : Bool
  mode : BitVec 3
  family : Bool
  pending : Bool
  pendMode : BitVec 3
  pendFamily : Bool
  sampleCnt : BitVec 64
  frameCnt : BitVec 64
  j : Nat
  boundaries : Nat
  ptr : BitVec 48
  frameDue : Bool
  seq : ModeSeq
  gain : Nat
  ramp : RampDir
  media : BitVec 64
  mediaLoad : Option (BitVec 64)
  gateSeen : Option Bool
  outHold : Option Nat
  frameExtra : Nat
  deriving DecidableEq, Repr

/-! ### Rill engines (chapter 04) -/

/-- Where a rill result in flight lands (R76). `view` is the value an accumulator shows to a source read, which follows
the accumulator by three steps. -/
inductive RillTarget where
  | d (i : Nat) (w : Word)
  | p (i : Nat) (b : Bool)
  | view (i : Nat) (a : Acc)
  deriving DecidableEq, Repr

/-- A rill result in flight: it is read by step `due` and every later step. -/
structure RillFlight where
  due : Nat
  tgt : RillTarget
  deriving DecidableEq, Repr

/-- One rill engine (Table 04-1). `stA`/`stS` are the copy in force and the shadow of the staged memories, keyed by
window offset less 0x38000 (Table 04-5); `prog` holds program steps keyed by 16,384 x page + step. -/
structure RillEngine where
  d : Vector Word 16
  acc : Vector AccReg 4
  view : Vector Acc 4
  p : Vector Bool 8
  cistern : Cells Word
  prog : Cells (BitVec 64)
  stA : Cells Word
  stS : Cells Word
  outw : Cells Word
  lfsr : BitVec 32
  lenA : BitVec 16
  pageA : BitVec 2
  runA : Bool
  lutA : BitVec 4
  step : Nat
  flights : List RillFlight
  govFrame : Bool
  deriving DecidableEq, Repr

/-- A rill engine after reset: everything zero, P0 reading 1 (R69, R105). -/
def RillEngine.zero : RillEngine :=
  { d := Vector.replicate 16 0#36, acc := Vector.replicate 4 ⟨0#80, false, false⟩, view := Vector.replicate 4 0#80,
    p := Vector.replicate 8 false, cistern := [], prog := [], stA := [], stS := [], outw := [], lfsr := 0#32,
    lenA := 0#16, pageA := 0#2, runA := false, lutA := 0#4, step := 0, flights := [], govFrame := false }


/-! ### Basin engines and the control core (chapters 06 and 07) -/

/-- Where a basin result in flight lands. Registers are physical: names were resolved at issue (R165). -/
inductive BasinTarget where
  | s (i : Nat) (w : Word)
  | v (i lane : Nat) (w : Word)
  | p (i : Nat) (b : Bool)
  | m (i : Nat) (x : BitVec 8)
  | view (i lane : Nat) (a : Acc)
  | lcnt (w : Word)
  | ecnt (w : Word)
  | epc (x : BitVec 32)
  | estat (x : BitVec 3)
  | vbar (x : BitVec 32)
  | scratch (i : Nat) (w : Word)
  deriving DecidableEq, Repr

/-- A basin result in flight: issued in bundle `issue` by the slot of rank `rank` (S 0, M 1, V 2; R164) and read by
bundle `due` and every later one. -/
structure BasinFlight where
  due : Nat
  issue : Nat
  rank : Nat
  tgt : BasinTarget
  deriving DecidableEq, Repr

/-- One frame DMA channel (R141, R142). `entry` is the frame-table entry that started it. -/
structure DmaChannel where
  busy : Bool
  err : Bool
  count : BitVec 16
  addr : BitVec 18
  entry : Nat
  deriving DecidableEq, Repr

/-- BRT's update (R171): the count it decreases, and the new P8. -/
structure BrtUpdate where
  lcnt : Option Word
  ecnt : Option Word
  p8 : Bool
  deriving DecidableEq, Repr

/-- A branch in flight: `left` bundles still to end, its own included, then the target, if the branch is taken (R170). `origin` is
the branch's own address; `rotate` holds BRT's update, and `rfe` the ESTAT.PIE that RFE read, both applied after the second delay
slot (R172, R173). -/
structure BranchState where
  left : Nat
  origin : BitVec 32
  target : Option (BitVec 32)
  rotate : Option BrtUpdate
  rfe : Option Bool
  deriving DecidableEq, Repr

/-- How a frame-table entry stands in the frame in progress. -/
inductive EntryStatus where
  | notRun
  | running
  | stopped
  /-- Stopped, with a transfer cancelled by a later entry's fault: it never completes (R39, R139). -/
  | cut
  | completed
  | faulted
  | missed
  deriving DecidableEq, Repr

/-- One core of the basin architecture (Table 06-1). `v` is keyed by 8 x register + lane, `va`/`vaView` by
8 x accumulator + lane; `code` by 32-bit word of the code store; `stA`/`stS` are the copy in force and the shadow of the
parameter store and the frame table, keyed by window offset less 0x50000 (Table 06-5). `busy` is the cycle of the frame at which an entry
last completed, and `busyMax` the largest BASIN_BUSY since the supervisor's last evaluation. `bundle` counts the bundles issued since the
dispatch and `begun` says that one is being issued; `sig` lists, by entry, the address and the word of every frame DMA write of the
frame (R454). -/
structure BasinEngine where
  s : Vector Word 32
  v : Cells Word
  p : Vector Bool 16
  m : Vector (BitVec 8) 8
  va : Cells AccReg
  vaView : Cells Acc
  lcnt : Word
  ecnt : Word
  rrbv : BitVec 5
  rrbp : BitVec 3
  ls : Cells Word
  code : Cells (BitVec 32)
  stA : Cells Word
  stS : Cells Word
  lfsr : BitVec 32
  runA : Bool
  halfA : Bool
  shed : BitVec 5
  dma : Vector DmaChannel 4
  bundle : Nat
  pc : BitVec 32
  branch : Option BranchState
  flights : List BasinFlight
  current : Option Nat
  nextEntry : Nat
  entries : Cells EntryStatus
  busy : BitVec 24
  begun : Bool
  sig : List (Nat × Nat × Word)
  busyMax : BitVec 24
  govFrame : Bool
  deriving DecidableEq, Repr

/-- The unlisted value of accumulator stores. -/
def accZero (_ : Nat) : AccReg := ⟨0#80, false, false⟩

/-- A core of the basin architecture after reset (R149). -/
def BasinEngine.zero : BasinEngine :=
  { s := Vector.replicate 32 0#36, v := [], p := Vector.replicate 16 false, m := Vector.replicate 8 0#8, va := [],
    vaView := [], lcnt := 0#36, ecnt := 0#36, rrbv := 0#5, rrbp := 0#3, ls := [], code := [], stA := [], stS := [],
    lfsr := 0#32, runA := false, halfA := false, shed := 16#5, dma := Vector.replicate 4 ⟨false, false, 0#16, 0#18, 0⟩,
    bundle := 0, pc := 0#32, branch := none, flights := [], current := none, nextEntry := 64, entries := [], busy := 0#24, begun := false, sig := [],
    busyMax := 0#24, govFrame := false }

/-- A line of the execute-in-place cache (R153): its way, the 64-byte flash line it holds, and the bytes fetched. -/
structure CacheLine where
  way : Nat
  line : Nat
  bytes : List Byte
  deriving DecidableEq, Repr

/-- The control core's own state beside its basin core (R151 to R158, Table 07-3). `trap` says that the bundle being issued holds a
TRAP, `atomicRun` counts the consecutive ATOMIC bundles issued, up to 8, `waiting` that a stop bundle halted issue, and `held` that
stage 0 has neither started an image nor entered SAFE. -/
structure CcState where
  epc : BitVec 32
  ie : Bool
  pie : Bool
  exl : Bool
  cause : BitVec 4
  vbar : BitVec 32
  scratch : Vector Word 4
  waiting : Bool
  held : Bool
  trap : Bool
  atomicRun : Nat
  cache : List CacheLine
  deriving DecidableEq, Repr

/-! ### Rill bus, troughs, mix fabric (chapter 09) -/

/-- The playout state of an output trough (Table 02-10, Table 09-5). -/
inductive Playout where
  | normal
  | hold
  | fade
  | silent
  deriving DecidableEq, Repr

/-- What an output trough plays in the frame in progress (Table 02-10): the image as it is, the last image fading out,
the new image fading in, or zero. -/
inductive PlayRow where
  | image
  | fadeOut
  | fadeIn
  | zero
  deriving DecidableEq, Repr

/-- A trough's live state (R209, R210, R212, R214): whether its binding is in force and accepted, whether it came into force at the swap
of this frame tick, and the words, with their yard addresses, of the row that its writer has begun and not yet stored. -/
structure TroughLive where
  bound : Bool
  fresh : Bool
  phase : Bool
  play : Playout
  row : PlayRow
  first : Bool
  held : List (Nat × Word)
  deriving DecidableEq, Repr

/-- The live state of a trough that was never bound. -/
def troughIdle (_ : Nat) : TroughLive := ⟨false, false, false, .normal, .image, false, []⟩

/-- The rill bus. `cur` holds the words readable in this interval, `prev` those readable in the interval before, `next` the words written in it, and `written` the stalls
their holders have written. `claims` holds stall claim words (Table 09-11). `stA`/`stS` are the trough table. -/
structure BusState where
  cur : Cells Word
  prev : Cells Word
  next : Cells Word
  written : Cells Bool
  claims : Cells Word
  stA : Cells Word
  stS : Cells Word
  troughs : Cells TroughLive
  deriving DecidableEq, Repr

/-- A fade in progress (R223, R225). Its phase is `num / den`; each sample moves it by `step / den` towards 1 (fade in)
or towards 0 (fade out). `next` is the route that fades in after a fade out, with the samples of that fade and whether it is of equal power. -/
structure Fade where
  out : Bool
  num : Nat
  den : Nat
  step : Nat
  power : Bool
  next : Option (BitVec 11 × BitVec 11 × Nat × Bool)
  deriving DecidableEq, Repr

/-- The live state of one crosspoint: its weir (level, the target last taken in, the samples since the last step or since
the target was taken in, whether it has stepped in this interval) and its route with the fade in progress. -/
structure Crosspoint where
  level : BitVec 12
  taken : BitVec 12
  timer : Nat
  stepped : Bool
  route : Option (BitVec 11 × BitVec 11)
  fade : Option Fade
  deriving DecidableEq, Repr

/-- A crosspoint never enabled. -/
def crosspointIdle (_ : Nat) : Crosspoint := ⟨0#12, 0#12, 0, false, none, none⟩

/-- The mix fabric. `stA`/`stS` are keyed by word address less 0xFA0000 (Table 09-10). -/
structure FabricState where
  stA : Cells Word
  stS : Cells Word
  xp : Cells Crosspoint
  govFrame : Bool
  deriving DecidableEq, Repr

/-! ### Cascade unit and safe load (chapter 10) -/

/-- The cascade unit. `stA`/`stS` are keyed by word address less 0xFF0000; `hist` holds section s's x[n-1], x[n-2],
y[n-1], y[n-2] at 4s to 4s + 3, and `resid` its rounding residue in units of 2^-71 (R235). -/
structure CascadeState where
  stA : Cells Word
  stS : Cells Word
  hist : Cells Word
  resid : Cells Int
  lfsr : BitVec 32
  govFrame : Bool
  deriving DecidableEq, Repr

/-- One staged set as the safe-load controller sees it (R242 to R248). `deferred` is a commit written during copy-back and
not yet registered, `deferredSync` says that it is the hardware commit of R476; `seed` says that the noise seed was written in the shadow since the last swap (R88). -/
structure SetState where
  committed : Bool
  group : BitVec 4
  copying : Bool
  deferred : Bool
  deferredGroup : BitVec 4
  deferredSync : Bool
  seed : Bool
  deriving DecidableEq, Repr

/-! ### Audio ports (chapter 11) -/

/-- What a port drives on its data pin for a number of bit clocks: a word, MSB first, or high impedance (R268). -/
structure TdmBurst where
  bits : Nat
  drive : Option (BitVec 32)
  deriving DecidableEq, Repr

/-- The frame that a port sends (R262, R263): whether data is launched on the rising edge, how many bit clocks its frame sync stands at
level `fsHigh` from the frame's start, how many lie between the FS edge and the first data bit, the divider D of a master's bit clock,
and the bits from the first slot on. -/
structure TdmOut where
  rising : Bool
  fsBits : Nat
  fsHigh : Bool
  delay : Nat
  div : Option Nat
  bursts : List TdmBurst
  deriving DecidableEq, Repr

/-- One TDM port. `rxOn`/`txOn` are the slots in effect since a frame tick; `rxCh`/`txCh` the ASRC channels its directions have claimed;
`frame` the last frame received in this interval, `late` those of its slots that ended in it, and `count` how many frames completed in
it; `held` the words written to the stalls in this interval; `sent` the frame being sent; `lost` that no frame sync arrives; `seen` that
one has arrived; `fade` the samples of an ASRC fade-in already played; `rxHist`/`txHist` the words that each slot's ASRC channel holds,
the newest first. -/
structure TdmPort where
  rxOn : BitVec 32
  txOn : BitVec 32
  rxCh : List Nat
  txCh : List Nat
  frame : List (BitVec 32)
  late : BitVec 32
  count : Nat
  held : List (BitVec 32)
  sent : Option TdmOut
  lfsr : BitVec 32
  lost : Bool
  seen : Bool
  fade : Nat
  rxHist : Vector (List Word) 32
  txHist : Vector (List Word) 32
  deriving DecidableEq, Repr

/-- A TDM port after reset. -/
def TdmPort.zero : TdmPort :=
  { rxOn := 0#32, txOn := 0#32, rxCh := [], txCh := [], frame := [], late := 0#32, count := 0, held := [], sent := none, lfsr := 0#32,
    lost := false, seen := false, fade := 0, rxHist := Vector.replicate 32 [], txHist := Vector.replicate 32 [] }

/-- The microphone, analog and TDM ports beside their registers. `pdmOn` are the microphones in service, `pdmSettle` those
settling, `pdmMuted` those muted as stuck, `pdmMuting` those muted from the next interval, `pdmClean` the consecutive intervals that
showed a transition, `pdmHold` the 16-bit pattern that a microphone repeats with the intervals it has done so, `pdmTrim` the trims in
force, `pdmRun` the clock outputs that run; `adcOn` the ADCs in service, `pgaGoal` the PGA targets taken in, `biasTrip` the biases
switched off by a short, `dac` the words the DACs drive, `dacLine` the words on their way to them, the newest first, `muteN` the level
of MUTE_N. -/
structure PortState where
  pdmOn : BitVec 128
  pdmSettle : BitVec 128
  pdmMuted : BitVec 128
  pdmMuting : BitVec 128
  pdmClean : Cells Nat
  pdmHold : Cells (BitVec 16 × Nat)
  pdmTrim : Cells (BitVec 9)
  pdmRun : BitVec 8
  adcOn : BitVec 4
  pgaGoal : Vector (BitVec 6) 4
  biasTrip : BitVec 4
  dac : Vector Word 4
  dacLine : Vector (List Word) 4
  tdm : Vector TdmPort 4
  muteN : Bool
  deriving DecidableEq, Repr

/-- The ports after reset. -/
def PortState.zero : PortState :=
  { pdmOn := 0#128, pdmSettle := 0#128, pdmMuted := 0#128, pdmMuting := 0#128, pdmClean := [], pdmHold := [], pdmTrim := [], pdmRun := 0#8, adcOn := 0#4,
    pgaGoal := Vector.replicate 4 0#6, biasTrip := 0#4, dac := Vector.replicate 4 0#36, dacLine := Vector.replicate 4 [],
    tdm := Vector.replicate 4 TdmPort.zero, muteN := false }

/-! ### Host interface (chapter 15) -/

/-- An audio period that ended: its number, the media counter of its first tick, the bytes captured, the samples per channel, whether it
was interrupted, and whether its descriptor was produced by then. -/
structure AudPeriod where
  index : Nat
  start : BitVec 64
  bytes : List Byte
  count : Nat
  interrupted : Bool
  slot : Bool
  deriving DecidableEq, Repr

/-- An audio ring in service (R365 to R369): the period in progress with the ticks it has had, an AIN period's data, the data
fetched for later periods, an AOUT period's captured samples, AOUT periods that ended and are not yet written back, and the
periods (with their start) whose descriptors were not produced in time. `fresh` says that the enable waits for its frame tick. -/
structure AudRing where
  on : Bool
  fresh : Bool
  begun : Bool
  period : Nat
  pos : Nat
  start : BitVec 64
  data : Option (List Byte)
  fetched : List (Nat × List Byte)
  caught : List Byte
  ended : List AudPeriod
  owed : List (Nat × BitVec 64)
  deriving DecidableEq, Repr

/-- A COMMIT command whose completion is not yet written (R360): the sets accepted and not yet swapped, the sets whose
commit waits for copy-back, and the sets refused. -/
structure CommitWait where
  tag : BitVec 16
  index : BitVec 16
  group : BitVec 4
  wait : Bool
  live : BitVec 64
  late : BitVec 64
  refused : BitVec 64
  frame : BitVec 64
  aborted : Bool
  deriving DecidableEq, Repr

/-- The host interface beside its registers. `mem` holds what the device has written to host memory, keyed by byte address;
`msix` the MSI-X table by DWORD; `pci` the host's configuration of the function and `subIds` its Subsystem Vendor ID and, above it,
Subsystem ID; `waits` that audio rings wait (R369); `modRun`/`modPend` the rings whose moderation interval runs and those with an event
gathered in it; `evtGap` the records lost since the last OVERFLOW record; `aggHigh` whether SYS_IRQ_PEND_HOST was non-zero
when last looked at; `stopping` the rings whose EN a write cleared and whose started work is not complete (R353); `aer` the uncorrectable
errors that AER reports, by their bits in its status register, and `d3` whether the function is in D3hot (R346); `held` the command in execution whose completion is not yet written. -/
structure HostState where
  mem : Cells Byte
  msix : Cells (BitVec 32)
  pba : BitVec 32
  pci : PciSettings
  subIds : BitVec 32
  waits : Bool
  modRun : BitVec 64
  modPend : BitVec 64
  evtSeq : BitVec 32
  evtGap : Nat
  held : Option CommitWait
  aud : Vector AudRing 16
  lfsr : BitVec 32
  aggHigh : Bool
  stopping : BitVec 64
  aer : BitVec 32
  d3 : Bool
  deriving DecidableEq, Repr

/-- An audio ring out of service. -/
def AudRing.zero : AudRing := ⟨false, false, false, 0, 0, 0#64, none, [], [], [], []⟩

/-- The unlisted DWORDs of the MSI-X table: every vector masked (the PCIe base specification's reset value). -/
def msixReset (k : Nat) : BitVec 32 := if k % 4 = 3 then 1#32 else 0#32

/-- The host interface after reset: link down. -/
def HostState.zero : HostState :=
  { mem := [], msix := [], pba := 0#32, pci := ⟨⟨0#3, 2#3, 0#4, false, 0#32⟩, false, false⟩, subIds := 0x18361F5C#32, waits := false, modRun := 0#64,
    modPend := 0#64, evtSeq := 0#32, evtGap := 0, held := none, aud := Vector.replicate 16 AudRing.zero, lfsr := 0#32,
    aggHigh := false, stopping := 0#64, aer := 0#32, d3 := false }

/-! ### Tether link (chapter 20) -/

/-- One receive channel (R469): the last word, the consecutive missing samples, the factor `num / den` of its fade, whether it
fades in, whether words have returned and wait for the next frame tick, whether it repeats its last word, and whether that fades out. -/
structure TetherRx where
  last : Word
  miss : Nat
  num : Nat
  den : Nat
  up : Bool
  back : Bool
  hold : Bool
  fade : Bool
  deriving DecidableEq, Repr

/-- A receive channel with nothing missing. -/
def rxFresh (_ : Nat) : TetherRx := ⟨0#36, 0, 1, 1, false, false, false, false⟩

/-- One tether port. `txA`/`rxA` are the channel entries in force, `live` that they came into force at a swap, `txWords` the words sent in
the last interval, `line` the words that arrived in each of the last intervals, the newest first (R469), `marks` the
frame ticks since a valid MARK of the peer and `heard` those since a MARK or HELLO of each device (4: none), `down` that the port went down in this interval, `lost` peer loss, `mirror` the data lane the
spare mirrors, `txMove`/`rxMove` a lane to move to the spare (a transmit lane at the frame tick named), `txOnSpare`/`rxOnSpare`
the lanes on the spare, `fails` the receive lanes out of use and not on the spare, `rxGone` those of them that are retired, `txFails` the
transmit lanes out of use, `spareBad` that the spare has no lock, `muted` that
rejoined channels read zero until T, `queue` the firmware
messages waiting to be sent and `wire` those sent since the last sample tick. -/
structure TetherPort where
  txA : Cells (BitVec 32)
  rxA : Cells (BitVec 32)
  live : Bool
  rx : Cells TetherRx
  txWords : Cells Word
  line : List (List (Nat × Word))
  marks : Nat
  heard : Vector Nat 4
  down : Bool
  lost : Bool
  mirror : BitVec 2
  txMove : Option (BitVec 2 × BitVec 32)
  rxMove : Option (BitVec 2)
  txOnSpare : Option (BitVec 2)
  rxOnSpare : Option (BitVec 2)
  fails : BitVec 4
  rxGone : BitVec 4
  txFails : BitVec 4
  spareBad : Bool
  muted : Bool
  peerHello : Bool
  queue : List TetherMsg
  wire : List TetherMsg
  deriving DecidableEq, Repr

/-- A tether port after reset. -/
def TetherPort.zero : TetherPort :=
  { txA := [], rxA := [], live := false, rx := [], txWords := [], line := [], marks := 0, heard := Vector.replicate 4 4, down := false, lost := false, mirror := 0#2, txMove := none,
    rxMove := none, txOnSpare := none, rxOnSpare := none, fails := 0#4, rxGone := 0#4, txFails := 0#4, spareBad := false, muted := false,
    peerHello := false, queue := [], wire := [] }

/-- The tether beside its registers: the ports, whether this device is the one that commits shared sets (R475), the
host-attached devices heard, whether the witness bitmap is in force, the armed SYNC (group, T, and whether the partition held authority
then), the words of the message being pushed, the received messages with the words of the oldest already read, the sender's count, the
(SRC, SEQ) pairs seen last, the ALIGN values a follower takes at its switch tick (the ALIGN tick, cycles, sample and frame counters, media
counter), the leader's DEVID as its HELLO gave it, by how much the leader's frame count is ahead of this device's, and the mode, family and
frame tick D of a MODE sent or received whose D is not reached (R470, R471). -/
structure TetherState where
  ports : Vector TetherPort 2
  commits : Bool
  hosts : BitVec 4
  witness : Bool
  sync : Option (BitVec 4 × BitVec 32 × Bool)
  push : List (BitVec 32)
  rxq : List (List (BitVec 32))
  read : Nat
  seq : BitVec 8
  seen : List (Nat × Nat)
  align : Option (BitVec 32 × BitVec 32 × BitVec 64 × BitVec 64 × BitVec 64)
  leader : Option (BitVec 2)
  ahead : BitVec 32
  change : Option (BitVec 3 × Bool × BitVec 32)
  deriving DecidableEq, Repr

/-- The tether after reset. -/
def TetherState.zero : TetherState :=
  { ports := Vector.replicate 2 TetherPort.zero, commits := true, hosts := 0#4, witness := false, sync := none, push := [],
    rxq := [], read := 0, seq := 0#8, seen := [], align := none, leader := none, ahead := 0#32, change := none }

/-! ### Clocks, power and pins (chapters 12 and 21) -/

/-- The sigma-delta modulator (R282): the three accumulators of the third-order MASH, the last carry of the second stage and the last
two of the third, and the division ratio of the reference cycle in progress. -/
structure Modulator where
  a1 : BitVec 24
  a2 : BitVec 24
  a3 : BitVec 24
  c2 : Bool
  c3 : Bool
  d3 : Bool
  ratio : Int
  deriving DecidableEq, Repr

/-- The modulator with its accumulators cleared, at ratio `n`. -/
def Modulator.start (n : Nat) : Modulator := ⟨0#24, 0#24, 0#24, false, false, false, n⟩

/-- The media clock path beside its registers: FW in force, the NCO's phase, the phase of the reference in use and its edges since the
last cycle of the phase detector, the modulator and its dither LFSR, and the consecutive acquisitions of one mode change that ended in
FAIL (R279, R281, R282, R288). -/
structure ClockState where
  fw : BitVec 48
  phase : BitVec 48
  refPhase : BitVec 48
  edges : Nat
  mash : Modulator
  lfsr : BitVec 24
  fails : Nat
  deriving DecidableEq, Repr

/-- The clocks after reset: FW from the reset values of MNCO_FW_LO and MNCO_FW_HI. -/
def ClockState.zero : ClockState := ⟨0x20000000000#48, 0#48, 0#48, 0, .start 0, 0#24, 0⟩

/-- Where the device stands between power states (R481 to R489): reset held, running, STANDBY entry, or STANDBY. -/
inductive PowerPhase where
  | held
  | running
  | entering
  | standby
  deriving DecidableEq, Repr

/-- Power and the dedicated pins: whether FAULT_N is pulled low by reset or stage 0, whether an image wrote STARTED since
(R495), FAULT_N's own level, the levels of ALIVE, PWR_ON and TAMPER_N, a STANDBY write that waits for the flash (R483), a wake latched during STANDBY
entry (bit 0 pin, bit 1 timer), the levels last reported of the multiplexed pins and which of them the outside drives, and the real-time
clock in units of 1/32,768 s with the UTIL cycles of its current LF cycle (R484, R513). -/
structure PowerState where
  phase : PowerPhase
  faultBoot : Bool
  faultLow : Bool
  started : Bool
  alive : Bool
  pwrOn : Bool
  tamperLow : Bool
  stbyWait : Bool
  wake : BitVec 2
  pins : BitVec 128
  driven : BitVec 128
  rtc : BitVec 47
  lf : Nat
  deriving DecidableEq, Repr

/-- Power after a power-on reset, with reset still held. -/
def PowerState.zero : PowerState := ⟨.held, true, true, false, false, true, false, false, 0#2, 0#128, 0#128, 0#47, 0⟩

/-! ### Boot, flash and one-time-programmable memory (chapter 18) -/

/-- The unlisted byte of the flash: erased. -/
def flashErased (_ : Nat) : Byte := 0xFF#8

/-- The boot block beside its registers. `flash` is keyed by logical flash offset, `torn` marks granules whose program or erase
a loss of power cut off (R419), `op` is the operation that runs (offset, and whether it erases). The one-time-programmable
memory holds the life-cycle state `lc`, the key hashes, the revocation bits, WIPE_DONE, the device secrets and the identity
(R421, R435, R439). `calibration` holds the calibration values that stage 0 loaded, and `spareTable` the spare-sector table: each remap
of a logical block to a spare physical block, the newest last (R415, R458). `lcReq` is a pending life-cycle request with whether the debug port was unlocked then, `dbgReq` a pending
unlock check, `safeReq` a reason that BOOT_SAFE_REQ left for stage 0. `slot` is the running image (0 A, 1 B, 2 yard), `key` its key
index, `armed` that the start watchdog runs, `failSlot` the confirmed image whose starts BOOT_FAILCNT counts, with its SEQ. `goWait` says
that BOOT_RUN was written while the yard was being cleared (R389). `tap` is the TAP instruction in force and `bridge` what the debug bridge's data register returned last (R437, R514). -/
structure BootState where
  flash : Cells Byte
  torn : Cells Bool
  op : Option (Nat × Bool)
  lc : BitVec 3
  keys : Vector (Option (BitVec 256)) 4
  revoked : BitVec 4
  wipeDone : Bool
  otpFault : Bool
  secrets : Vector (BitVec 32) 16
  devId : BitVec 128
  lcReq : Option (BitVec 3 × Bool)
  dbgReq : Bool
  safeReq : Option (BitVec 8)
  slot : Option Nat
  key : Option Nat
  armed : Bool
  failSlot : Option (Nat × BitVec 32)
  tack : Cells (BitVec 32)
  tackEcc : Cells (BitVec 2)
  calibration : BitVec 32
  spareTable : List (Nat × Nat)
  goWait : Bool
  tap : TapInstr
  bridge : BitVec 32
  deriving DecidableEq, Repr

/-- A device as delivered: BLANK, flash erased, no key hash (R435). -/
def BootState.zero : BootState :=
  { flash := [], torn := [], op := none, lc := 0#3, keys := Vector.replicate 4 none, revoked := 0#4, wipeDone := false,
    otpFault := false, secrets := Vector.replicate 16 0#32, devId := 0#128, lcReq := none, dbgReq := false,
    safeReq := none, slot := none, key := none, armed := false, failSlot := none, tack := [], tackEcc := [],
    calibration := 0#32, spareTable := [], goWait := false, tap := .idcode, bridge := 0#32 }

/-! ### Masters (chapter 16) -/

/-- One crossbar access: word space or byte space, a read or a write (R376, R377). A byte access carries its bytes,
each with its enable, or the number to read. -/
inductive Access where
  | readWord (addr : BitVec 24)
  | writeWord (addr : BitVec 24) (data : Word)
  | readBytes (addr : BitVec 32) (n : Nat)
  | writeBytes (addr : BitVec 32) (data : List (Option Byte))
  deriving DecidableEq, Repr

/-- The last response a master received: the word of a word-space read, the bytes of a byte-space read in address order, and
whether it is an error. -/
structure Response where
  word : Word
  bytes : List Byte
  err : Bool
  deriving DecidableEq, Repr

/-- An access that waits (R385, R389, R416). `bar` names the BAR (0 or 2, as HOST_INB_ERRADDR) and the offset of an inbound write,
`slave` says that it is of the CSP slave and whether its transaction is still the open one (R411), `accepted` the banks whose old owner's master it is of, accepted before the handover that pends (R385), and `quiet` a block's own
write, whose response nothing shows. -/
structure HeldAccess where
  master : Nat
  access : Access
  bar : Option (Nat × Nat) := none
  slave : Option Bool := none
  accepted : List Nat := []
  quiet : Bool := false
  deriving DecidableEq, Repr

/-! ### Network time (chapter 14) -/

/-- The TIME block beside its registers. `t` is TIME in units of 2^-28 ns, and `cyc` counts the UTIL cycles that events have
reported, for intervals that no step of TIME disturbs. `acc` is the servo's integral, `near`/`far` its consecutive frame ticks within
and beyond LOCK_NS, `reanchor` that the next frame tick re-anchors, `unread` the captures not read, `fired` the compare channels that have
fired for the compare time they hold, `out` the levels of TIME_OUT0 and TIME_OUT1. -/
structure TimeState where
  t : Nat
  cyc : Nat
  acc : Int
  near : Nat
  far : Nat
  reanchor : Bool
  unread : BitVec 4
  fired : BitVec 2
  out : BitVec 2
  deriving DecidableEq, Repr

/-- The TIME block after reset. -/
def TimeState.zero : TimeState := ⟨0, 0, 0, 0, 0, false, 0#4, 0#2, 0#2⟩

/-! ### Ethernet and the T1S port (chapter 13) -/

/-- A frame or segmented send in a transmit queue: the frames still to send (without FCS), whether a ring descriptor waits for
its write-back, its timestamp request and tag, whether it is stored and forwarded, the segments sent, the write-back flags gathered,
and whether it is discarded unsent. -/
structure TxEntry where
  frames : List (List Byte)
  ring : Bool
  ts : Bool
  tag : BitVec 16
  store : Bool
  seg : Bool
  sent : Nat
  flags : BitVec 32
  drop : Bool
  deriving DecidableEq, Repr

/-- The frame on the wire: its queue (8: the T1S downlink), its bytes and its timestamp in units of 2^-28 ns. -/
structure TxNow where
  queue : Nat
  bytes : List Byte
  time : Nat
  deriving DecidableEq, Repr

/-- An entry of the transmit timestamp queue (R318). -/
structure TxStamp where
  tag : BitVec 16
  queue : Nat
  abort : Bool
  time : Nat
  deriving DecidableEq, Repr

/-- A received frame in the receive buffer that waits for a descriptor: its bytes, filter index, VLAN tag, checksum status and
timestamp (R314, R371). -/
structure RxFrame where
  bytes : List Byte
  filter : Nat
  vlan : Option (BitVec 16)
  csum : BitVec 4
  time : Nat
  deriving DecidableEq, Repr

/-- One transaction of a downshift or a return (R321) on an advertisement register `k` (0: Clause 45 register 7.0x0020, 1: Clause 22
register 9, 2: register 4): read and saved, written without the speeds above TARGET, or restored; then the control register is read,
and written to restart auto-negotiation. -/
inductive DsStep where
  | save (k : Nat)
  | clear (k : Nat)
  | restore (k : Nat)
  | control
  | restart (v : BitVec 16)
  deriving DecidableEq, Repr

/-- One MDIO transaction (R305): `data` is what was written or read. -/
structure MdioFrame where
  cl45 : Bool
  phy : BitVec 5
  dev : BitVec 5
  reg : BitVec 16
  read : Bool
  data : BitVec 16
  deriving DecidableEq, Repr

/-- The utilisation that a port measures (R321): the UTIL cycle at which the 100 ms window in progress began, the bits sent and received
in it, how many whole windows in a row were below DOWN_PCT up to it, and whether a window has exceeded UP_PCT. -/
structure DsUtil where
  start : Nat
  tx : Nat
  rx : Nat
  low : Nat
  exceeded : Bool
  deriving DecidableEq, Repr

/-- Nothing measured. -/
def DsUtil.zero : DsUtil := ⟨0, 0, 0, 0, false⟩

/-- One Ethernet port beside its registers. `collisions` counts those of the frame on the wire, `backoff` the slot times it waits;
`credit` holds the shapers of queues 6 and 7 in 1/393,216 bit as they stood at cycle `creditAt`; `filt` the filters in force;
`settle` that a downshift has not settled, or with `returning` a return (R322); `own` the port's own MDIO transactions not yet done,
`saved` the advertisement it saved, `swBus` that software's transaction has the bus before them, `mdio` the last transaction that
ended; `wire` the last frame sent, FCS included, and `util` the utilisation measured. -/
structure EthPort where
  txq : Vector (List TxEntry) 8
  now : Option TxNow
  collisions : Nat
  backoff : Option Nat
  credit : Vector Int 2
  creditAt : Nat
  stamps : List TxStamp
  rxq : Vector (List RxFrame) 8
  filt : Vector (BitVec 96) 32
  settle : Bool
  returning : Bool
  own : List DsStep
  saved : Vector (BitVec 16) 3
  swBus : Bool
  mdio : Option MdioFrame
  wire : List Byte
  util : DsUtil
  deriving DecidableEq, Repr

/-- A port after reset. -/
def EthPort.zero : EthPort :=
  { txq := Vector.replicate 8 [], now := none, collisions := 0, backoff := none, credit := Vector.replicate 2 0, creditAt := 0,
    stamps := [], rxq := Vector.replicate 8 [], filt := Vector.replicate 32 0#96, settle := false, returning := false,
    own := [], saved := Vector.replicate 3 0#16, swBus := false, mdio := none, wire := [], util := DsUtil.zero }

/-- The T1S audio cycle (R326 to R329): the claimed input channels, the uplinks received in this cycle and those that play, the words
that each output channel's stall has last read, the newest first, the downlink frame not yet sent, the cycle counter, whether
audio waits, the audio frames received and not yet looked at, the sample-tick count of the last cycle boundary played, and the noise LFSR
of the transmitter (R68). -/
structure T1sState where
  up : BitVec 16
  got : List (Nat × List Byte)
  plays : List (Nat × List Byte)
  line : Vector (List Word) 16
  down : Option (List Byte)
  cycle : BitVec 16
  waits : Bool
  inbox : List (List Byte)
  last : Option (BitVec 64)
  lfsr : BitVec 32
  deriving DecidableEq, Repr

/-- T1S audio after reset. -/
def T1sState.zero : T1sState := ⟨0#16, [], [], Vector.replicate 16 [], none, 0#16, false, [], none, 0#32⟩

/-! ### Media streams (chapter 14) -/

/-- A transmit stream: whether it is in service, the samples gathered for the packet in build with its first count M, and its
sequence number and identification. -/
structure TxStream where
  on : Bool
  start : BitVec 64
  samples : List Byte
  count : Nat
  seq : BitVec 16
  ident : BitVec 16
  deriving DecidableEq, Repr

/-- A transmit stream out of service. -/
def TxStream.zero : TxStream := ⟨false, 0#64, [], 0, 0#16, 0#16⟩

/-- A receive stream: whether it is in service, the samples held, keyed by 64 x tick + channel, and how far its fade-in has
played (256 when over). -/
structure RxStream where
  on : Bool
  buf : List (Nat × Word)
  fade : Nat
  deriving DecidableEq, Repr

/-- A receive stream out of service. -/
def RxStream.zero : RxStream := ⟨false, [], 256⟩

/-- The stream engine beside its registers: `lfsr` is its dither LFSR and `waits` that a switch tick has passed and the first frame
tick after it has not; `inbox` the frames that filters passed to it. -/
structure StreamState where
  tx : Vector TxStream 64
  rx : Vector RxStream 64
  lfsr : BitVec 32
  waits : Bool
  inbox : List (List Byte)
  sat : Bool
  satCount : BitVec 32
  deriving DecidableEq, Repr

/-- The stream engine after reset. -/
def StreamState.zero : StreamState := ⟨Vector.replicate 64 TxStream.zero, Vector.replicate 64 RxStream.zero, 0#32, false, [], false, 0#32⟩

/-! ### Supervisor and farrier (chapter 19) -/

/-- A policy rule (Table 19-3). -/
structure Rule where
  mon : Nat
  index : Nat
  cmp : Nat
  sticky : Bool
  en : Bool
  thresh : Int
  hold : Nat
  rel : Nat
  action : Nat
  arg : Nat
  deriving DecidableEq, Repr

/-- The state of a rule (R445): the ms for which its condition has held, or, once fired, those for which it has been false. -/
inductive RuleState where
  | armed
  | holding (ms : Nat)
  | fired (quiet : Option Nat)
  deriving DecidableEq, Repr

/-- An event that other blocks raise to the supervisor (R349, R392). -/
inductive SupEvent where
  | tamper
  | host (why : LinkStop)
  deriving DecidableEq, Repr

/-- An accepted policy that waits for the next evaluation. -/
structure Policy where
  rules : List Rule
  period : Nat
  persist : Bool
  deriving DecidableEq, Repr

/-- The beam bits of one engine (R449): the graph's bits, and those the supervisor committed, while it caps them. -/
structure BeamBits where
  graph : BitVec 6
  wrote : Option (BitVec 6)
  deriving DecidableEq, Repr

/-- The supervisor beside its registers: the table in force with its rules' states, a table that waits, the counters last seen (by
register address), the period and the increments of each evaluation of the last second (by 64 x monitor + index, newest first), the guard-overflow
frame ticks and droops since the last evaluation, the shedding levels written, whether caps wait for a mode change, the beam
bits per engine, the last decision's report, which a read of SUP_REPORT0 latches into SUP_REPORT1 to SUP_REPORT3 (R450), the first
mode that the start scene or the default names (R36), and the events raised to it, the newest last. -/
structure SupState where
  rules : List Rule
  states : List RuleState
  period : Nat
  next : Option Policy
  seen : Cells (BitVec 32)
  recent : List (Nat × Cells Nat)
  gov : Cells Nat
  droops : Cells Nat
  levels : Vector Nat 8
  late : Bool
  beams : Vector BeamBits 8
  report : Vector (BitVec 32) 3
  named : Option (BitVec 3 × Bool)
  events : List SupEvent
  deriving DecidableEq, Repr

/-- The supervisor after reset: an empty table, and no first mode named. -/
def SupState.zero : SupState :=
  { rules := [], states := [], period := 10, next := none, seen := [], recent := [], gov := [], droops := [],
    levels := Vector.replicate 8 16, late := false, beams := Vector.replicate 8 ⟨0#6, none⟩,
    report := Vector.replicate 3 0#32, named := none, events := [] }

/-- The farrier beside its registers: whether a shadow's memories are copied, whether its role's turn is over, the outcome that waits
for a frame tick (a takeover, or the role lost) and whether it came after B - 64 of this frame, each engine's lane under check, the lanes whose remap waits for a frame tick, the engines that a further lane failure has
failed, the bank whose remap waits for a frame tick, and the banks that could not be migrated (R453 to R459). `bankLog` holds the ECC
events of yard banks, each with its bank, the UTIL cycle of TIME's count and whether it was uncorrectable, `bankQueue` the banks whose need
of a migration arose during another, with the cause, and `inited` whether FAR_INIT was written since reset (R457, R460, R463). -/
structure FarState where
  rillMem : Bool
  basinMem : Bool
  rillCopied : Bool
  basinCopied : Bool
  rillTurn : Bool
  basinTurn : Bool
  rillMove : Option Bool
  basinMove : Option Bool
  rillLate : Bool
  basinLate : Bool
  lanes : Vector (BitVec 3) 8
  laneMove : List (Nat × Nat)
  engineMove : List Nat
  bankMove : Option Nat
  worn : BitVec 32
  bankLog : List (Nat × Nat × Bool)
  bankQueue : List (Nat × Nat)
  inited : Bool
  deriving DecidableEq, Repr

/-- The farrier after reset. -/
def FarState.zero : FarState := ⟨false, false, false, false, false, false, none, none, false, false, Vector.replicate 8 0#3, [], [], none, 0#32, [], [], false⟩

/-! ### Control serial port (chapter 17) -/

/-- A slave transaction (R407 to R411): whether it writes, whether it reaches the yard, the word offset of its next word, the offset
of the last word of its block (none where it has no block), the host words still to come, and what its trailer reports. -/
structure CspTxn where
  write : Bool
  yard : Bool
  off : Nat
  last : Option Nat
  left : Nat
  passed : Bool
  under : Bool
  erred : Bool
  dropped : Bool
  count : Nat
  deriving DecidableEq, Repr

/-- One clock cycle of a master sequence (R401, R404): the lanes that the master drives, and their levels; bit `i` is CSP_Di. `rises` says
whether its sampling edge is the rising one, and `leads` whether that is the cycle's first edge. -/
structure CspCycle where
  drive : BitVec 8
  level : BitVec 8
  rises : Bool := false
  leads : Bool := false
  deriving DecidableEq, Repr

/-- The CSP beside its registers: whether CSP_SEL_N is asserted, a ROLE write that waits for its release, the CSP_SL_CFG in force since
its assertion, the open transaction, the word that leaves in the next word time, the FIFOs, the bytes of the master's sequence
not yet moved, the clock cycles of that sequence as far as its data has moved, the first at the head, the last bit that left on CSP_D1 in
this selection, and the samples of the lanes received since the last whole word. -/
structure CspState where
  sel : Bool
  role : Option Bool
  cfg : BitVec 32
  txn : Option CspTxn
  out : BitVec 32
  tx : List (BitVec 32)
  rx : List (BitVec 32)
  left : Nat
  wire : List CspCycle
  prev : Option Bool
  part : List (BitVec 8)
  deriving DecidableEq, Repr

/-- The CSP after reset: no selection. -/
def CspState.zero : CspState := ⟨false, none, 0#32, none, 0#32, [], [], 0, [], none, []⟩

/-! ### The whole machine -/

/-- Why the machine can stop. No command of this block stops it: every command and event of the table is given an effect
(or no effect) by the spec, so `exec` answers a next state for each. The constructor names the one condition that is left
for a state no reset leads to. Safe: a stop proves nothing about what the hardware would do next. -/
inductive Fault where
  /-- A state outside the machine's own ranges. Nothing raises it. Safe. -/
  | outOfRange
  deriving DecidableEq, Repr

/-- Why a command can have no meaning here. -/
inductive Refusal where
  /-- Raised by `exec` for a command whose meaning is not written yet. Safe: nothing is claimed of it. -/
  | notModelled (mnemonic : String)
  deriving DecidableEq, Repr

/-- The state of the TS-1836. `ecc` holds the ECC condition of each word, keyed by word-space address (1 correctable, 2
uncorrectable); `wb` marks the yard words whose corrected value waits to be written back (R380). `claims` holds the function code that holds each resource of Table 21-10 but stalls. -/
structure State where
  pending : List Instr
  regs : Cells (BitVec 32)
  tick : TickState
  rill : Vector RillEngine 17
  basin : Vector BasinEngine 10
  cc : CcState
  bus : BusState
  fabric : FabricState
  cascade : CascadeState
  sets : Vector SetState 29
  yard : Cells Word
  ecc : Cells (BitVec 2)
  wb : Cells Bool
  claims : Cells (BitVec 8)
  ports : PortState
  host : HostState
  tether : TetherState
  clock : ClockState
  time : TimeState
  eth : Vector EthPort 3
  t1s : T1sState
  stream : StreamState
  power : PowerState
  boot : BootState
  sup : SupState
  far : FarState
  csp : CspState
  resp : Vector Response 18
  heldAcc : List HeldAccess
  freeCtr : Nat
  deriving DecidableEq, Repr

/-- The sequence record when no mode change is in progress. -/
def ModeSeq.none : ModeSeq := ⟨.idle, .mode, 0#3, false, 0#4, false, 0, false⟩

/-- The TICK block after reset (Tables 22-8 and 22-9): mode code 3, ENTERED 0, counters 0, outputs at zero. -/
def TickState.zero : TickState :=
  { entered := false, mode := 3#3, family := false, pending := false, pendMode := 0#3, pendFamily := false,
    sampleCnt := 0#64, frameCnt := 0#64, j := 0, boundaries := 0, ptr := 0#48, frameDue := false, seq := ModeSeq.none,
    gain := 0, ramp := .steady, media := 0#64, mediaLoad := .none, gateSeen := .none, outHold := .none, frameExtra := 0 }

/-- The control core after reset (Table 07-3). -/
def CcState.zero : CcState :=
  { epc := 0#32, ie := false, pie := false, exl := false, cause := 0#4, vbar := 0#32, scratch := Vector.replicate 4 0#36,
    waiting := false, held := true, trap := false, atomicRun := 0, cache := [] }

/-- The rill bus after reset: no claim, no trough, every stall zero. -/
def BusState.zero : BusState := ⟨[], [], [], [], [], [], [], []⟩

/-- The mix fabric after reset. -/
def FabricState.zero : FabricState := ⟨[], [], [], false⟩

/-- The cascade unit after reset (R239, R61). -/
def CascadeState.zero : CascadeState := ⟨[], [], [], [], 0#32, false⟩

/-- A staged set after reset (R248). -/
def SetState.zero : SetState := ⟨false, 0#4, false, false, 0#4, false, false⟩

/-- The machine right after reset. -/
def State.reset : State :=
  { pending := [], regs := [], tick := TickState.zero, rill := Vector.replicate 17 RillEngine.zero,
    basin := Vector.replicate 10 BasinEngine.zero, cc := CcState.zero, bus := BusState.zero, fabric := FabricState.zero,
    cascade := CascadeState.zero, sets := Vector.replicate 29 SetState.zero, yard := [], ecc := [], wb := [], claims := [],
    ports := PortState.zero, host := HostState.zero, tether := TetherState.zero,
    clock := ClockState.zero, time := TimeState.zero, eth := Vector.replicate 3 EthPort.zero, t1s := T1sState.zero,
    stream := StreamState.zero, power := PowerState.zero, boot := BootState.zero, sup := SupState.zero,
    far := FarState.zero, csp := CspState.zero,
    resp := Vector.replicate 18 ⟨0#36, [], false⟩, heldAcc := [], freeCtr := 0 }

end Sys2Proof.Machine
end

