-- ==== Sys2Proof/Machine/Ops.lean ====
section
/-! DEFINITION. The named operations over registers, ticks and memories that every family shares. -/
namespace Sys2Proof.Machine

/-! ### Registers -/

/-- The stored word of the register at byte address `a`. -/
def State.reg (s : State) (a : Nat) : BitVec 32 := Cells.read regReset s.regs a

/-- Store a register word. -/
def State.setReg (s : State) (a : Nat) (v : BitVec 32) : State := { s with regs := Cells.write regReset s.regs a v }

/-- Set the bits of `m` in the register at `a`: how hardware raises a flag (R5: a flag raised is never lost). -/
def State.raise (s : State) (a : Nat) (m : BitVec 32) : State := s.setReg a (s.reg a ||| m)

/-- Clear the bits of `m` in the register at `a`. -/
def State.lower (s : State) (a : Nat) (m : BitVec 32) : State := s.setReg a (s.reg a &&& ~~~m)

/-- Raise the bits of `m` when `c` holds. -/
def State.raiseIf (s : State) (c : Bool) (a : Nat) (m : BitVec 32) : State := if c then s.raise a m else s

/-- Bit `k` of the register at `a`. -/
def State.bit (s : State) (a k : Nat) : Bool := (s.reg a).getLsbD k

/-- The field of `w` bits from bit `lo` of the register at `a`, as a number. -/
def State.fld (s : State) (a lo w : Nat) : Nat := ((s.reg a).extractLsb' lo w).toNat

/-- A word with its field of `w` bits from bit `lo` replaced by `v` (modulo 2^w). -/
def putField (x : BitVec 32) (lo w v : Nat) : BitVec 32 :=
  (x &&& ~~~(BitVec.ofNat 32 ((2 ^ w - 1) * 2 ^ lo))) ||| BitVec.ofNat 32 (v % 2 ^ w * 2 ^ lo)

/-- Replace a field of the register at `a`. -/
def State.setFld (s : State) (a lo w v : Nat) : State := s.setReg a (putField (s.reg a) lo w v)

/-- Set or clear one bit of the register at `a`. -/
def State.setBit (s : State) (a k : Nat) (b : Bool) : State := s.setFld a k 1 (if b then 1 else 0)

/-- Add `n` to a free-running counter field, which wraps at its width. -/
def State.count (s : State) (a lo w n : Nat) : State := s.setFld a lo w (s.fld a lo w + n)

/-- The address of bit `k` in a bank of 32-bit flag registers starting at `a`. -/
def flagReg (a k : Nat) : Nat := a + 4 * (k / 32)

/-- Flag `k` of a bank of flag registers. -/
def State.flagAt (s : State) (a k : Nat) : Bool := s.bit (flagReg a k) (k % 32)

/-- Set flag `k` of a bank of flag registers. -/
def State.raiseAt (s : State) (a k : Nat) : State := s.raise (flagReg a k) (BitVec.ofNat 32 (2 ^ (k % 32)))

/-- Clear flag `k` of a bank of flag registers. -/
def State.lowerAt (s : State) (a k : Nat) : State := s.lower (flagReg a k) (BitVec.ofNat 32 (2 ^ (k % 32)))

/-! ### Modes and cycles -/

/-- C, the core cycles of a sample tick in mode `m` (Table 02-1, Table 02-3); 0 for codes that raise no ticks. -/
def modeC (m : BitVec 3) : Nat :=
  if m = 2#3 then 6144 else if m = 4#3 then 16384 else if m = 5#3 then 8192
  else if m = 6#3 then 49152 else if m = 7#3 then 16384 else 0

/-- F, the frame length of mode `m` (Table 02-3). -/
def modeF (m : BitVec 3) : Nat :=
  if m = 2#3 then 64 else if m = 4#3 then 128 else if m = 5#3 then 128
  else if m = 6#3 then 64 else if m = 7#3 then 16 else 0

/-- The sample rate of a mode and family in Hz (Table 02-3). -/
def modeRate (m : BitVec 3) (fam : Bool) : Nat :=
  if m = 5#3 then (if fam then 88200 else 96000)
  else if m = 2#3 ∨ m = 6#3 then (if fam then 14700 else 16000)
  else (if fam then 44100 else 48000)

/-- LISTEN, mode code 2. -/
def modeListen : BitVec 3 := 2#3

/-- Whether a code names one of the five running modes (R30). -/
def isRunMode (m : BitVec 3) : Bool := m = 2#3 || m = 4#3 || m = 5#3 || m = 6#3 || m = 7#3

/-- C in force; 0 before the first mode is entered (Table 22-9). -/
def State.c (s : State) : Nat := if s.tick.entered then modeC s.tick.mode else 0

/-- F in force; 0 before the first mode is entered. -/
def State.f (s : State) : Nat := if s.tick.entered then modeF s.tick.mode else 0

/-- The sample rate in force. -/
def State.rate (s : State) : Nat := modeRate s.tick.mode s.tick.family

/-- Whether LISTEN is in force. -/
def State.listen (s : State) : Bool := s.tick.entered && s.tick.mode = modeListen

/-- FABRIC_LIMIT of a mode: min(4C, 65,536), and 0 in LISTEN (R215, Table 09-14). -/
def fabricLimitOf (m : BitVec 3) : Nat := if m = modeListen then 0 else min (4 * modeC m) 65536

/-- CASCADE_LIMIT of a mode (R238). -/
def cascadeLimitOf (m : BitVec 3) : Nat :=
  if m = modeListen ∨ modeC m = 0 then 0 else if m = 5#3 then 3200 else 4096

/-- FABRIC_LIMIT in force. -/
def State.fabricLimit (s : State) : Nat := if s.tick.entered then fabricLimitOf s.tick.mode else 0

/-- CASCADE_LIMIT in force. -/
def State.cascadeLimit (s : State) : Nat := if s.tick.entered then cascadeLimitOf s.tick.mode else 0

/-- round(n × rate / 1000), ties rounded up (R220, R223). -/
def msSamples (ms rate : Nat) : Nat := (2 * ms * rate + 1000) / 2000

/-! ### Responses to register writes -/

/-- The response to a write of a register by master `m`: `r` says whether it is an error, and the state after the write. -/
def State.answered (m : Nat) (r : Bool × State) : State := { r.2 with resp := vset r.2.resp m ⟨0#36, [], r.1⟩ }

/-- Whether master `m` has an access that waits: its later accesses wait behind it (R378). -/
def masterWaits (s : State) (m : Nat) : Bool := s.heldAcc.any fun h => decide (h.master = m)

/-- An access joins those that wait. -/
def State.hold (s : State) (h : HeldAccess) : State := { s with heldAcc := s.heldAcc ++ [h] }

/-! ### Free values -/

/-- Take one free value: the caller applies a free constant of Config to the answer. -/
def State.takeFree (s : State) : Nat × State := (s.freeCtr, { s with freeCtr := s.freeCtr + 1 })

/-! ### Records of ECC events (R104, R148, R228, R240, R380) -/

/-- The registers in which one block records its ECC events: its status register with the CE and UE flag bits, its event
counts and its error address with the bit of KIND. -/
structure EccSite where
  status : Nat
  ce : Nat
  ue : Nat
  counts : Nat
  errAddr : Nat
  kind : Nat
  deriving DecidableEq, Repr

/-- The ECC registers of rill engine `re`. -/
def rillSite (re : Nat) : EccSite :=
  ⟨Reg.RILL_STATUS re, 6, 7, Reg.RILL_ECC re, Reg.RILL_ERRADDR re, 19⟩

/-- The ECC registers of basin engine `be`. -/
def basinSite (be : Nat) : EccSite :=
  ⟨Reg.BASIN_STATUS be, 8, 9, Reg.BASIN_ECC be, Reg.BASIN_ERRADDR be, 20⟩

/-- The ECC registers of the rill bus. -/
def busSite : EccSite := ⟨Reg.RB_STATUS, 3, 4, Reg.RB_ECC, Reg.RB_ERRADDR, 14⟩

/-- The ECC registers of the mix fabric. -/
def fabricSite : EccSite := ⟨Reg.FABRIC_STATUS, 5, 6, Reg.FABRIC_ECC, Reg.FABRIC_ERRADDR, 18⟩

/-- The ECC registers of the cascade unit. -/
def cascadeSite : EccSite := ⟨Reg.CASCADE_STATUS, 5, 6, Reg.CASCADE_ECC, Reg.CASCADE_ERRADDR, 16⟩

/-- Record one ECC event of kind `mark` (1 corrected, 2 uncorrectable): the flag, the count, and the address register,
which an uncorrectable event always overwrites and a corrected one only while KIND is 0 (Table 04-19). -/
def State.eccEvent (s : State) (e : EccSite) (mark : BitVec 2) (addrField : Nat) : State :=
  if mark = 0#2 then s
  else
    let ue := mark = 2#2
    let s1 := s.raise e.status (BitVec.ofNat 32 (2 ^ (if ue then e.ue else e.ce)))
    let s2 := s1.count e.counts (if ue then 16 else 0) 16 1
    if ue ∨ !s2.bit e.errAddr e.kind then
      s2.setReg e.errAddr (BitVec.ofNat 32 (addrField + (if ue then 2 ^ e.kind else 0) + 2 ^ 31))
    else s2

/-- Record every event of a list of (mark, address field) pairs in order. -/
def State.eccEvents (s : State) (e : EccSite) (l : List (BitVec 2 × Nat)) : State :=
  l.foldl (fun t x => t.eccEvent e x.1 x.2) s

/-- The ECC condition of the word at word-space address `a`: 0 good, 1 correctable, 2 uncorrectable. -/
def State.mark (s : State) (a : Nat) : BitVec 2 := Cells.get s.ecc a

/-- A word as read through ECC: an uncorrectable word reads zero. -/
def eccWord {w : Nat} (mark : BitVec 2) (x : BitVec w) : BitVec w := if mark = 2#2 then 0#w else x

end Sys2Proof.Machine
end

