-- ==== Sys2Proof/Machine/Yard.lean ====
section
/-! DEFINITION. The yard: bank ownership, ECC, word and byte-view accesses, and the default target (chapter 16). -/
namespace Sys2Proof.Machine

/-- Master IDs of Table 16-2. -/
def masterCcI : Nat := 0
def masterCcD : Nat := 1
def masterHost : Nat := 11
def masterStream : Nat := 15
def masterFarrier : Nat := 16
def masterDebug : Nat := 17

/-- The frame DMA master of basin engine `be` (0 to 7, BEX 8). -/
def masterBasin (be : Nat) : Nat := 2 + be

/-- The owner code under which a master is admitted: owner 1 admits both control core ports (R383). -/
def ownerCode (master : Nat) : Nat := if master = 0 then 1 else master

/-- The logical bank of a yard word (R379). -/
def bankOf (w : Nat) : Nat := w / 0x40000

/-- CUR of a bank: the owner in force. -/
def bankCur (s : State) (b : Nat) : Nat := s.fld (Reg.MEM_BANK_OWNER b) 16 5

/-- Whether a handover of the bank is pending (R385). -/
def bankPending (s : State) (b : Nat) : Bool := s.bit (Reg.MEM_BANK_OWNER b) 8

/-- Whether the debug port is open (R437). -/
def debugOpen (s : State) : Bool := s.bit Reg.BOOT_STATUS 19

/-- Whether the bank of yard word `w` admits `master` (R383); from the request of a handover the old owner's new requests
are refused (R385). -/
def yardAdmits (s : State) (master w : Nat) : Bool :=
  let b := bankOf w
  (decide (bankCur s b = ownerCode master) && !bankPending s b)
    || (decide (master ≤ 1) && s.bit (Reg.MEM_BANK_ATTR b) 1)
    || (decide (master = masterDebug) && debugOpen s)
    || decide (master = masterFarrier)

/-- Whether the yard and the tack room are being cleared: every access waits (R389). -/
def memClearing (s : State) : Bool := s.bit Reg.MEM_STATUS 8

/-- Whether a request is held and not refused: the clear runs, or the master belongs to the owner a pending handover
names (R385, R389). -/
def yardHolds (s : State) (master w : Nat) : Bool :=
  memClearing s ||
    (!yardAdmits s master w && bankPending s (bankOf w) && decide (s.fld (Reg.MEM_BANK_OWNER (bankOf w)) 0 5 = ownerCode master))

/-- Whether yard word `w` lies in a row of 4 words that a trough writer has begun and not yet stored (R210). -/
def rowHeld (s : State) (w : Nat) : Bool := s.bus.troughs.any fun e => e.2.held.any fun p => decide (p.1 / 4 = w / 4)

/-- Whether a read is held: as any request is, and until the trough writer has stored the word's row (R210). -/
def yardReadHolds (s : State) (master w : Nat) : Bool := yardHolds s master w || (yardAdmits s master w && rowHeld s w)

/-- Record a refused yard access (R383). -/
def ownErr (s : State) (master w : Nat) (write : Bool) : State :=
  ((s.count Reg.MEM_OWN_ERR 0 32 1).setReg Reg.MEM_OWN_INFO
    (BitVec.ofNat 32 (bankOf w % 32 + master * 256 + (if write then 8192 else 0)))).raise Reg.MEM_STATUS 4#32

/-- An access to the default target (R394): recorded, error response, zero for a read. -/
def defaultTarget (s : State) (master addr : Nat) (word write : Bool) : State :=
  (((s.count Reg.MEM_DEC_ERR 0 32 1).setReg Reg.MEM_DEC_ADDR (BitVec.ofNat 32 addr)).setReg Reg.MEM_DEC_INFO
    (BitVec.ofNat 32 (master + (if word then 32 else 0) + (if write then 64 else 0)))).raise Reg.MEM_STATUS 16#32

/-- The ECC registers of the yard and tack room. -/
def memSite : EccSite := ⟨Reg.MEM_STATUS, 0, 1, Reg.MEM_ECC, Reg.MEM_ERRADDR, 23⟩

/-- One second in UTIL cycles. -/
def utilSecond : Nat := 393216000

/-- The log of bank events with one more, of bank `b`: a corrected error counts for one second (R457). -/
def bankLogged (s : State) (b : Nat) (ue : Bool) : List (Nat × Nat × Bool) :=
  (s.far.bankLog.filter fun e => e.2.2 || decide (s.time.cyc < e.2.1 + utilSecond)) ++ [(b, s.time.cyc, ue)]

/-- Record one ECC event of a yard word: the block's registers, its bank's counts, and the farrier's log (R380, R457). -/
def yardEcc (s : State) (mark : BitVec 2) (w : Nat) : State :=
  if mark = 0#2 then s
  else
    let s0 := s.eccEvent memSite mark w
    let s1 := { s0 with
      far := { s0.far with bankLog := bankLogged s0 (bankOf w) (decide (mark = 2#2)) }
      wb := if mark = 1#2 then Cells.write (fun _ => false) s0.wb w true else s0.wb }
    if mark = 2#2 then s1.count (Reg.MEM_BANK_STAT (bankOf w)) 16 8 1 else s1.count (Reg.MEM_BANK_STAT (bankOf w)) 0 16 1

/-- The word the bank returns for yard word `w`, its ECC mark, and the state with the event recorded: an uncorrectable
word is zero (R380). Ownership is checked by the callers. -/
def yardFetch (s : State) (w : Nat) : Word × BitVec 2 × State :=
  let m := s.mark w
  (eccWord m (Cells.get s.yard w), m, yardEcc s m w)

/-- Store a yard word with fresh ECC. -/
def yardPut (s : State) (w : Nat) (x : Word) : State :=
  { s with yard := Cells.set s.yard w x, ecc := Cells.set s.ecc w 0#2, wb := Cells.write (fun _ => false) s.wb w false }

/-- Whether a master receives an error response for an uncorrectable word (R380). -/
def uePropagates (master : Nat) : Bool := decide (master ≤ 1) || decide (master = masterHost) || decide (master = masterDebug)

/-- A word-space read of the yard: the word, whether the response is an error, and the state (R380, R383). -/
def yardRead (s : State) (master w : Nat) : Word × Bool × State :=
  if yardAdmits s master w then
    let r := yardFetch s w
    (r.1, decide (r.2.1 = 2#2) && uePropagates master, r.2.2)
  else (0#36, true, ownErr s master w false)

/-- A word-space write of the yard: whether the response is an error, and the state (R377, R383). -/
def yardWrite (s : State) (master w : Nat) (x : Word) : Bool × State :=
  if yardAdmits s master w then (false, yardPut s w x) else (true, ownErr s master w true)

/-! ### Byte view -/

/-- Byte `k` of bits [31:0] of a word (R376). -/
def wordByte (x : Word) (k : Nat) : Byte := x.extractLsb' (8 * k) 8

/-- Bits [35:32] after a byte-view write: EXT 0 gives zero, EXT 1 four copies of bit 31 (Table 16-1). -/
def extFill (ext : Bool) (x : BitVec 32) : Word := (if ext && x.getLsbD 31 then 15#4 else 0#4) ++ x

/-- Replace byte `k` of a 32-bit word. -/
def putByte (x : BitVec 32) (k : Nat) (b : Byte) : BitVec 32 :=
  (x &&& ~~~(BitVec.ofNat 32 (255 * 256 ^ k))) ||| BitVec.ofNat 32 (b.toNat * 256 ^ k)

/-- The words that bytes `o` to `o + n - 1` touch. -/
def byteWords (o n : Nat) : List Nat := if n = 0 then [] else (List.range ((o + n - 1) / 4 - o / 4 + 1)).map fun i => o / 4 + i

/-- Read `n` bytes of the byte view from byte offset `o` (0 is byte address 0x1000_0000), in address order, with the ECC
events of the words touched; ownership is checked by the callers. -/
def yardFetchBytes (s : State) (o n : Nat) : List Byte × Bool × State :=
  let ws := byteWords o n
  ((List.range n).map fun i => wordByte (eccWord (s.mark ((o + i) / 4)) (Cells.get s.yard ((o + i) / 4))) ((o + i) % 4),
    ws.any fun w => decide (s.mark w = 2#2),
    ws.foldl (fun t w => yardEcc t (s.mark w) w) s)

/-- Merge bytes into the byte view from byte offset `o`; each touched word takes its bank's EXT fill (R377). -/
def yardPutBytes (s : State) (o : Nat) : List Byte → State
  | [] => s
  | b :: t =>
    let w := o / 4
    let r := yardFetch s w
    let x := putByte (r.1.extractLsb' 0 32) (o % 4) b
    yardPutBytes (yardPut r.2.2 w (extFill (s.bit (Reg.MEM_BANK_ATTR (bankOf w)) 0) x)) (o + 1) t

/-- Whether `master` is admitted to every word that bytes `o` to `o + n - 1` touch. -/
def yardAdmitsBytes (s : State) (master o n : Nat) : Bool :=
  (List.range n).all fun i => decide ((o + i) / 4 < 0x800000) && yardAdmits s master ((o + i) / 4)

/-- The first touched word that refuses `master`, for MEM_OWN_INFO. -/
def yardRefusedWord (s : State) (master o n : Nat) : Nat :=
  match (List.range n).find? fun i => !yardAdmits s master ((o + i) / 4) with
  | some i => (o + i) / 4
  | none => o / 4

/-- What a refused byte-view access of `n` bytes from offset `o` records: an access that leaves the yard has no target (R394), and any
other meets a bank of another owner (R383). -/
def yardRefused (s : State) (master o n : Nat) (write : Bool) : State :=
  if 0x2000000 < o + n then defaultTarget s master ((0x10000000 + o) % 2 ^ 32) false write
  else ownErr s master (yardRefusedWord s master o n) write

/-- A byte-view read by a master (R376, R378, R383): bytes in address order, error, state. A failed read returns zeros. -/
def yardReadBytes (s : State) (master o n : Nat) : List Byte × Bool × State :=
  if yardAdmitsBytes s master o n then
    let r := yardFetchBytes s o n
    if r.2.1 && uePropagates master then (List.replicate n 0#8, true, r.2.2) else (r.1, false, r.2.2)
  else (List.replicate n 0#8, true, yardRefused s master o n false)

/-- A byte-view write by a master: both checks are made for every word before any byte is written (R378). -/
def yardWriteBytes (s : State) (master o : Nat) (bs : List Byte) : Bool × State :=
  if yardAdmitsBytes s master o bs.length then (false, yardPutBytes s o bs)
  else (true, yardRefused s master o bs.length true)

/-- A little-endian 32-bit word of four bytes (R376). -/
def leWord (bs : List Byte) : BitVec 32 :=
  BitVec.ofNat 32 ((bs.zipIdx.map fun p => p.1.toNat * 256 ^ p.2).sum)

/-- The `n` low bytes of a 32-bit word, little-endian. -/
def leBytes (x : BitVec 32) (n : Nat) : List Byte := (List.range n).map fun k => x.extractLsb' (8 * k) 8

/-! ### Accesses of blocks and of commands that wait -/

/-- The banks that bytes `a` to `a + n - 1` of byte space touch, and those that an access touches. -/
def byteBanks (a n : Nat) : List Nat :=
  if 0x10000000 ≤ a ∧ a + n ≤ 0x12000000 then ((byteWords (a - 0x10000000) n).map bankOf).eraseDups else []
def Access.banks : Access → List Nat
  | .readWord a | .writeWord a _ => if a.toNat < 0x800000 then [bankOf a.toNat] else []
  | .readBytes a n => byteBanks a.toNat n
  | .writeBytes a bs => byteBanks a.toNat bs.length

/-- Whether a block's read (or write) of `n` yard bytes from offset `o`, as master `m`, waits: for the clear, for a handover, for a row, or
behind an access of its master (R378, R385, R389). -/
def blockHolds (s : State) (m o n : Nat) (write : Bool) : Bool :=
  decide (o + n ≤ 0x2000000) && (masterWaits s m || (byteWords o n).any (if write then yardHolds s m else yardReadHolds s m))

/-- A block's write of yard bytes from offset `o`: at once, or held with the accesses that wait. -/
def blockWrite (s : State) (m o : Nat) (bs : List Byte) : State :=
  if blockHolds s m o bs.length true then
    s.hold { master := m, access := .writeBytes (BitVec.ofNat 32 (0x10000000 + o)) (bs.map some), quiet := true }
  else (yardWriteBytes s m o bs).2

/-- A write of `v` to the register at `a` by master `m` whose row is a command: `r` is the response and the state after it; behind an access
of the master that waits it waits too (R378, R505). -/
def State.asked (s : State) (m a : Nat) (v : BitVec 32) (r : Bool × State) : State :=
  if masterWaits s m then s.hold { master := m, access := .writeBytes (BitVec.ofNat 32 a) ((leBytes v 4).map some) }
  else .answered m r

end Sys2Proof.Machine
end

