-- ==== Sys2Proof/Machine/Claims.lean ====
section
/-! DEFINITION. Claims on shared resources (R497 to R499) and on stalls (R200 to R203). -/
namespace Sys2Proof.Machine

/-- Function codes of Table 21-9. -/
def fnPdm : Nat := 1
def fnAnalog : Nat := 2
def fnTdm (p : Nat) : Nat := 3 + p
def fnClkOut : Nat := 7
def fnTime : Nat := 8
def fnCsp : Nat := 9
def fnGpio : Nat := 10
def fnEth (p : Nat) : Nat := 11 + p
def fnStream : Nat := 14
def fnHost : Nat := 15
def fnTether (p : Nat) : Nat := 16 + p
def fnRill (re : Nat) : Nat := 32 + re
def fnBasin (be : Nat) : Nat := 48 + be

/-- Record a refused claim (R497, R499). -/
def claimRefused (s : State) (cls idx holder req : Nat) : State :=
  (s.setReg Reg.SYS_CONFLICT (BitVec.ofNat 32 (cls + idx * 16 + holder * 65536 + req * 16777216))).raise Reg.SYS_STATUS 2#32

/-- The key of resource `idx` of class `cls`. -/
def resKey (cls idx : Nat) : Nat := cls * 4096 + idx

/-- The function code that holds a resource; 0 for none. -/
def resHolder (s : State) (cls idx : Nat) : Nat := (Cells.get s.claims (resKey cls idx)).toNat

/-- The function that holds a resource, claimed or not: the pins of the CSP's slave role, CSP_CLK, CSP_D0, CSP_D1 and CSP_SEL_N, are not
claimed but are held while ROLE is 0 (R399, R497; DEDUCED, log entry 86: CSP_D2 to CSP_D7, which that role leaves at high impedance, are
free then). -/
def resOwner (s : State) (cls idx : Nat) : Nat :=
  let h := resHolder s cls idx
  if h = 0 ∧ cls = 0 ∧ s.bit Reg.CSP_CTRL 0 = false ∧ (idx = 94 ∨ idx = 95 ∨ idx = 96 ∨ idx = 103) then fnCsp else h

/-- Whether `fn` may take the resource: it is free or already its own (R497). -/
def resFree (s : State) (cls idx fn : Nat) : Bool := decide (resOwner s cls idx = 0) || decide (resOwner s cls idx = fn)

/-- Take a resource. -/
def resTake (s : State) (cls idx fn : Nat) : State := { s with claims := Cells.set s.claims (resKey cls idx) (BitVec.ofNat 8 fn) }

/-- Release a resource that `fn` holds. -/
def resRelease (s : State) (cls idx fn : Nat) : State :=
  if resHolder s cls idx = fn then { s with claims := Cells.set s.claims (resKey cls idx) 0#8 } else s

/-- Claim every resource of a list of (class, index) pairs, or none of them: the first that is not free is recorded (R497). -/
def claimAll (s : State) (fn : Nat) (l : List (Nat × Nat)) : Bool × State :=
  match l.find? fun r => !resFree s r.1 r.2 fn with
  | some r => (false, claimRefused s r.1 r.2 (resOwner s r.1 r.2) fn)
  | none => (true, l.foldl (fun t r => resTake t r.1 r.2 fn) s)

/-- Release every resource of a list. -/
def releaseAll (s : State) (fn : Nat) (l : List (Nat × Nat)) : State := l.foldl (fun t r => resRelease t r.1 r.2 fn) s

/-! ### Stalls -/

/-- Claim classes of Table 09-11. -/
def clsPort : Nat := 1
def clsScatter : Nat := 2
def clsBus : Nat := 3
def clsChain : Nat := 4
def clsTrough : Nat := 5
def clsTether : Nat := 6

/-- The port whose receiver writes input stall `k`; 0 where Table 09-1 names none. -/
def stallPort (k : Nat) : Nat :=
  if k < 128 then fnPdm else if k < 132 then fnAnalog
  else if 136 ≤ k ∧ k < 264 then fnTdm ((k - 136) / 32)
  else if 392 ≤ k ∧ k < 648 then fnStream
  else if 904 ≤ k ∧ k < 1032 then fnHost
  else if 1160 ≤ k ∧ k < 1176 then 13
  else 0

/-- Whether stall `k` is an output stall, whose delivery stage the ramps scale (R34). -/
def isOutputStall (k : Nat) : Bool :=
  (decide (132 ≤ k) && decide (k < 136)) || (decide (264 ≤ k) && decide (k < 392)) || (decide (648 ≤ k) && decide (k < 904))
    || (decide (1032 ≤ k) && decide (k < 1160)) || (decide (1176 ≤ k) && decide (k < 1192))

/-- Whether Table 09-1 permits a writer of class `cls` and index `idx` on stall `k`. -/
def stallPermits (k cls idx : Nat) : Bool :=
  if cls = clsPort then decide (idx ≠ 0) && decide (stallPort k = idx)
  else if cls = clsTether then decide (1192 ≤ k) && decide (k < 2048)
  else isOutputStall k || (decide (1192 ≤ k) && decide (k < 2048))

/-- A stall claim word (Table 09-11). -/
def claimWord (cls idx : Nat) : Word := BitVec.ofNat 36 (2 ^ 35 + cls * 2 ^ 32 + idx % 65536)

/-- CLASS of a claim word; 0 for none. -/
def claimCls (w : Word) : Nat := (w.extractLsb' 32 3).toNat

/-- INDEX of a claim word. -/
def claimIdx (w : Word) : Nat := (w.extractLsb' 0 16).toNat

/-- The function code of a stall's writer (Table 21-9). The index of a tether channel is 512 x port + channel (DESIGN CHOICE, log entry 123:
Table 09-11 says the channel, and each port has 512). -/
def claimFn (cls idx : Nat) : Nat :=
  if cls = clsPort then idx else if cls = clsScatter then fnRill (idx / 256) else if cls = clsBus then 18
  else if cls = clsChain then 19 else if cls = clsTrough then 20 else if cls = clsTether then fnTether (idx / 512) else 0

/-- The claim word of stall `k`; zero when it is unclaimed. -/
def stallClaim (s : State) (k : Nat) : Word := Cells.get s.bus.claims k

/-- Claim a stall for a writer (R201, R202): whether it now holds it, and the state. -/
def claimStall (s : State) (k cls idx : Nat) : Bool × State :=
  let w := stallClaim s k
  if w = claimWord cls idx then (true, s)
  else if w = 0#36 ∧ stallPermits k cls idx = true then
    (true, { s with bus := { s.bus with claims := Cells.set s.bus.claims k (claimWord cls idx) } })
  else
    (false, (claimRefused s 6 k (claimFn (claimCls w) (claimIdx w)) (claimFn cls idx)).raise Reg.RB_STATUS 1#32)

/-- Release a stall a writer holds. -/
def releaseStall (s : State) (k cls idx : Nat) : State :=
  if stallClaim s k = claimWord cls idx then { s with bus := { s.bus with claims := Cells.set s.bus.claims k 0#36 } } else s

/-- Claim input stalls for one receiver of function `fn`, all of them or none; `taken` says that another receiver of the same
function carries a stall (R200, R203). -/
def claimInputs (s : State) (taken : Nat → Bool) (fn : Nat) (ks : List Nat) : Bool × State :=
  match ks.find? taken with
  | some k => (false, (claimRefused s 6 k fn fn).raise Reg.RB_STATUS 1#32)
  | none =>
    let r := ks.foldl (fun (p : Bool × State) k => if p.1 then claimStall p.2 k clsPort fn else p) (true, s)
    if r.1 then r else (false, ks.foldl (fun t k => releaseStall t k clsPort fn) r.2)

/-- Whether a writer holds a stall. -/
def holdsStall (s : State) (k cls idx : Nat) : Bool := decide (stallClaim s k = claimWord cls idx)

/-- Where the ECC marks of the stall buffers stand: of the words readable in this interval, and 2,048 above them of the words written
in it. -/
def stallKey : Nat := 0x2000000

/-- Whether stall `k` reads the word it holds: an unclaimed stall and one whose word is uncorrectable read zero (R206). -/
def stallGood (s : State) (k : Nat) : Bool := decide (stallClaim s k ≠ 0#36) && decide (s.mark (stallKey + k) ≠ 2#2)

/-- The word of stall `k` readable in this interval (R12, R206). -/
def stallRead (s : State) (k : Nat) : Word := if stallGood s k then Cells.get s.bus.cur k else 0#36

/-- A writer's word for the next interval: only the claim holder's write reaches the stall (R201). -/
def stallWrite (s : State) (k cls idx : Nat) (w : Word) : State :=
  if holdsStall s k cls idx then
    { s with
      bus := { s.bus with next := Cells.set s.bus.next k w, written := Cells.write (fun _ => false) s.bus.written k true }
      ecc := Cells.set s.ecc (stallKey + 2048 + k) 0#2 }
  else s

/-- A port's word for its input stall. -/
def portWrite (s : State) (k : Nat) (w : Word) : State := stallWrite s k clsPort (stallPort k) w

end Sys2Proof.Machine
end

