-- ==== Sys2Proof/Machine/Rings.lean ====
section
/-! DEFINITION. Descriptor rings, the index mirror, MSI-X messages and the interrupt aggregator (chapter 15, R508, R509). -/
namespace Sys2Proof.Machine

/-- Whether the rings live in the yard (R373). -/
def hostLocal (s : State) : Bool := s.bit Reg.HOST_CTRL 0

/-- EN of ring `r`. -/
def ringEn (s : State) (r : Nat) : Bool := s.bit (Reg.RING_CFG r) 0

/-- SIZE of ring `r` in slots. -/
def ringSize (s : State) (r : Nat) : Nat := 2 ^ s.fld (Reg.RING_CFG r) 2 4

/-- The producer index last accepted. It stands in the doorbell register, which reads it (R348). -/
def ringPi (s : State) (r : Nat) : Nat := s.fld (Reg.HOST_DOORBELL r) 0 16

/-- The consumer index. -/
def ringCi (s : State) (r : Nat) : Nat := s.fld (Reg.RING_STATE r) 0 16

/-- The slots between CI and PI: produced and not finished, or free for the device to fill (R350, R351). 0 while disabled. -/
def ringReady (s : State) (r : Nat) : Nat :=
  if ringEn s r && !s.bit (Reg.RING_STATE r) 17 then (ringPi s r + 65536 - ringCi s r) % 65536 else 0

/-- The slots produced and not finished, also of a ring that completes the work it had started when its EN was cleared (R353). -/
def ringLeft (s : State) (r : Nat) : Nat :=
  if s.bit (Reg.RING_STATE r) 17 then 0 else (ringPi s r + 65536 - ringCi s r) % 65536

/-- The host byte address of slot `i` of ring `r`. -/
def ringSlot (s : State) (r i : Nat) : Nat :=
  (s.reg (Reg.RING_BASE_LO r)).toNat + (s.reg (Reg.RING_BASE_HI r)).toNat * 2 ^ 32 + 32 * (i % ringSize s r)

/-- The yard byte offset of a byte-space address, when it lies in the yard byte view (R501). -/
def yardOffset (a : Nat) : Option Nat := if 0x10000000 ≤ a ∧ a < 0x12000000 then some (a - 0x10000000) else none

/-- A device write to host memory, or in local mode to the yard as the host DMA master (R352, R373). -/
def hostPut (s : State) (a : Nat) (bs : List Byte) : State :=
  if hostLocal s then
    match yardOffset a with
    | some o => blockWrite s masterHost o bs
    | none => defaultTarget s masterHost (a % 2 ^ 32) false true
  else { s with host := { s.host with mem := Cells.setAll s.host.mem (a % 2 ^ 64) bs } }

/-- The device's limits on the link (R346): the bytes of one posted write, the bytes of one read, the tags in use, and the Completion
Timeout in ms. -/
def pciPayload (s : State) : Nat := min 256 (128 * 2 ^ s.host.pci.limits.maxPayload.toNat)
def pciRead (s : State) : Nat := min 512 (128 * 2 ^ s.host.pci.limits.maxRead.toNat)
def pciTags (s : State) : Nat := if s.host.pci.limits.extTags then 256 else 32
def pciTimeout (s : State) : Nat :=
  match s.host.pci.limits.timeout.toNat with
  | 1 | 2 => 1
  | 5 | 6 => 100
  | _ => 10

/-- The most tags that one ring can hold (R354): an audio-in ring draws on the quarter reserved for it too. -/
def ringTags (s : State) (audioIn : Bool) : Nat := min 64 (pciTags s - if audioIn then 0 else pciTags s / 4)

/-- The tags that the other rings with slots to fetch can hold beside one ring's (R354): 64 each, without the reserved quarter but for the
audio-in rings. -/
def otherTags (s : State) : Nat :=
  let busy := fun (l : List Nat) => (l.filter fun r => decide (ringReady s r ≠ 0)).length
  let ain := busy ((List.range 8).map (4 + ·))
  min (64 * (busy (List.range 54) - ain)) (pciTags s - pciTags s / 4) + 64 * ain

/-- The device reads `n` bytes of host memory in requests of at most `pciRead` bytes (R354). How many of them are in flight at once, with
those of the other rings, is the host's latency: HOST_TAGS.PEAK rises to a free value that the requests and the tags bound (log entry
29). -/
def tagsNote (s : State) (audioIn : Bool) (n : Nat) : State :=
  let own := min ((n + pciRead s - 1) / pciRead s) (ringTags s audioIn)
  let k := min (pciTags s) (own + otherTags s)
  let peak := s.fld Reg.HOST_TAGS 16 9
  if own = 0 ∨ k ≤ peak then s
  else if k = 1 then s.setFld Reg.HOST_TAGS 16 9 1
  else let f := s.takeFree; f.2.setFld Reg.HOST_TAGS 16 9 (max peak (1 + Config.freeTags f.1 % k))

/-- Whether, in local mode, a read of `n` bytes at `a` as master `m` waits (R373, R385, R389). -/
def hostHolds (s : State) (m a n : Nat) : Bool :=
  hostLocal s && match yardOffset a with
    | some o => blockHolds s m o n false
    | none => false

/-- The `n` bytes at address `a` as the block reads them for `master`: those of host memory, `given`, or in local mode the yard's; with
whether the read failed, as `bad` says of host memory, and the state it leaves (R354, R373, R380, R383). -/
def hostGet (s : State) (master a n : Nat) (given : List Byte) (bad : Bool) : List Byte × Bool × State :=
  if hostLocal s then
    match yardOffset a with
    | some o => yardReadBytes s master o n
    | none => (List.replicate n 0#8, true, defaultTarget s master (a % 2 ^ 32) false false)
  else (given, bad, tagsNote s false n)

/-- The `n` little-endian bytes of a number. -/
def leNat (n x : Nat) : List Byte := (List.range n).map fun k => BitVec.ofNat 8 (x / 256 ^ k)

/-- A record of DWORDs as bytes. -/
def leDwords (l : List Nat) : List Byte := l.flatMap (leNat 4)

/-- The number a little-endian byte list holds. -/
def leVal (bs : List Byte) : Nat := bs.foldr (fun b n => b.toNat + 256 * n) 0

/-- DWORD `k` of the MSI-X table. -/
def msixWord (s : State) (k : Nat) : BitVec 32 := Cells.read msixReset s.host.msix k

/-- Send one MSI-X message on vector `v`: a local-mode bit, a pending bit while masked, or the message's memory write (R372,
R373). -/
def msixSend (s : State) (v : Nat) : State :=
  if hostLocal s then s.raise Reg.HOST_LOCAL_PEND (BitVec.ofNat 32 (2 ^ v))
  else if !s.host.pci.msixOn then s
  else if s.host.pci.funcMask || (msixWord s (4 * v + 3)).getLsbD 0 then
    { s with host := { s.host with pba := s.host.pba ||| BitVec.ofNat 32 (2 ^ v) } }
  else
    hostPut { s with host := { s.host with pba := s.host.pba &&& ~~~(BitVec.ofNat 32 (2 ^ v)) } }
      ((msixWord s (4 * v)).toNat + (msixWord s (4 * v + 1)).toNat * 2 ^ 32) (leNat 4 (msixWord s (4 * v + 2)).toNat)

/-- Send every pending message that is no longer masked (R372). -/
def msixUnmask (s : State) : State :=
  (List.range 32).foldl (fun t v => if t.host.pba.getLsbD v && !(t.host.pci.funcMask || (msixWord t (4 * v + 3)).getLsbD 0) then msixSend t v else t) s

/-- Signal ring `r` under moderation (R372). -/
def ringSignal (s : State) (r : Nat) : State :=
  let b := BitVec.ofNat 64 (2 ^ r)
  if !s.bit (Reg.RING_CFG r) 1 then s
  else if s.host.modRun.getLsbD r then { s with host := { s.host with modPend := s.host.modPend ||| b } }
  else
    let s1 := msixSend s (s.fld (Reg.RING_CFG r) 6 5)
    if s.fld (Reg.RING_CFG r) 16 8 = 0 then s1 else { s1 with host := { s1.host with modRun := s1.host.modRun ||| b } }

/-- The byte address of ring `r`'s mirror entry. -/
def mirrorAddr (s : State) (r : Nat) : Nat :=
  (s.reg Reg.HOST_MIRROR_LO).toNat / 256 * 256 + (s.reg Reg.HOST_MIRROR_HI).toNat * 2 ^ 32 + 4 * r

/-- Advance CI of ring `r` past one slot, write the mirror entry, then signal (R352). -/
def ringAdvance (s : State) (r : Nat) : State :=
  let s1 := s.setFld (Reg.RING_STATE r) 0 16 (ringCi s r + 1)
  ringSignal (hostPut s1 (mirrorAddr s1 r) (leNat 4 (ringCi s1 r))) r

/-- Write a record into the next slot of a device-filled ring and advance it. -/
def ringRecord (s : State) (r : Nat) (l : List Nat) : State :=
  ringAdvance (hostPut s (ringSlot s r (ringCi s r)) (leDwords l)) r

/-! ### Events (R363, R364) -/

/-- The DWORDs of an event record (Table 15-10). -/
def eventWords (s : State) (src code : Nat) (d : List Nat) : List Nat :=
  [src + code * 65536, s.host.evtSeq.toNat, s.tick.frameCnt.toNat % 2 ^ 32, s.tick.frameCnt.toNat / 2 ^ 32] ++ d

/-- The state after one more record was written or lost. -/
def eventSeq (s : State) : State := { s with host := { s.host with evtSeq := s.host.evtSeq + 1#32 } }

/-- Lose one record (R364). -/
def eventLose (s : State) : State :=
  let s1 := (s.count Reg.HOST_EVT_LOST 0 32 1).raise Reg.HOST_STATUS 0x4000#32
  eventSeq { s1 with host := { s1.host with evtGap := s1.host.evtGap + 1 } }

/-- Write a record to ring 2, or lose it when no slot is free. -/
def eventPut (s : State) (src code : Nat) (d : List Nat) : State :=
  if ringReady s 2 = 0 then eventLose s else eventSeq (ringRecord s 2 (eventWords s src code d))

/-- Raise an event: an OVERFLOW record precedes it after records were lost. -/
def State.event (s : State) (src code d0 d1 d2 d3 : Nat) : State :=
  if s.host.evtGap ≠ 0 ∧ ringReady s 2 ≠ 0 then
    let s1 := eventSeq (ringRecord s 2 (eventWords s 1 1 [s.host.evtGap, 0, 0, 0]))
    eventPut { s1 with host := { s1.host with evtGap := 0 } } src code [d0, d1, d2, d3]
  else eventPut s src code [d0, d1, d2, d3]

/-- Ring `r` stops, as a descriptor of it cannot be read (R355, Table 15-4). -/
def ringFail (s : State) (r : Nat) : State :=
  if ringEn s r then
    (((s.setBit (Reg.RING_STATE r) 16 true).setBit (Reg.RING_STATE r) 17 true).raise Reg.HOST_STATUS 0x800#32).event 1 2 r 2 0 0
  else s

/-! ### The aggregator (R508, R509) -/

/-- The flags of an Ethernet port's interrupt under ETH_INT_EN (R323, Table 13-15). -/
def ethIrq (s : State) (p : Nat) : Bool :=
  decide (s.reg (Reg.ETH_STATUS p) &&& s.reg (Reg.ETH_INT_EN p) &&& 0x7FF00#32 ≠ 0#32)
    || (s.bit (Reg.ETH_INT_EN p) 0 && (decide (s.reg (Reg.ETH_HALF p 0) ≠ 0#32) || decide (s.reg (Reg.ETH_HALF p 1) ≠ 0#32)))

/-- The aggregator source and the flag bits of a register that feeds one directly (Table 22-7). -/
def irqFlags (a : Nat) : Option (Nat × BitVec 32) :=
  if a = Reg.SYS_STATUS then some (0, 0x1F#32)
  else if a = Reg.MPLL_STATUS then some (1, 0x3FF#32)
  else if a = Reg.PWR_STATUS then some (2, 1#32)
  else if a = Reg.FL_STATUS then some (3, 0x1E#32)
  else if a = Reg.BOOT_STATUS then some (3, 0x100000#32)
  else if a = Reg.MEM_STATUS then some (4, 0x7F#32)
  else if a = Reg.TICK_STATUS then some (5, 3#32)
  else if Reg.RILL_STATUS 0 ≤ a ∧ a ≤ Reg.RILL_STATUS 16 ∧ a % 0x1000 = 0xC then some (6, 0xFF#32)
  else if Reg.BASIN_STATUS 0 ≤ a ∧ a ≤ Reg.BASIN_STATUS 8 ∧ a % 0x1000 = 8 then some (7, 0x3FF#32)
  else if a = Reg.CC_STATUS then some (7, 1#32)
  else if a = Reg.RB_STATUS then some (8, 0x3F#32)
  else if a = Reg.FABRIC_STATUS then some (9, 0xFF#32)
  else if a = Reg.CASCADE_STATUS then some (10, 0xFF#32)
  else if a = Reg.SL_STATUS then some (10, 3#32)
  else if a = Reg.PDM_STATUS then some (11, 3#32)
  else if Reg.PDM_STUCK 0 ≤ a ∧ a ≤ Reg.PDM_STUCK 3 then some (11, 0xFFFFFFFF#32)
  else if a = Reg.ANA_STATUS then some (12, 0xFF#32)
  else if Reg.TDM_STATUS 0 ≤ a ∧ a ≤ Reg.TDM_STATUS 3 ∧ a % 0x1000 = 0x18 then some (13, 0x3F#32)
  else if a = Reg.ASRC_STATUS then some (14, 0xF0#32)
  else if a = Reg.T1S_ASTATUS then some (17, 0xF00#32)
  else if a = Reg.STR_STATUS then some (18, 7#32)
  else if a = Reg.TIME_STATUS then some (19, 0xFFF0E#32)
  else if a = Reg.HOST_STATUS then some (20, 0x1FF00#32)
  else if a = Reg.HOST_LOCAL_PEND then some (20, 0xFFFFFFFF#32)
  else if a = Reg.SUP_RAIL then some (22, 0x1F#32)
  else if a = Reg.FAR_STATUS then some (23, 0x7F#32)
  else if a = Reg.TETH_STATUS then some (24, 0x1F#32)
  else if Reg.GPIO_IRQ 0 ≤ a ∧ a ≤ Reg.GPIO_IRQ 3 then some (25, 0xFFFFFFFF#32)
  else none

/-- SYS_IRQ_RAW: the levels of the 26 sources. -/
def irqRaw (s : State) : BitVec 32 :=
  let direct := s.regs.foldl (fun r e => match irqFlags e.1 with
    | some (b, m) => if e.2 &&& m ≠ 0#32 then r ||| BitVec.ofNat 32 (2 ^ b) else r
    | none => r) 0#32
  let add := fun (r : BitVec 32) (b : Nat) (c : Bool) => if c then r ||| BitVec.ofNat 32 (2 ^ b) else r
  add (add (add (add direct 15 (ethIrq s 0)) 16 (ethIrq s 1)) 17 (ethIrq s 2)) 21
    (decide (s.reg Reg.CSP_STATUS &&& (s.reg Reg.CSP_CTRL >>> 8) &&& 0xFF#32 ≠ 0#32))

/-- SYS_IRQ_PEND_CC. -/
def irqPendCc (s : State) : BitVec 32 := irqRaw s &&& s.reg Reg.SYS_IRQ_EN_CC

/-- SYS_IRQ_PEND_HOST. -/
def irqPendHost (s : State) : BitVec 32 := irqRaw s &&& s.reg Reg.SYS_IRQ_EN_HOST

/-- Send the aggregator's message, where R509 lets it be sent. -/
def aggSend (s : State) : State :=
  if s.bit Reg.HOST_VEC_AGG 8 && !hostLocal s then msixSend s (s.fld Reg.HOST_VEC_AGG 0 5) else s

/-- After a command: when SYS_IRQ_PEND_HOST went from zero to non-zero, one message is sent (R509). -/
def settle (s : State) : State :=
  let high := decide (irqPendHost s ≠ 0#32)
  let s1 := if high && !s.host.aggHigh then aggSend s else s
  { s1 with host := { s1.host with aggHigh := high } }

/-- The outcome of every command of this block. -/
abbrev Out := Host.Outcome State Fault Refusal

/-- A command's next state, the aggregator's message sent. -/
def done (s : State) : Out := .next (settle s)

end Sys2Proof.Machine
end

