-- ==== Sys2Proof/Machine/Csp.lean ====
section
/-! DEFINITION. The control serial port: its role, its master and the registers of both (chapter 17). The slave's words are in
Machine/Slave.lean, beside the crossbar they enter. -/
namespace Sys2Proof.Machine

/-! ### The outside of a pin (R492, R500) -/

/-- Whether GPIO drives pin `i`: it holds the pin, with OE set. -/
def gpioDrives (s : State) (i : Nat) : Bool := decide (resHolder s 0 i = fnGpio) && s.bit (Reg.GPIO_CFG i) 1

/-- Whether pin `i` is an output of the function that holds it, with a clock or data whose edges are reported: PDM_CLK, DOUT and a master's
BCLK and FS, MCLK_OUT, WCLK_OUT, and MDC and MDIO. -/
def funcDrives (s : State) (i : Nat) : Bool :=
  decide (resHolder s 0 i ≠ 0) && (decide (64 ≤ i ∧ i < 72)
    || (decide (72 ≤ i ∧ i < 88) && (decide (i % 4 = 3) || (decide (i % 4 < 2) && s.bit (Reg.TDM_CTRL ((i - 72) / 4)) 2)))
    || decide (i = 88 ∨ i = 89) || decide (104 ≤ i ∧ i < 108))

/-- The level of pin `i` where nothing that the model follows drives it: the one last reported, else that of its pull. With neither it is a
free value, but for CSP_SEL_N, which is not asserted then: CSP_STATUS.SEL resets to 0 (log entry 119). -/
def extLevel (s : State) (i : Nat) : Bool :=
  if s.power.driven.getLsbD i || funcDrives s i then s.power.pins.getLsbD i
  else if s.fld (Reg.GPIO_CFG i) 4 2 = 1 then false
  else if s.fld (Reg.GPIO_CFG i) 4 2 = 2 then true
  else decide (i = 103) || Config.freePin i

/-- Whether CSP_SEL_N is asserted: its pin is low (R414). -/
def cspSelected (s : State) : Bool := !(if gpioDrives s 103 then s.bit (Reg.GPIO_CFG 103) 2 else extLevel s 103)

/-! ### The role -/

/-- ROLE: 0 slave, 1 master. -/
def cspMaster (s : State) : Bool := s.bit Reg.CSP_CTRL 0

/-- BUSY. -/
def cspBusy (s : State) : Bool := s.bit Reg.CSP_M_STATUS 16

/-- Record a refused configuration write. -/
def cspReject (s : State) : State := s.raise Reg.CSP_STATUS 0x80#32

/-- The pins that the master role claims (R398). -/
def cspPins : List (Nat × Nat) := (List.range 9).map fun i => (0, 94 + i)

/-- Perform a write of ROLE (R398): whether its claims are granted, and the state. -/
def roleApply (s : State) (v : Bool) : Bool × State :=
  if v = cspMaster s then (true, s)
  else if v then
    let r := claimAll s fnCsp cspPins
    (r.1, r.2.setBit Reg.CSP_CTRL 0 r.1)
  else (true, (releaseAll s fnCsp cspPins).setBit Reg.CSP_CTRL 0 false)

/-- A write of CSP_CTRL (R398): `slave` tells a write that arrives over the slave role, whose ROLE waits for the release of CSP_SEL_N. Any
other write of ROLE while BUSY or while CSP_SEL_N is asserted is not performed, whatever its value. A refused claim leaves INT_EN as it
was (R497). -/
def cspCtrlWrite (s : State) (v : BitVec 32) (slave : Bool) : State :=
  let en := fun (u : State) => u.setFld Reg.CSP_CTRL 8 8 (v.extractLsb' 8 8).toNat
  if slave then let s1 := en s; { s1 with csp := { s1.csp with role := some (v.getLsbD 0) } }
  else if cspBusy s || cspSelected s then cspReject (en s)
  else
    let r := roleApply s (v.getLsbD 0)
    if r.1 then en r.2 else r.2

/-- The lanes that a lane field names. -/
def cspLanes (s : State) (lo : Nat) : Nat := 2 ^ s.fld Reg.CSP_M_PHASE lo 2

/-- The bits of the command and the address phase, and the bytes of the data phase (Table 17-5). -/
def cspCmdBits (s : State) : Nat := 8 * min 2 (s.fld Reg.CSP_M_PHASE 2 2)
def cspAddrBits (s : State) : Nat := s.fld Reg.CSP_M_PHASE 6 6
def cspLen (s : State) : Nat := min 65536 (s.fld Reg.CSP_M_LEN 0 17)

/-- DIR: whether the data phase reads. -/
def cspReads (s : State) : Bool := s.bit Reg.CSP_M_PHASE 22

/-- What refuses a start (R404). -/
def cspStartBad (s : State) : Bool :=
  !cspMaster s || cspBusy s || !([0, 8, 16, 24, 32].contains (cspAddrBits s))
    || decide (cspCmdBits s % cspLanes s 0 ≠ 0) || decide (cspAddrBits s % cspLanes s 4 ≠ 0) || decide (8 * cspLen s % cspLanes s 20 ≠ 0)
    || (s.bit Reg.CSP_M_PHASE 19 && decide (s.fld Reg.CSP_M_PHASE 14 5 < 8 / cspLanes s 12))

/-- The cycles that send the low `bits` bits of `v`, the most significant first, on `n` lanes: in each cycle the most significant of its
bits is on lane `n` - 1 (R400, R401). -/
def cspSend (v n bits : Nat) : List CspCycle :=
  (List.range (bits / n)).map fun k => { drive := BitVec.ofNat 8 (2 ^ n - 1), level := BitVec.ofNat 8 (v / 2 ^ (bits - n * (k + 1)) % 2 ^ n) }

/-- `n` cycles in which the master drives no lane. -/
def cspFloat (n : Nat) : List CspCycle := List.replicate n { drive := 0#8, level := 0#8 }

/-- The clock of the cycles of a sequence (R404): in SPI's modes CPHA 0 samples at the first edge of a cycle and CPHA 1 at the second, and
CPOL is the idle level, so that the sampling edge rises where the two are equal. -/
def cspClocked (s : State) (l : List CspCycle) : List CspCycle :=
  let cpol := s.bit Reg.CSP_M_CFG 8
  let cpha := s.bit Reg.CSP_M_CFG 9
  l.map fun c => { c with rises := cpol == cpha, leads := !cpha }

/-- The command, address and dummy phases of a sequence (R400, R401). -/
def cspOpening (s : State) : List CspCycle :=
  let dummy := s.fld Reg.CSP_M_PHASE 14 5
  let mode := if s.bit Reg.CSP_M_PHASE 19 then cspSend (s.fld Reg.CSP_M_CMD 16 8) (cspLanes s 12) 8 else []
  cspClocked s (cspSend (s.fld Reg.CSP_M_CMD 0 (cspCmdBits s)) (cspLanes s 0) (cspCmdBits s)
    ++ cspSend (s.fld Reg.CSP_M_ADDR 0 (cspAddrBits s)) (cspLanes s 4) (cspAddrBits s) ++ mode ++ cspFloat (dummy - mode.length))

/-- The data cycles of one FIFO word with `left` bytes of the sequence still to come: bits [7:0] are the first byte (R402), sent, or
received with no lane driven. -/
def cspData (s : State) (left : Nat) (w : Option (BitVec 32)) : List CspCycle :=
  let n := cspLanes s 20
  cspClocked s ((List.range (min 4 left)).flatMap fun k =>
    match w with
    | some v => cspSend (v.toNat / 256 ^ k % 256) n 8
    | none => cspFloat (8 / n))

/-- A write of CSP_M_LEN: LEN, and with START a sequence starts or is refused (R400, R404). An accepted start empties the FIFOs. -/
def cspLenWrite (s : State) (v : BitVec 32) : State :=
  let s1 := s.setReg Reg.CSP_M_LEN (v &&& 0x1FFFF#32)
  if v.getLsbD 31 then
    if cspStartBad s1 then cspReject s1
    else { s1.setBit Reg.CSP_M_STATUS 16 true with csp := { s1.csp with tx := [], rx := [], left := cspLen s1, wire := cspOpening s1, part := [] } }
  else s1

/-- Words that the master's data phase has sent since it was last looked at: it takes `n` words of the TX FIFO, no more than the FIFO and the
sequence allow (R402, R403). -/
def cspSent (s : State) : Nat → State
  | 0 => s
  | n + 1 =>
    match s.csp.tx with
    | w :: t =>
      if cspBusy s && !cspReads s && decide (s.csp.left ≠ 0) then
        cspSent { s with csp := { s.csp with tx := t, left := s.csp.left - 4, wire := s.csp.wire ++ cspData s s.csp.left (some w) } } n
      else s
    | [] => s

/-- The bits that a cycle of `n` lanes carries, from a sample of CSP_D0 to CSP_D7: the most significant is on lane `n` - 1, and a phase of
1 lane samples CSP_D1 (R401). -/
def cspBits (n : Nat) (x : BitVec 8) : Nat := if n = 1 then (x.extractLsb' 1 1).toNat else x.toNat % 2 ^ n

/-- The byte that the samples of its cycles spell, and the FIFO word of `b` bytes, the first in bits [7:0]; the rest of it is zero. -/
def cspByte (n : Nat) (l : List (BitVec 8)) : Nat := l.foldl (fun v x => v * 2 ^ n + cspBits n x) 0
def cspWord (n b : Nat) (l : List (BitVec 8)) : BitVec 32 :=
  BitVec.ofNat 32 (((List.range b).map fun k => cspByte n ((l.drop (k * (8 / n))).take (8 / n)) * 256 ^ k).sum)

/-- Put whole words of the samples held into the RX FIFO, `k` of them at most and no more than the FIFO and the sequence allow (R402,
R403). -/
def cspTaken (s : State) : Nat → State
  | 0 => s
  | k + 1 =>
    let n := cspLanes s 20
    let b := min 4 s.csp.left
    if s.csp.left ≠ 0 ∧ s.csp.rx.length < 64 ∧ b * (8 / n) ≤ s.csp.part.length then
      cspTaken { s with csp := { s.csp with
        rx := s.csp.rx ++ [cspWord n b s.csp.part], part := s.csp.part.drop (b * (8 / n)), left := s.csp.left - 4,
        wire := s.csp.wire ++ cspData s s.csp.left none } } k
    else s

/-- The lanes as sampled in the cycles of a data phase that receives (R401). A full RX FIFO and the end of the data stop the clock, so
that no sample stands over. -/
def cspReceived (s : State) (l : List (BitVec 8)) : State :=
  if cspBusy s && cspReads s then
    let s1 := cspTaken { s with csp := { s.csp with part := s.csp.part ++ l } } 64
    if s1.csp.left = 0 ∨ 64 ≤ s1.csp.rx.length then { s1 with csp := { s1.csp with part := [] } } else s1
  else s

/-- A push into the TX FIFO; a full one discards it (R402). -/
def cspPush (s : State) (v : BitVec 32) : State :=
  if s.csp.tx.length < 64 then { s with csp := { s.csp with tx := s.csp.tx ++ [v] } } else s.raise Reg.CSP_STATUS 0x40#32

/-- A pop from the RX FIFO; an empty one returns 0 (R402). -/
def cspPop (s : State) : BitVec 32 × State :=
  match s.csp.rx with
  | w :: t => (w, { s with csp := { s.csp with rx := t } })
  | [] => (0#32, s.raise Reg.CSP_STATUS 0x40#32)

/-- The end of a sequence, once its data has moved (R404): BUSY clears and M_DONE is set. -/
def cspEnd (s : State) : State :=
  if cspBusy s && decide (s.csp.left = 0) then (s.setBit Reg.CSP_M_STATUS 16 false).raise Reg.CSP_STATUS 0x20#32 else s

/-- CSP_M_STATUS as read: the levels, BUSY, and PAUSED while data is still to move and a FIFO stops it (R403). -/
def cspMasterStatus (s : State) : BitVec 32 :=
  let paused := cspBusy s && decide (s.csp.left ≠ 0) && (if cspReads s then decide (s.csp.rx.length = 64) else s.csp.tx.isEmpty)
  BitVec.ofNat 32 (s.csp.tx.length + s.csp.rx.length * 256 + (if cspBusy s then 65536 else 0) + (if paused then 131072 else 0))

/-- A write of CSP_SL_CFG: YARD_EN cannot be cleared in SAFE (R408). It takes effect at the next assertion of CSP_SEL_N (R405). -/
def cspSlCfgWrite (s : State) (v : BitVec 32) : State :=
  s.setReg Reg.CSP_SL_CFG ((v &&& 0xFF#32) ||| (if s.bit Reg.BOOT_STATUS 7 then 8#32 else 0#32))

/-! ### The pins (R399, R401, R405) -/

/-- Whether the device is powered and out of reset: only then does the CSP drive or sense its pins (R399). -/
def cspLive (s : State) : Bool := decide (s.power.phase = .running) || decide (s.power.phase = .entering)

/-- The lanes that a sequence drives in its sending phases: command, address, mode bits and written data (R401). -/
def cspSendLanes (s : State) : Nat :=
  max (max (if cspCmdBits s = 0 then 0 else cspLanes s 0) (if cspAddrBits s = 0 then 0 else cspLanes s 4))
    (max (if s.bit Reg.CSP_M_PHASE 19 then cspLanes s 12 else 0) (if cspReads s || decide (cspLen s = 0) then 0 else cspLanes s 20))

/-- Whether the CSP drives pin 94 + `i`, at some time of its sequence in the master role: `i` is 0 for CSP_CLK, 1 to 8 for CSP_D0 to
CSP_D7 and 9 for CSP_SEL_N. In the slave role it drives CSP_D1 while selected, and CSP_CLK where it is the clock's source. -/
def cspDrives (s : State) (i : Nat) : Bool :=
  cspLive s &&
    if cspMaster s then decide (i = 0) || (cspBusy s && decide (1 ≤ i) && decide (i ≤ cspSendLanes s))
    else (decide (i = 2) && s.csp.sel) || (decide (i = 0) && s.csp.cfg.getLsbD 2)

/-- The level of CSP_CLK that the device gives to its slave role (R405): the idle level before the first word of a selection and outside
one; the clock then runs, and a word ends at its sampling edge, which rises where CPOL and CPHA are equal. -/
def slaveClock (s : State) : Bool :=
  let c := s.csp.cfg
  if s.csp.sel && s.csp.prev.isSome then c.getLsbD 0 == c.getLsbD 1 else c.getLsbD 0

/-- The level at which the CSP holds pin 94 + `i` between commands: CSP_CLK at its idle level, or as it runs for the slave role; the lanes of
a sequence as its last cycle drives them; and CSP_D1 of a selected slave at the first bit of the word that leaves next, with CPHA 1 still at
the last bit that left, before which its level is a free value. -/
def cspLevel (s : State) (i : Nat) : Option Bool :=
  if !cspDrives s i then none
  else if i = 0 then some (if cspMaster s then s.bit Reg.CSP_M_CFG 8 else slaveClock s)
  else if cspMaster s then s.csp.wire.getLast?.bind fun c => if c.drive.getLsbD (i - 1) then some (c.level.getLsbD (i - 1)) else none
  else if s.csp.cfg.getLsbD 1 then some (s.csp.prev.getD (Config.freePin 96))
  else some (s.csp.out.getLsbD 31)

end Sys2Proof.Machine
end

