-- ==== Sys2Proof/Machine/Gpio.lean ====
section
/-! DEFINITION. The GPIO block (R500), and the levels and edges of the multiplexed pins. -/
namespace Sys2Proof.Machine

/-- Whether TIME_OUT0 or TIME_OUT1 is pin `i`, held by its compare channel (R334). -/
def timeDrives (s : State) (i : Nat) : Bool := decide (i = 92 ∨ i = 93) && decide (resHolder s 0 i = fnTime)

/-- The level of pin `i`, whatever its holder. -/
def pinLevel (s : State) (i : Nat) : Bool :=
  if gpioDrives s i then s.bit (Reg.GPIO_CFG i) 2
  else if timeDrives s i then s.time.out.getLsbD (i - 92)
  else match (if 94 ≤ i ∧ i < 104 then cspLevel s (i - 94) else none) with
    | some b => b
    | none => extLevel s i

/-- Whether a pin that passes through the levels `l` shows an edge that the IRQ field `m` names (Table 21-13). -/
def edgeSeen (m : Nat) : List Bool → Bool
  | a :: b :: t => (a != b && (if b then decide (m % 2 = 1) else decide (2 ≤ m))) || edgeSeen m (b :: t)
  | _ => false

/-- The edge detector of pin `i` after it has passed through the levels `l`. -/
def pinPath (s : State) (i : Nat) (l : List Bool) : State :=
  let m := s.fld (Reg.GPIO_CFG i) 8 2
  if decide (m ≠ 0) && edgeSeen m l then s.raiseAt (Reg.GPIO_IRQ 0) i else s

/-- The edge detector of pin `i` after a change from level `old`. -/
def pinEdge (s : State) (i : Nat) (old : Bool) : State := pinPath s i [old, pinLevel s i]

/-- The levels of pins 32k to 32k + 31. -/
def gpioIn (s : State) (k : Nat) : BitVec 32 :=
  BitVec.ofNat 32 ((List.range 32).foldl (fun n j => if decide (32 * k + j < 124) && pinLevel s (32 * k + j) then n + 2 ^ j else n) 0)

/-- A write of GPIO_CFG(i) (R497, R500): EN claims the pin, and clearing it releases the pin. Where the claim is refused, EN reads 0 and
nothing else changes. -/
def gpioCfgWrite (s : State) (i : Nat) (v : BitVec 32) : State :=
  let r := if v.getLsbD 0 then claimAll s fnGpio [(0, i)] else (true, resRelease s 0 i fnGpio)
  if r.1 then pinEdge (r.2.setReg (Reg.GPIO_CFG i) (v &&& 0x3F7#32)) i (pinLevel s i) else r.2.setBit (Reg.GPIO_CFG i) 0 false

/-- Set OUT of the pins of bank `k` that `v` names to `b`. -/
def gpioOut (s : State) (k : Nat) (v : BitVec 32) (b : Bool) : State :=
  (List.range 32).foldl (fun u j =>
    if decide (32 * k + j < 124) && v.getLsbD j then
      pinEdge (u.setBit (Reg.GPIO_CFG (32 * k + j)) 2 b) (32 * k + j) (pinLevel u (32 * k + j))
    else u) s

/-- GPIO_EDGE: pin `i` is at a level; the outside drives it there, but where its own function does. -/
def gpioEdge (s : State) (i : Nat) (level : Bool) : State :=
  let b := BitVec.ofNat 128 (2 ^ i)
  let p := { s.power with pins := if level then s.power.pins ||| b else s.power.pins &&& ~~~b,
                          driven := if funcDrives s i then s.power.driven else s.power.driven ||| b }
  pinEdge { s with power := p } i (pinLevel s i)

/-- The clock cycles of the master role that a command added; `old` is the state before it. -/
def cspRan (old s : State) : List CspCycle :=
  if cspBusy old then s.csp.wire.drop old.csp.wire.length else if cspBusy s then s.csp.wire else []

/-- The bits of a word as they pass on a lane, the most significant first. -/
def wordBits (w : BitVec 32) : List Bool := (List.range 32).map fun k => w.getLsbD (31 - k)

/-- The levels that pin 94 + `i` passed through in a command of the CSP: its clock in each cycle, a lane as the master drove it, and in the
slave role CSP_D0 and CSP_D1 with the words `word` that came in and went out. `old` is the state before the command. -/
def cspPath (old s : State) (word : Option (BitVec 32 × BitVec 32)) (i : Nat) : List Bool :=
  let run := cspRan old s
  let clk := if cspMaster s then old.bit Reg.CSP_M_CFG 8 else old.csp.cfg.getLsbD 0
  let w := match word with
    | some x => if i = 0 then (List.replicate 32 [!clk, clk]).flatten else if i = 1 then wordBits x.1 else if i = 2 then wordBits x.2 else []
    | none => []
  let c := if i = 0 then run.flatMap fun _ => [!clk, clk]
    else run.map fun x => if x.drive.getLsbD (i - 1) then x.level.getLsbD (i - 1) else extLevel s (94 + i)
  pinLevel old (94 + i) :: (w ++ c ++ [pinLevel s (94 + i)])

/-- The edge detectors of the CSP's pins after a command of the CSP. -/
def cspMoved (old s : State) (word : Option (BitVec 32 × BitVec 32) := none) : State :=
  (List.range 9).foldl (fun u i => pinPath u (94 + i) (cspPath old s word i)) s

/-- GPIO_CFG_WRITE (R497). -/
def execGpioCfgWrite (i : Fin 124) (v : BitVec 32) (s : State) : Out := done (gpioCfgWrite s i.val v)

/-- SET (R500). -/
def execGpioSet (k : Fin 4) (v : BitVec 32) (s : State) : Out := done (gpioOut s k.val v true)

/-- CLR (R500). -/
def execGpioClr (k : Fin 4) (v : BitVec 32) (s : State) : Out := done (gpioOut s k.val v false)

end Sys2Proof.Machine
end

