-- ==== Sys2Proof/Machine/SafeLoad.lean ====
section
/-! DEFINITION. The safe-load controller: commits, groups, aborts and copy-back (chapter 10, R242 to R248). -/
namespace Sys2Proof.Machine

/-- Set numbers of Table 10-5 and R467. -/
def setBus : Nat := 24
def setFabric : Nat := 25
def setCascade : Nat := 26
def setTether (p : Nat) : Nat := 27 + p

/-- The safe-load record of set `k`. -/
def setAt (s : State) (k : Nat) : SetState := vget s.sets k SetState.zero

/-- Replace it. -/
def putSet (s : State) (k : Nat) (x : SetState) : State := { s with sets := vset s.sets k x }

/-- STAGE_BUSY of set `k`: from its commit until copy-back completes (R244). -/
def stageBusy (s : State) (k : Nat) : Bool := (setAt s k).committed || (setAt s k).copying

/-- Whether COMMIT and the SL_PEND bit of set `k` read 1 (R245). -/
def commitReads (s : State) (k : Nat) : Bool := (setAt s k).committed || (setAt s k).deferred

/-- The commit register of set `k`. -/
def commitReg (k : Nat) : Nat :=
  if k < 16 then Reg.RILL_COMMIT k else if k < 24 then Reg.BASIN_COMMIT (k - 16) else if k = 24 then Reg.RB_COMMIT
  else if k = 25 then Reg.FABRIC_COMMIT else if k = 26 then Reg.CASCADE_COMMIT else Reg.TETH_COMMIT (k - 27)

/-- Record a refusal that names set `k`, with the SL_STATUS flag bits `m`. -/
def slRefuse (s : State) (k : Nat) (m : BitVec 32) : State := (s.raise Reg.SL_STATUS m).setFld Reg.SL_STATUS 8 6 k

/-- A refused shadow write to a busy set (R244). -/
def stageReject (s : State) (k : Nat) : State := slRefuse s k 1#32

/-- Whether group `g`'s mask has the bit of set `k` (R246). -/
def groupHas (s : State) (g k : Nat) : Bool :=
  if k < 32 then s.bit (Reg.SL_GMASK_LO (g - 1)) k else s.bit (Reg.SL_GMASK_HI (g - 1)) (k - 32)

/-- Whether a mode change holds group `g`: from acceptance until the switch tick (R33). -/
def modeHolds (s : State) (g : BitVec 4) : Bool :=
  g ≠ 0#4 && decide (s.tick.seq.group = g) &&
    (match s.tick.seq.phase with
     | .accepted | .ready | .rampDown | .acquiring => true
     | _ => false)

/-- The mode a pending mode change names: armed in TICK_SWITCH, or accepted and not yet armed (R73). -/
def pendingMode (s : State) : Option (BitVec 3) :=
  if s.tick.pending then some s.tick.pendMode
  else if s.tick.seq.goal = .mode ∧ (s.tick.seq.phase = .accepted ∨ s.tick.seq.phase = .ready) then some s.tick.seq.mode
  else none

/-- Whether a rill selection of length `len` from page `page` is refused, given the modes it is tested against (R73). -/
def rillLenBad (s : State) (page len : Nat) : Bool :=
  decide (page = 3) || decide (3 < page + (len + 16383) / 16384)
    || (s.tick.entered && decide (s.c - 64 < len))
    || ((pendingMode s).any fun m => decide (modeC m - 64 < len))
    || (!s.tick.entered && (pendingMode s).isNone && decide (0 < len))

/-- Whether set `k` is shared and this device may not commit it (R475). -/
def sharedRefused (s : State) (k : Nat) : Bool :=
  (if k < 32 then s.bit Reg.TETH_SHARED_LO k else s.bit Reg.TETH_SHARED_HI (k - 32))
    && (s.bit Reg.TETH_STATUS 17 || !s.tether.commits)

/-- Whether the rill selection of set `k` is refused (R73). -/
def lenRefused (s : State) (k : Nat) : Bool :=
  decide (k < 16) && rillLenBad s (s.fld (Reg.RILL_PROG k) 16 2) (s.fld (Reg.RILL_PROG k) 0 16)

/-- What refuses the registration of a commit of set `k` with group `g`, as the state after the refusal; `sync` marks the
hardware commit of R476, which a shared set does not refuse (R478). LEN_REJECT is set whenever a condition of R73 holds, whatever
else refuses the commit. -/
def commitRefused (s : State) (k : Nat) (g : BitVec 4) (sync : Bool) : Option State :=
  let t := s.raiseIf (lenRefused s k) (Reg.RILL_STATUS k) 0x20#32
  if g ≠ 0#4 ∧ groupHas s g.toNat k = false then some (slRefuse t k 2#32)
  else if sharedRefused s k = true ∧ sync = false then some (t.raise Reg.TETH_STATUS 4#32)
  else if lenRefused s k then some t
  else none

/-- Register a commit of set `k` with group `g`, or refuse it (R245). -/
def registerCommit (s : State) (k : Nat) (g : BitVec 4) (sync : Bool) : State :=
  match commitRefused s k g sync with
  | some s1 => s1
  | none => putSet s k { setAt s k with committed := true, group := g }

/-- A write of 1 to COMMIT of set `k` with group `g` (R245): nothing while the set is committed, deferred while copy-back
runs, otherwise registered at once. -/
def commitWrite (s : State) (k : Nat) (g : BitVec 4) (sync : Bool) : State :=
  if commitReads s k then s
  else if (setAt s k).copying then putSet s k { setAt s k with deferred := true, deferredGroup := g, deferredSync := sync }
  else registerCommit s k g sync

/-- A commit command on one set: GROUP takes the value written with COMMIT, and the commit carries it (R245). -/
def commitCommand (s : State) (k : Nat) (g : BitVec 4) : State := commitWrite (s.setFld (commitReg k) 4 4 g.toNat) k g false

/-- Whether set `k` is eligible at a cutoff (R247); `switch` says that this frame tick is the switch tick. -/
def setEligible (s : State) (switch : Bool) (k : Nat) : Bool :=
  let x := setAt s k
  x.committed && (switch || !modeHolds s x.group) &&
    (decide (x.group = 0#4) ||
      groupHas s x.group.toNat k && (List.range 64).all fun i => !groupHas s x.group.toNat i || (decide (i < 29) && (setAt s i).committed && decide ((setAt s i).group = x.group)))

/-- The sets fixed at a cutoff. -/
def eligibleSets (s : State) (switch : Bool) : List Nat := (List.range 29).filter (setEligible s switch)

/-- Whether group `g` is complete: every set of its mask is committed with it (R34). Group 0 is always complete. -/
def groupComplete (s : State) (g : BitVec 4) : Bool :=
  decide (g = 0#4) ||
    (List.range 64).all fun i => !groupHas s g.toNat i || (decide (i < 29) && (setAt s i).committed && decide ((setAt s i).group = g))

/-- Whether REX shadows rill role `k`, so that the role's writes, commits and swaps reach it too (R453). -/
def rexShadows (s : State) (k : Nat) : Bool := decide (s.fld Reg.FAR_TARGET 4 2 ≠ 0) && decide (s.fld Reg.FAR_TARGET 0 4 = k)

/-- Whether BEX shadows basin role `k` (R454). -/
def bexShadows (s : State) (k : Nat) : Bool := decide (s.fld Reg.FAR_TARGET 12 2 ≠ 0) && decide (s.fld Reg.FAR_TARGET 8 3 = k)

/-- Apply `f` to the engine of rill role `k`, and to REX while it shadows that role. -/
def onRill (s : State) (k : Nat) (f : RillEngine → RillEngine) : State :=
  let s1 := { s with rill := vmod s.rill k f }
  if rexShadows s k then { s1 with rill := vmod s1.rill 16 f } else s1

/-- Apply `f` to the engine of basin role `k`, and to BEX while it shadows that role. -/
def onBasin (s : State) (k : Nat) (f : BasinEngine → BasinEngine) : State :=
  let s1 := { s with basin := vmod s.basin k f }
  if bexShadows s k then { s1 with basin := vmod s1.basin 8 f } else s1

/-- Copy-back of a tether port's set: its channel entries in force become the shadow. -/
def tetherCopyBack (s : State) (p : Nat) : State :=
  let e := vget s.tether.ports p TetherPort.zero
  let base := Reg.TETH_TXE p 0
  let r0 := Cells.keep (fun a => !(decide (base ≤ a) && decide (a < base + 0x1000))) s.regs
  let r1 := e.txA.foldl (fun r x => Cells.write regReset r (Reg.TETH_TXE p x.1) x.2) r0
  { s with regs := e.rxA.foldl (fun r x => Cells.write regReset r (Reg.TETH_RXE p x.1) x.2) r1 }

/-! ### ECC of the two copies (R104, R148, R228, R240)

The mark of a staged word in force stands at its window address, and that of the same word of the shadow `shadowKey` above it. -/

/-- The distance of a shadow word's mark from the mark of the word in force. -/
def shadowKey : Nat := 0x1000000

/-- The marks of the `n` words from `b` become those of the `n` words from `a`; `clear` clears the latter. -/
def moveMarks (s : State) (a b n : Nat) (clear : Bool) : State :=
  let inWin := fun w k => decide (w ≤ k) && decide (k < w + n)
  let kept := Cells.keep (fun k => !inWin b k && !(clear && inWin a k)) s.ecc
  { s with ecc := (s.ecc.filter fun e => inWin a e.1).foldl (fun m e => Cells.set m (e.1 - a + b) e.2) kept }

/-- The word-space regions (base, size) that set `k` holds in force: its own, and that of a spare that shadows it. -/
def setRegions (s : State) (k : Nat) : List (Nat × Nat) :=
  if k < 16 then (0x838000 + k * 0x40000, 0x8000) :: (if rexShadows s k then [(0xC38000, 0x8000)] else [])
  else if k < 24 then (0xC90000 + (k - 16) * 0x60000, 0x2100) :: (if bexShadows s (k - 16) then [(0xF90000, 0x2100)] else [])
  else if k = setBus then [(0xFD1800, 0x800)]
  else if k = setFabric then [(0xFA0000, 0x31800)]
  else if k = setCascade then [(0xFF0000, 0x8400)]
  else []

/-- A swap brings the shadow's words into force with their ECC. -/
def swapMarks (s : State) (k : Nat) : State :=
  (setRegions s k).foldl (fun t r => moveMarks t (shadowKey + r.1) r.1 r.2 false) s

/-- Copy-back copies each word with its ECC condition (DESIGN CHOICE, log entry 61). -/
def copyMarks (s : State) (k : Nat) : State :=
  (setRegions s k).foldl (fun t r => moveMarks t r.1 (shadowKey + r.1) r.2 false) s

/-- Copy-back of set `k`: the copy in force becomes the shadow (R93, R242). -/
def copyBack (s0 : State) (k : Nat) : State :=
  let s := copyMarks s0 k
  if k < 16 then onRill s k fun e => { e with stS := e.stA }
  else if k < 24 then onBasin s (k - 16) fun e => { e with stS := e.stA }
  else if k = 24 then { s with bus := { s.bus with stS := s.bus.stA } }
  else if k = 25 then { s with fabric := { s.fabric with stS := s.fabric.stA } }
  else if k = 26 then { s with cascade := { s.cascade with stS := s.cascade.stA } }
  else tetherCopyBack s (k - 27)

/-- Note in the COMMIT command in execution that set `k`, for which it waits, was refused, aborted, or swapped (R360). -/
def commitLeave (s : State) (k : Nat) (refused aborted : Bool) : State :=
  let b := BitVec.ofNat 64 (2 ^ k)
  match s.host.held with
  | some h =>
    if (h.live ||| h.late).getLsbD k then
      { s with host := { s.host with held := some { h with
        live := h.live &&& ~~~b, late := h.late &&& ~~~b, refused := if refused then h.refused ||| b else h.refused,
        frame := s.tick.frameCnt, aborted := h.aborted || aborted } } }
    else s
  | none => s

/-- Note that the deferred commit of set `k` was registered. -/
def commitJoin (s : State) (k : Nat) : State :=
  let b := BitVec.ofNat 64 (2 ^ k)
  match s.host.held with
  | some h =>
    if h.late.getLsbD k then { s with host := { s.host with held := some { h with late := h.late &&& ~~~b, live := h.live ||| b } } }
    else s
  | none => s

/-- Whether an abort of group `g` returns set `k` to the uncommitted state. -/
def abortHits (s : State) (g : BitVec 4) (k : Nat) : Bool :=
  let x := setAt s k
  (x.committed && decide (x.group = g)) || (x.deferred && decide (x.deferredGroup = g))

/-- Abort group `g`: every committed set of it returns to the uncommitted state; a set in copy-back stays busy until the copy
ends (R248). Group 0 aborts nothing. -/
def abortGroup (s : State) (g : BitVec 4) : State :=
  if g = 0#4 then s
  else (List.range 29).foldl (fun t k =>
    if abortHits t g k then commitLeave (putSet t k { setAt t k with committed := false, deferred := false }) k false true else t) s

/-- COPY_BACK_COMPLETE of set `k`: STAGE_BUSY clears, and a deferred commit is registered with its tests made now (R93,
R245). -/
def copyBackComplete (s : State) (k : Nat) : State :=
  let x := setAt s k
  if x.copying then
    let s1 := putSet (copyBack s k) k { x with copying := false, deferred := false }
    if x.deferred then
      let s2 := registerCommit s1 k x.deferredGroup x.deferredSync
      if (setAt s2 k).committed then commitJoin s2 k else commitLeave s2 k true false
    else s1
  else s

end Sys2Proof.Machine
end

