-- ==== Sys2Proof/Machine/FrameTable.lean ====
section
/-! DEFINITION. The frame table of a basin engine, its trough lists, and how each output trough's entries stood in a frame
(R131 to R137, R148). -/
namespace Sys2Proof.Machine

/-- The word-space base of basin engine `be`'s window (R147). -/
def basinWin (be : Nat) : Nat := 0xC40000 + be * 0x60000

/-- A staged word in force at offset `o` from 0x50000 of the window, and its ECC mark. -/
def basinStaged (s : State) (be o : Nat) : Word × BitVec 2 :=
  let m := s.mark (basinWin be + 0x50000 + o)
  (eccWord m (Cells.get (vget s.basin be BasinEngine.zero).stA o), m)

/-- A frame-table entry (Table 06-3). `bad` says that one of its words is uncorrectable. -/
structure FrameEntry where
  en : Bool
  pri : Nat
  entry : Nat
  pbase : Nat
  tcount : Nat
  tlist : Nat
  bad : Bool
  deriving DecidableEq, Repr

/-- Frame-table entry `i` in force in engine `be`, as stored; an entry with an uncorrectable word is marked. Its EN, TLIST and TCOUNT
as stored name the troughs that then follow R137 (DESIGN CHOICE, log entry 67: R148 does not say which they are). -/
def frameEntry (s : State) (be i : Nat) : FrameEntry :=
  let st := (vget s.basin be BasinEngine.zero).stA
  let w := fun k => Cells.get st (0x2000 + 4 * i + k)
  { en := (w 0).getLsbD 35, pri := ((w 0).extractLsb' 31 4).toNat, entry := ((w 0).extractLsb' 0 13).toNat,
    pbase := ((w 1).extractLsb' 0 13).toNat, tcount := min ((w 2).extractLsb' 13 6).toNat 32,
    tlist := ((w 2).extractLsb' 0 13).toNat,
    bad := (List.range 4).any fun k => decide (s.mark (basinWin be + 0x52000 + 4 * i + k) = 2#2) }

/-- The trough-list words of an entry in force (R132). A list that runs past the parameter store goes on at its start (DESIGN CHOICE,
log entry 66). -/
def troughList (s : State) (be : Nat) (e : FrameEntry) : List Word :=
  (List.range e.tcount).map fun k => (basinStaged s be ((e.tlist + k) % 8192)).1

/-- OUT and TROUGH of a trough-list word. -/
def tlOut (w : Word) : Bool := w.getLsbD 35
def tlTrough (w : Word) : Nat := (w.extractLsb' 0 10).toNat

/-- The output troughs an entry names. -/
def entryOutputs (s : State) (be : Nat) (e : FrameEntry) : List Nat :=
  ((troughList s be e).filter tlOut).map tlTrough

/-- How entry `i` of engine `be` stands in the frame in progress. -/
def entryStatus (s : State) (be i : Nat) : EntryStatus :=
  Cells.read (fun _ => .notRun) (vget s.basin be BasinEngine.zero).entries i

/-- Set how entry `i` stands. -/
def setEntryStatus (e : BasinEngine) (i : Nat) (x : EntryStatus) : BasinEngine :=
  { e with entries := Cells.write (fun _ => .notRun) e.entries i x }

/-- Whether basin engine `be` may run kernels: RUN in force, and the mode lets it (R149). -/
def basinRuns (s : State) (be : Nat) : Bool :=
  (vget s.basin be BasinEngine.zero).runA && s.tick.entered && !s.listen

/-- Whether entry `i` of engine `be` is dispatched in this frame: enabled, readable and below the shedding level (R133, R136,
R148). -/
def entryRuns (s : State) (be i : Nat) : Bool :=
  let e := frameEntry s be i
  basinRuns s be && e.en && !e.bad && decide (e.pri < (vget s.basin be BasinEngine.zero).shed.toNat)

/-- The entry that engine `be` dispatches next (R133). -/
def nextEntry (s : State) (be : Nat) : Option Nat :=
  (List.range 64).find? fun i => decide ((vget s.basin be BasinEngine.zero).nextEntry ≤ i) && entryRuns s be i

/-- Whether a basin engine idles: every entry that the frame dispatches has issued its stop (Table 06-9). -/
def basinIdle (s : State) (be : Nat) : Bool :=
  (vget s.basin be BasinEngine.zero).current.isNone && (nextEntry s be).isNone

/-- The (trough, completed) pairs of every enabled entry of every engine for the frame that ends (R41, R137, R209). -/
def troughVerdicts (s : State) : List (Nat × Bool) :=
  (List.range 8).flatMap fun be => (List.range 64).flatMap fun i =>
    let e := frameEntry s be i
    if e.en then (entryOutputs s be e).map fun t => (t, decide (entryStatus s be i = .completed) && !e.bad) else []

end Sys2Proof.Machine
end

