-- ==== Sys2Proof/Machine/Bus.lean ====
section
/-! DEFINITION. Troughs and the rill bus (chapter 09, R207 to R214). -/
namespace Sys2Proof.Machine

/-- The live state of trough `t`. -/
def troughLive (s : State) (t : Nat) : TroughLive := Cells.read troughIdle s.bus.troughs t

/-- Replace it. -/
def putTrough (s : State) (t : Nat) (x : TroughLive) : State :=
  { s with bus := { s.bus with troughs := Cells.write troughIdle s.bus.troughs t x } }

/-- EN, DIR, STALL and BASE of trough `t` in a trough table (Table 09-3). -/
def trEn (m : Cells Word) (t : Nat) : Bool := (Cells.get m (2 * t)).getLsbD 35
def trOut (m : Cells Word) (t : Nat) : Bool := (Cells.get m (2 * t)).getLsbD 34
def trStall (m : Cells Word) (t : Nat) : Nat := ((Cells.get m (2 * t)).extractLsb' 0 11).toNat
def trBase (m : Cells Word) (t : Nat) : Nat := ((Cells.get m (2 * t + 1)).extractLsb' 3 20).toNat * 8

/-- The word-space address of trough-table word `k`. -/
def troughAddr (k : Nat) : Nat := 0xFD1800 + k

/-- Whether an uncorrectable trough-table word makes trough `t` act unbound in this interval (R228). -/
def troughBad (s : State) (t : Nat) : Bool :=
  decide (s.mark (troughAddr (2 * t)) = 2#2) || decide (s.mark (troughAddr (2 * t + 1)) = 2#2)

/-- The yard word of slot 0 of image `ph` of trough `t` (R208). -/
def troughImage (s : State) (t : Nat) (ph : Bool) : Nat := trBase s.bus.stA t + (if ph then s.f else 0)

/-- The troughs a table may bind: those with a word listed. -/
def troughKeys (m : Cells Word) : List Nat := ((m.map fun e => e.1 / 2).eraseDups)

/-- The bound troughs, in number order. -/
def boundTroughs (s : State) : List Nat :=
  (s.bus.troughs.filter fun e => e.2.bound).map Prod.fst

/-- The trough state word (Table 09-5). -/
def troughStateWord (s : State) (t : Nat) : Word :=
  let x := troughLive s t
  if x.bound then
    let st := if trOut s.bus.stA t then (match x.play with | .normal => 0 | .hold => 1 | .fade => 2 | .silent => 3) else 0
    BitVec.ofNat 36 (2 ^ 35 + (if x.phase then 2 ^ 34 else 0) + st * 2 ^ 32 + (if x.first then 2 ^ 31 else 0)
      + troughImage s t x.phase % 2 ^ 23)
  else 0#36

/-- Clear EN of trough `t` in the copy in force: its binding was refused (R208). -/
def refuseTrough (s : State) (t : Nat) : State :=
  let s1 := putTrough s t (troughIdle 0)
  ({ s1 with bus := { s1.bus with stA := Cells.set s1.bus.stA (2 * t) (Cells.get s1.bus.stA (2 * t) &&& ~~~(BitVec.ofNat 36 (2 ^ 35))) } }).raise Reg.RB_STATUS 2#32

/-- Bring the trough table's shadow into force, before releases and claims: bindings past the yard's end are refused, and a
trough newly bound, or with DIR or BASE changed, restarts (R208, R212). `old` is the table in force before. -/
def swapTroughTable (s : State) (old : Cells Word) : State :=
  let s0 := { s with bus := { s.bus with stA := s.bus.stS } }
  (troughKeys old ++ troughKeys s.bus.stS).eraseDups.foldl (fun u t =>
    if trEn u.bus.stA t then
      if 0x7FFFFF < trBase u.bus.stA t + 255 then refuseTrough u t
      else
        let x := troughLive u t
        if x.bound && trOut old t = trOut u.bus.stA t && trBase old t = trBase u.bus.stA t then u
        else
          putTrough u t (if trOut u.bus.stA t then ⟨true, true, false, .silent, .zero, false, []⟩
            else ⟨true, true, false, .normal, .image, true, []⟩)
    else putTrough u t (troughIdle 0)) s0

/-- Release the claims of output troughs that the new table does not keep on the same stall (R203, R212). -/
def releaseTroughs (s : State) (old : Cells Word) : State :=
  (troughKeys old).foldl (fun u t =>
    if (troughLive u t).bound && trOut u.bus.stA t && decide (trStall u.bus.stA t = trStall old t) then u
    else releaseStall u (trStall old t) clsTrough t) s

/-- Claim the stalls of the output troughs in force, in number order; a refused claim unbinds the trough (R204, R208). -/
def claimTroughs (s : State) : State :=
  (boundTroughs s).foldl (fun u t =>
    if trOut u.bus.stA t then
      let r := claimStall u (trStall u.bus.stA t) clsTrough t
      if r.1 then r.2 else refuseTrough r.2 t
    else u) s

/-- The trough swap of one output trough (Table 02-10): `done` says that every entry that names it completed. -/
def playNext (x : TroughLive) (completed : Bool) : TroughLive :=
  if completed then
    match x.play with
    | .normal | .hold => { x with play := .normal, row := .image, phase := !x.phase }
    | .fade | .silent => { x with play := .normal, row := .fadeIn, phase := !x.phase }
  else
    match x.play with
    | .normal => { x with play := .hold, row := .image }
    | .hold => { x with play := .fade, row := .fadeOut }
    | .fade | .silent => { x with play := .silent, row := .zero }

/-- The trough swap at B - 16 (R209): `v` lists the (trough, completed) pairs of the frame that ended. A trough bound at this
tick's swap keeps its starting state. -/
def troughSwap (s : State) (v : List (Nat × Bool)) : State :=
  (boundTroughs s).foldl (fun u t =>
    let x := troughLive u t
    if x.fresh then putTrough u t { x with fresh := false }
    else if trOut u.bus.stA t then
      let named := v.filter fun e => e.1 = t
      if named.isEmpty then putTrough u t { x with play := .normal, row := .image, phase := !x.phase }
      else putTrough u t (playNext x (named.all fun e => e.2))
    else putTrough u t { x with phase := !x.phase, first := false }) s

/-- The clear at a switch tick, by state and not by yard writes (R213). -/
def troughClear (s : State) : State :=
  (boundTroughs s).foldl (fun u t =>
    putTrough u t (if trOut u.bus.stA t then ⟨true, false, false, .silent, .zero, false, []⟩
      else ⟨true, false, false, .normal, .image, true, []⟩)) s

/-- The trough reader in the interval of slot `j`: the word for the stall of output trough `t` (R211, Table 02-10), with the
yard's ECC event recorded. -/
def troughPlay (s : State) (t : Nat) : Word × State :=
  let x := troughLive s t
  if x.row = .zero then (0#36, s)
  else
    let r := yardFetch s (troughImage s t x.phase + s.tick.j)
    (match x.row with
     | .image => r.1
     | .fadeOut => scaleFrac r.1 (s.f - 1 - s.tick.j) s.f
     | .fadeIn => scaleFrac r.1 (s.tick.j + 1) s.f
     | .zero => 0#36, r.2.2)

/-- The trough writer: the word readable after interval `j` becomes slot `j` of image PHASE of input trough `t`. It is stored with its
row of 4 words, when the last of them is there (R210). -/
def troughCapture (s : State) (j t : Nat) : State :=
  let x := troughLive s t
  if x.bound && !trOut s.bus.stA t && !troughBad s t then
    let l := x.held ++ [(troughImage s t x.phase + j, stallRead s (trStall s.bus.stA t))]
    if j % 4 = 3 then l.foldl (fun u p => yardPut u p.1 p.2) (putTrough s t { x with held := [] })
    else putTrough s t { x with held := l }
  else s

end Sys2Proof.Machine
end

