-- ==== Sys2Proof/Machine/Elementary.lean ====
section
/-! DEFINITION. The elementary functions the spec names without an algorithm: 10^(-a/320) of a weir (R219), the sine and
cosine of a sluice fade (R223) and the twiddle words (R181). Each is computed in fixed point at 2^-128, far below the last
bit of the words it is rounded to (DEDUCED: the rounded real value is meant). -/
namespace Sys2Proof.Machine

/-- One in the fixed point of this file. -/
def fxOne : Nat := 2 ^ 128

/-- pi/2 in fixed point. -/
def fxHalfPi : Nat := 534514292032483373929840186580935391650

/-- 10^(-2^k/320) in fixed point, k = 0 to 10. -/
def fxTenth : List Nat := [
  337842626664204005178186332591699216594,
  335420378740599208269665377395723122829,
  330627859129200673162357817090412859464,
  321247269500029273187754601897292233961,
  303276978748657822899550441421518164876,
  270295891824109291145579130475474760267,
  214703658605870086391272545867690152718,
  135468850284141780009886148062294608998,
  53931120684755016115777734471805825701,
  8547506603506697024954894056085830463,
  214703658605870086391272545867690153]

/-- 10^(-a/320) in fixed point, for a below 2,048: the product of the powers its bits name. -/
def fxAtten (a : Nat) : Nat :=
  (fxTenth.zipIdx).foldl (fun acc p => if a.testBit p.2 then acc * p.1 / fxOne else acc) fxOne

/-- The alternating sum of a sine series: `t` is the current term, `q` the square of the angle, `k` its odd index. -/
def fxSinSum : Nat → Nat → Nat → Nat → Int
  | 0, _, _, _ => 0
  | n + 1, t, q, k => (t : Int) - fxSinSum n (t * q / fxOne / ((k + 1) * (k + 2))) q (k + 2)

/-- sin((pi/2) × num/den) in fixed point for 0 <= num <= den, exact at both ends. -/
def fxSin (num den : Nat) : Nat :=
  if num = 0 then 0
  else if den ≤ num then fxOne
  else
    let x := fxHalfPi * num / den
    (fxSinSum 26 x (x * x / fxOne) 1).toNat

/-- A weir's gain times a fade factor (in fixed point), rounded half even to s.35 (R219): MUTE gives 0, and a level of 0 at
the full factor gives 1 - 2^-35. -/
def weirGain (level : BitVec 12) (factor : Nat) (inv : Bool) : Int :=
  if level = 4095#12 then 0
  else
    let g := min (divHalfEven (fxAtten level.toNat * factor) (2 ^ 221)) (2 ^ 35 - 1)
    if inv then -g else g

/-- The factor of a fade at phase num/den: the phase itself under equal gain, the sine of its quarter turn under equal
power (R223). -/
def fadeFactor (power : Bool) (num den : Nat) : Nat :=
  if power then fxSin num den else if den ≤ num then fxOne else fxOne * num / den

/-- The phase (in 2^-64) whose equal-power factor is `v` (in fixed point), by bisection (R225). -/
def fxAsin (v : Nat) : Nat → Nat → Nat
  | 0, lo => lo
  | n + 1, lo => if fxSin (lo + 2 ^ n) (2 ^ 64) ≤ v then fxAsin v n (lo + 2 ^ n) else fxAsin v n lo

/-- cos(2 pi k / 4096) in units of 2^-17, rounded half even: -2^17 to 2^17 (R181). -/
def twiddleCos (k : Nat) : Int :=
  let k := k % 4096
  let v := fun (n : Nat) => divHalfEven (fxSin n 1024) (2 ^ 111)
  if k ≤ 1024 then v (1024 - k)
  else if k ≤ 2048 then - v (k - 1024)
  else if k ≤ 3072 then - v (3072 - k)
  else v (k - 3072)

/-- sin(2 pi k / 4096) in the same units. -/
def twiddleSin (k : Nat) : Int := twiddleCos (k + 3072)

/-- The twiddle word W[k] = e^(-2 pi j k / 4096): a half of +1 is held as 1 - 2^-17, and -1 is held as it is (R181). -/
def twiddle (k : Nat) : Word :=
  Word.ofHalves (BitVec.ofInt 18 (min (twiddleCos k) (2 ^ 17 - 1))) (BitVec.ofInt 18 (min (- twiddleSin k) (2 ^ 17 - 1)))

end Sys2Proof.Machine
end

