-- ==== Sys2Proof/Machine/Fabric.lean ====
section
/-! DEFINITION. The mix fabric: crosspoints, weirs and sluices (chapter 09, R215 to R228). -/
namespace Sys2Proof.Machine

/-- The live state of crosspoint `e`. -/
def xpAt (s : State) (e : Nat) : Crosspoint := Cells.read crosspointIdle s.fabric.xp e

/-- Replace it. -/
def putXp (s : State) (e : Nat) (x : Crosspoint) : State :=
  { s with fabric := { s.fabric with xp := Cells.write crosspointIdle s.fabric.xp e x } }

/-- The fields of crosspoint `e` in the copy in force (Table 09-6). -/
def xpWord (s : State) (e k : Nat) : Word := Cells.get s.fabric.stA (2 * e + k)
def xpInv (s : State) (e : Nat) : Bool := (xpWord s e 0).getLsbD 34
def xpGroup (s : State) (e : Nat) : Nat := ((xpWord s e 0).extractLsb' 0 12).toNat

/-- The route of crosspoint `e` in the copy in force: its source and destination when enabled (R223). -/
def xpRoute (s : State) (e : Nat) : Option (BitVec 11 × BitVec 11) :=
  let w := xpWord s e 0
  if w.getLsbD 35 then some (w.extractLsb' 23 11, w.extractLsb' 12 11) else none

/-- The weir step of crosspoint `e` in 1/16 dB (Table 09-7). -/
def xpStep (s : State) (e : Nat) : Nat :=
  let c := ((xpWord s e 1).extractLsb' 7 3).toNat
  if c = 1 then 4 else if c = 2 then 16 else if c = 3 then 32 else if c = 4 then 2 else 8

/-- The weir timeout of crosspoint `e` in samples (R220). -/
def xpTimeout (s : State) (e : Nat) : Nat :=
  let t := ((xpWord s e 1).extractLsb' 0 7).toNat
  msSamples (if t = 0 then 10 else min t 64) s.rate

/-- Whether an uncorrectable crosspoint word holds the entry in this interval (R228). -/
def xpBad (s : State) (e : Nat) : Bool :=
  decide (s.mark (0xFA0000 + 2 * e) = 2#2) || decide (s.mark (0xFA0000 + 2 * e + 1) = 2#2)

/-- ATTEN of the weir target of entry `e` in force (R219). -/
def weirTarget (s : State) (e : Nat) : BitVec 12 := (Cells.get s.fabric.stA (0x20000 + e)).extractLsb' 0 12

/-- The level a target stands for: 1,921 to 4,094 act as 1,920, and 4,095 is MUTE. -/
def weirLevel (a : BitVec 12) : BitVec 12 := if a = 4095#12 then a else if 1920 < a.toNat then 1920#12 else a

/-- The target that weir `e` takes in now: that of the copy in force, or its previous one where that word is uncorrectable (R228). -/
def weirGoal (s : State) (e : Nat) : BitVec 12 :=
  if s.mark (0xFC0000 + e) = 2#2 then (xpAt s e).taken else weirLevel (weirTarget s e)

/-- One step of a weir from `a` toward `t` by `d` (R220). -/
def weirStep (a t : BitVec 12) (d : Nat) : BitVec 12 :=
  if a = t then a
  else if a = 4095#12 then 1920#12
  else if t = 4095#12 then (if a = 1920#12 then 4095#12 else BitVec.ofNat 12 (min (a.toNat + d) 1920))
  else if a.toNat < t.toNat then BitVec.ofNat 12 (min (a.toNat + d) t.toNat)
  else BitVec.ofNat 12 (max (a.toNat - d) t.toNat)

/-- The fade a sluice group gives: its samples (0 for a hard cut), equal power, and whether a cut was denied (R222 to R224).
An uncorrectable group acts with USE 0. -/
def sluice (s : State) (g : Nat) : Nat × Bool × Bool :=
  let w := Cells.get s.fabric.stA (0x30000 + g)
  let std := (msSamples 10 s.rate, true)
  let len := min (w.extractLsb' 0 7).toNat 64
  if !w.getLsbD 9 || decide (s.mark (0xFD0000 + g) = 2#2) then (std.1, std.2, false)
  else if len = 0 then (if w.getLsbD 8 then (0, true, false) else (std.1, std.2, true))
  else (msSamples len s.rate, !w.getLsbD 7, false)

/-- The ECC event of the group word that a fade reads as it starts (R222, R228). -/
def sluiceEcc (s : State) (g : Nat) : State := s.eccEvent fabricSite (s.mark (0xFD0000 + g)) (0x30000 + g)

/-- The route a crosspoint is on its way to. -/
def xpAim (x : Crosspoint) : Option (BitVec 11 × BitVec 11) :=
  match x.fade with
  | some f => if f.out then f.next.map fun r => (r.1, r.2.1) else x.route
  | none => x.route

/-- The phase of a fade, restated under another shape: equal factors (R225; DEDUCED where the shape changes, log entry 56). It is taken
to 2^-64 on the side to which the fade goes on, so that it ends on the sample on which the exact phase would. -/
def fadePhase (f : Fade) (power out : Bool) : Nat × Nat :=
  if f.power = power ∨ f.num = 0 ∨ f.den ≤ f.num then (f.num, f.den)
  else
    let v := fadeFactor f.power f.num f.den
    let p := if power then fxAsin v 64 0 else v / 2 ^ 64
    (if out then p else p + 1, 2 ^ 64)

/-- A fade from the phase of `f`, in the direction `out`, at the rate of `n` samples for the whole course (R225). -/
def fadeFrom (f : Fade) (out : Bool) (n : Nat) (power : Bool) (next : Option (BitVec 11 × BitVec 11 × Nat × Bool)) : Fade :=
  let p := fadePhase f power out
  { out := out, num := p.1 * n, den := p.2 * n, step := p.2, power := power, next := next }

/-- A fade in from zero, or out from full, over `n` samples (R223). -/
def fadeNew (out : Bool) (n : Nat) (power : Bool) (next : Option (BitVec 11 × BitVec 11 × Nat × Bool)) : Fade :=
  { out := out, num := if out then n else 0, den := n, step := 1, power := power, next := next }

/-- The change of a crosspoint's route at a swap, over `n` samples, 0 for a hard cut (R223 to R225). -/
def xpChange (x : Crosspoint) (aim : Option (BitVec 11 × BitVec 11)) (n : Nat) (power : Bool) : Crosspoint :=
  if n = 0 then { x with route := aim, fade := none }
  else
    match x.fade, x.route, aim with
    | none, none, none => x
    | none, none, some r => { x with route := some r, fade := some (fadeNew false n power none) }
    | none, some _, none => { x with fade := some (fadeNew true n power none) }
    | none, some _, some r => { x with fade := some (fadeNew true n power (some (r.1, r.2, n, power))) }
    | some f, _, none => { x with fade := some (fadeFrom f true n power none) }
    | some f, cur, some r =>
      if f.out && f.next.isNone then
        if cur = some r then { x with fade := some (fadeFrom f false n power none) }
        else { x with fade := some { f with next := some (r.1, r.2, n, power) } }
      else { x with fade := some (fadeFrom f true n power (some (r.1, r.2, n, power))) }

/-- The crosspoints a table or the live store lists. -/
def xpKeys (s : State) (old : Cells Word) : List Nat :=
  let k := fun (m : Cells Word) => (m.filter fun e => decide (e.1 < 0x20000)).map fun e => e.1 / 2
  (k old ++ k s.fabric.stA ++ Cells.keys s.fabric.xp).eraseDups

/-- The swap of the fabric's set: its shadow comes into force, and every entry whose route changes starts its fade, or is cut
at once at a switch tick (R223 to R226). An entry newly enabled starts with its weir at its target (R221). -/
def swapFabric (s : State) (switch : Bool) : State :=
  let old := s.fabric.stA
  let s0 := { s with fabric := { s.fabric with stA := s.fabric.stS } }
  (xpKeys s0 old).foldl (fun u e =>
    let x := xpAt u e
    let aim := xpRoute u e
    if xpAim x = aim then u
    else
      let g := sluice u (xpGroup u e)
      let x1 := if (xpAim x).isNone && aim.isSome then { x with level := weirGoal u e, taken := weirGoal u e, timer := 0 } else x
      let u1 := if switch then u else (sluiceEcc u (xpGroup u e)).raiseIf g.2.2 Reg.FABRIC_STATUS 4#32
      putXp u1 e (xpChange x1 aim (if switch then 0 else g.1) g.2.1)) s0

/-- The buses the fabric must hold: those an enabled entry names, and those an entry fades out of (R216, R226). -/
def busesNeeded (s : State) : List Nat :=
  let en := (s.fabric.stA.filter fun e => decide (e.1 < 0x20000) && decide (e.1 % 2 = 0) && e.2.getLsbD 35).map
    fun e => (e.2.extractLsb' 12 11).toNat
  let fo := s.fabric.xp.filterMap fun e => match e.2.fade, e.2.route with
    | some _, some r => some r.2.toNat
    | _, _ => none
  (en ++ fo).eraseDups

/-- The buses the fabric holds. -/
def busesHeld (s : State) : List Nat :=
  (s.bus.claims.filter fun e => decide (claimCls e.2 = clsBus)).map Prod.fst

/-- Release every bus claim no longer needed (R203, R226). -/
def releaseBuses (s : State) : State :=
  let need := busesNeeded s
  (busesHeld s).foldl (fun u k => if need.contains k then u else releaseStall u k clsBus 0) s

/-- Claim the bus of every enabled entry, in stall order (R204, R216). -/
def claimBuses (s : State) : State :=
  let want := (List.range 2048).filter fun k => (s.fabric.stA.any fun e =>
    decide (e.1 < 0x20000) && decide (e.1 % 2 = 0) && e.2.getLsbD 35 && decide ((e.2.extractLsb' 12 11).toNat = k))
  want.foldl (fun u k =>
    let r := claimStall u k clsBus 0
    if r.1 then r.2 else r.2.raise Reg.FABRIC_STATUS 8#32) s

/-- At a frame tick every weir takes in a changed target (R220); an uncorrectable target word is not taken in (R228). At a
switch tick each moves to its target at once (R226). -/
def weirTakeIn (s : State) (switch : Bool) : State :=
  let keys := ((s.fabric.stA.filter fun e => decide (0x20000 ≤ e.1) && decide (e.1 < 0x30000)).map fun e => e.1 - 0x20000)
    ++ Cells.keys s.fabric.xp
    ++ ((s.ecc.filter fun e => decide (0xFC0000 ≤ e.1) && decide (e.1 < 0xFD0000)).map fun e => e.1 - 0xFC0000)
  keys.eraseDups.foldl (fun u e =>
    let x := xpAt u e
    let t := weirGoal u e
    let u1 := u.eccEvent fabricSite (u.mark (0xFC0000 + e)) (0x20000 + e)
    let x1 := if t = x.taken then x else { x with taken := t, timer := 0 }
    putXp u1 e (if switch then { x1 with level := t, timer := 0 } else x1)) s

/-- At a switch tick every fade in progress ends at its final factor (R226). -/
def endAllFades (s : State) : State :=
  (Cells.keys s.fabric.xp).foldl (fun u e =>
    let x := xpAt u e
    match x.fade with
    | some _ => putXp u e { x with route := xpAim x, fade := none }
    | none => u) s

/-! ### One interval -/

/-- A fade moved on by one sample. -/
def fadeStep (f : Fade) : Fade := { f with num := if f.out then f.num - f.step else min (f.num + f.step) f.den }

/-- Whether a fade has reached its end. -/
def fadeOver (f : Fade) : Bool := if f.out then decide (f.num = 0) else decide (f.num = f.den)

/-- The fade factor in force (R219). -/
def xpFactor (x : Crosspoint) : Nat :=
  match x.fade with
  | some f => fadeFactor f.power f.num f.den
  | none => fxOne

/-- The sign of a word, zero counting as positive (R220). -/
def wordNeg (w : Word) : Bool := w.getLsbD 35

/-- Whether stall `k` has another sign in this interval than in the one before (R220). -/
def stallCrosses (s : State) (k : Nat) : Bool := wordNeg (stallRead s k) != wordNeg (Cells.get s.bus.prev k)

/-- Whether crosspoint `e` runs in this interval (R215). -/
def xpRuns (s : State) (e : Nat) : Bool := decide (e < s.fabricLimit) && !xpBad s e

/-- The contribution of crosspoint `e` to stall `k`, as the product added to the sum. -/
def xpTerm (s : State) (k : Nat) (e : Nat) (x : Crosspoint) : Option Int :=
  match x.route with
  | some r =>
    if xpRuns s e && decide (r.2.toNat = k) then
      some (weirGain x.level (xpFactor x) (xpInv s e) * (stallRead s r.1.toNat).toInt * 2)
    else none
  | none => none

/-- The clamp-mode sum of bus `k` (R215), and whether it overflowed its guard. -/
def busSum (s : State) (k : Nat) : AccReg × Bool :=
  s.fabric.xp.foldl (fun r e => match xpTerm s k e.1 e.2 with
    | some t => let a := accReal false true r.1 t; (a.1, r.2 || a.2)
    | none => r) (⟨0#80, false, false⟩, false)

/-- Write one bus: the sum stored with the stall's bus-table conversion (R215, R227, R228). Dither on a bus is a free value,
since R61 gives the fabric no LFSR. -/
def busWrite (s : State) (k : Nat) : State :=
  let m := s.mark (0xFD1000 + k)
  let w := if m = 2#2 then 0#36 else Cells.get s.fabric.stA (0x31000 + k)
  let s0 := s.eccEvent fabricSite m (0x31000 + k)
  let a := busSum s0 k
  let rs := w.extractLsb' 3 2
  let fv := if rs = 2#2 then s0.takeFree else (0, s0)
  let st := storeReal a.1.val (w.extractLsb' 0 3) rs (Config.freeDither fv.1)
  let s1 := (fv.2.raiseIf a.2 Reg.FABRIC_STATUS 1#32).raiseIf st.sat Reg.FABRIC_STATUS 2#32
  stallWrite { s1 with fabric := { s1.fabric with govFrame := s1.fabric.govFrame || a.2 } } k clsBus 0 st.w

/-- Move the fades of the running entries on by one sample (R223). -/
def fadesAdvance (s : State) : State :=
  (Cells.keys s.fabric.xp).foldl (fun u e =>
    let x := xpAt u e
    match x.fade with
    | some f => if xpRuns u e then putXp u e { x with fade := some (fadeStep f) } else u
    | none => u) s

/-- After an interval: the weirs' timers, and no weir has stepped in the next one (R220). -/
def weirsAdvance (s : State) : State :=
  (Cells.keys s.fabric.xp).foldl (fun u e =>
    let x := xpAt u e
    match x.route with
    | some _ => if xpRuns u e then putXp u e { x with timer := x.timer + 1, stepped := false } else u
    | none => u) s

/-- ECC events of the crosspoint words the interval reads (R228). -/
def xpEcc (s : State) : State :=
  (s.ecc.filter fun e => decide (0xFA0000 ≤ e.1) && decide (e.1 < 0xFA0000 + 2 * s.fabricLimit)).foldl
    (fun u e => u.eccEvent fabricSite e.2 (e.1 - 0xFA0000)) s

/-- FABRIC_FADES after an interval: the entries fading in it. -/
def fadesCount (s : State) : State := s.setReg Reg.FABRIC_FADES (BitVec.ofNat 32 (s.fabric.xp.countP fun e => e.2.fade.isSome))

/-- The fabric in one interval (R215 to R217): off in LISTEN and before the first mode. -/
def fabricRun (s : State) : State :=
  if s.fabricLimit = 0 then fadesCount s
  else
    let s1 := fadesAdvance (xpEcc s)
    let s2 := (busesHeld s1).foldl busWrite s1
    let s3 := weirsAdvance s2
    let skip := s3.fabric.stA.any fun e => decide (2 * s3.fabricLimit ≤ e.1) && decide (e.1 < 0x20000) && decide (e.1 % 2 = 0) && e.2.getLsbD 35
    fadesCount (s3.raiseIf skip Reg.FABRIC_STATUS 0x10#32)

/-- The weir level word of entry `e` (R221): the level, and the fade factor in force as s.35 truncated to 18 bits. -/
def weirLevelWord (s : State) (e : Nat) : Word :=
  let x := xpAt s e
  let f := if x.route.isNone then 0 else min (xpFactor x / 2 ^ 93) (2 ^ 35 - 1)
  BitVec.ofNat 36 (f / 2 ^ 18 * 2 ^ 18 + x.level.toNat)

/-! ### Commands -/

/-- The effect of WEIR_STEP on entry `e`: at a sign change of its source, or when its timeout has elapsed, a running weir away
from its target steps (R220, R221). -/
def weirStepCommand (s : State) (e : Nat) : State :=
  let x := xpAt s e
  match x.route with
  | none => s
  | some r =>
    let t := weirLevel x.taken
    if xpRuns s e && decide (x.level ≠ t) && ((stallCrosses s r.1.toNat && !x.stepped) || decide (xpTimeout s e ≤ x.timer)) then
      putXp s e { x with level := weirStep x.level t (xpStep s e), timer := 0, stepped := true }
    else s

/-- The effect of FADE_END on entry `e`: a fade at its end is over; a dip's second half starts (R223). -/
def fadeEnd (s : State) (e : Nat) : State :=
  let x := xpAt s e
  match x.fade with
  | none => s
  | some f =>
    if fadeOver f then
      if f.out then
        match f.next with
        | some r => putXp s e { x with route := some (r.1, r.2.1), fade := some (fadeNew false r.2.2.1 r.2.2.2 none) }
        | none => putXp s e { x with route := none, fade := none }
      else putXp s e { x with fade := none }
    else s

/-- WEIR_STEP (R220). -/
def execWeirStep (e : Fin 65536) (s : State) : Out := done (weirStepCommand s e.val)

/-- FADE_END (R223). -/
def execFadeEnd (e : Fin 65536) (s : State) : Out := done (fadeEnd s e.val)

end Sys2Proof.Machine
end

