-- ==== Sys2Proof/Machine/Cascade.lean ====
section
/-! DEFINITION. The cascade unit: biquad sections and chains (chapter 10, R232 to R241). -/
namespace Sys2Proof.Machine

/-- A chain (Table 10-3). -/
structure Chain where
  en : Bool
  src : Nat
  dst : Nat
  first : Nat
  count : Nat
  deriving DecidableEq, Repr

/-- Chain `c` of a chain table. -/
def chainOf (m : Cells Word) (c : Nat) : Chain :=
  let w := Cells.get m (0x8000 + 2 * c)
  { en := w.getLsbD 35, src := (w.extractLsb' 23 11).toNat, dst := (w.extractLsb' 12 11).toNat,
    first := (w.extractLsb' 0 12).toNat, count := ((Cells.get m (0x8001 + 2 * c)).extractLsb' 0 7).toNat }

/-- The chains a table lists. -/
def chainKeys (m : Cells Word) : List Nat :=
  ((m.filter fun e => decide (0x8000 ≤ e.1)).map fun e => (e.1 - 0x8000) / 2).eraseDups

/-- Whether chain `x` includes section `i`. -/
def Chain.has (x : Chain) (i : Nat) : Bool := decide (x.first ≤ i) && decide (i < x.first + x.count)

/-- Clear EN of chain `c` in the copy in force. -/
def chainOff (s : State) (c : Nat) : State :=
  { s with cascade := { s.cascade with
    stA := Cells.set s.cascade.stA (0x8000 + 2 * c) (Cells.get s.cascade.stA (0x8000 + 2 * c) &&& ~~~(BitVec.ofNat 36 (2 ^ 35))) } }

/-- Load a written seed at a swap (R88). -/
def seedLoad (written : Bool) (seed l : BitVec 32) : BitVec 32 := if written then lfsrSeed seed else l

/-- The swap of the cascade set: its shadow comes into force, and a written seed loads (R241). -/
def swapCascade (s : State) : State :=
  { s with cascade := { s.cascade with
    stA := s.cascade.stS, lfsr := seedLoad (setAt s setCascade).seed (s.reg Reg.CASCADE_NOISE_SEED) s.cascade.lfsr } }

/-- Whether chain `x` names no sections that a chain may have (R237). -/
def Chain.badShape (x : Chain) : Bool := decide (x.count = 0) || decide (64 < x.count) || decide (4096 < x.first + x.count)

/-- Release the claims of chains that the new copy does not keep on the same stall, among them the chains refused for their own COUNT
and FIRST (R203, R204, R237). -/
def releaseChains (s : State) (old : Cells Word) : State :=
  (chainKeys old).foldl (fun u c =>
    let n := chainOf u.cascade.stA c
    if n.en && !n.badShape && decide (n.dst = (chainOf old c).dst) then u else releaseStall u (chainOf old c).dst clsChain c) s

/-- Whether chain `x` may not come into force beside the lower-numbered chains `low` (R237). -/
def chainBad (x : Chain) (low : List Chain) : Bool :=
  x.badShape || low.any fun y => decide (x.first < y.first + y.count) && decide (y.first < x.first + x.count)

/-- Words stored anew in the state of the sections that `p` names have fresh ECC (R240). -/
def freshSections (s : State) (p : Nat → Bool) : State :=
  { s with ecc := Cells.keep (fun a => !(decide (0xFFC000 ≤ a) && decide (a < 0x1000000) && p ((a - 0xFFC000) / 4))) s.ecc }

/-- Clear the state of every section that chain `c` includes now and did not include in the old copy (R239). -/
def chainClear (s : State) (c : Nat) (old : Cells Word) : State :=
  let n := chainOf s.cascade.stA c
  let o := chainOf old c
  let keep := fun i => !n.has i || (o.en && o.has i)
  let t := freshSections s fun i => !keep i
  { t with cascade := { s.cascade with
    hist := Cells.keep (fun a => keep (a / 4)) s.cascade.hist, resid := Cells.keep keep s.cascade.resid } }

/-- Bring the enabled chains into force in number order, with their refusals (R204, R237). The claim of a chain refused for an overlap is
released in the chain's turn (DESIGN CHOICE, log entry 59). -/
def claimChains (s : State) (old : Cells Word) : State :=
  ((chainKeys s.cascade.stA).foldl (fun (r : State × List Chain) c =>
    let x := chainOf r.1.cascade.stA c
    if !x.en then r
    else if chainBad x r.2 then
      ((releaseStall (chainOff r.1 c) x.dst clsChain c).raise Reg.CASCADE_STATUS 8#32, r.2)
    else
      let k := claimStall r.1 x.dst clsChain c
      if k.1 then (chainClear k.2 c old, r.2 ++ [x]) else ((chainOff k.2 c).raise Reg.CASCADE_STATUS 4#32, r.2)) (s, [])).1

/-- Every section's state is cleared at a switch tick (R239). -/
def cascadeClear (s : State) : State :=
  let t := freshSections s fun _ => true
  { t with cascade := { s.cascade with hist := [], resid := [] } }

/-- Word `k` of section `i`'s slot in force, and its ECC mark (Table 10-1). -/
def sectWord (s : State) (i k : Nat) : Word × BitVec 2 :=
  let m := s.mark (0xFF0000 + 8 * i + k)
  (eccWord m (Cells.get s.cascade.stA (8 * i + k)), m)

/-- State word `k` of section `i`; an uncorrectable word reads zero (R240). -/
def sectHist (s : State) (i k : Nat) : Word × BitVec 2 :=
  let m := s.mark (0xFFC000 + 4 * i + k)
  (eccWord m (Cells.get s.cascade.hist (4 * i + k)), m)

/-- The residue of a section's previous store. -/
def sectResid (s : State) (i : Nat) : Int := Cells.read (fun _ => 0) s.cascade.resid i

/-- Run section `i` on input `x` (R232 to R235): its output, and the state. -/
def sectionRun (s : State) (i : Nat) (x : Word) : Word × State :=
  let b := fun k => sectWord s i k
  let h := fun k => sectHist s i k
  let s0 := s.eccEvents cascadeSite
    (((List.range 6).map fun k => ((b k).2, 8 * i + k)) ++ ((List.range 4).map fun k => ((h k).2, 0xC000 + 4 * i + k)))
  if (List.range 6).any fun k => decide ((b k).2 = 2#2) then (x, s0)
  else
    let ctl := (b 5).1
    let k := (ctl.extractLsb' 0 3).toNat
    let rs := ctl.extractLsb' 3 2
    let ef := ctl.extractLsb' 5 2
    let p := ((b 0).1.toInt * x.toInt + (b 1).1.toInt * (h 0).1.toInt + (b 2).1.toInt * (h 1).1.toInt
      - (b 3).1.toInt * (h 2).1.toInt - (b 4).1.toInt * (h 3).1.toInt) * 8
    let r := sectResid s i
    let f := if ef = 1#2 then r else if ef = 2#2 then -r else 0
    let st := storeRealInt (p * 2 ^ k + f) 0 rs s.cascade.lfsr
    let y := st.w
    let s1 := freshSections s0 fun j => decide (j = i)
    (y, { s1 with cascade := { s0.cascade with
      hist := Cells.setAll s0.cascade.hist (4 * i) [x, (h 0).1, y, (h 2).1],
      resid := Cells.write (fun _ => 0) s0.cascade.resid i (if st.sat then 0 else st.residue),
      lfsr := if rs = 2#2 then lfsrNext s0.cascade.lfsr else s0.cascade.lfsr } }.raiseIf st.sat Reg.CASCADE_STATUS 2#32)

/-- Run the `n` sections from `i` on, each on the output of the one before (R236). -/
def sectionsRun (s : State) (i : Nat) (x : Word) : Nat → Word × State
  | 0 => (x, s)
  | n + 1 => let r := sectionRun s i x; sectionsRun r.2 (i + 1) r.1 n

/-- Run chain `c` in one interval and write its stall (R236, R238, R240). -/
def chainRun (s : State) (c : Nat) : State :=
  let x := chainOf s.cascade.stA c
  let m0 := s.mark (0xFF8000 + 2 * c)
  let m1 := s.mark (0xFF8001 + 2 * c)
  let s0 := s.eccEvents cascadeSite [(m0, 0x8000 + 2 * c), (m1, 0x8001 + 2 * c)]
  if m0 = 2#2 ∨ m1 = 2#2 then stallWrite s0 x.dst clsChain c 0#36
  else if s.cascadeLimit ≤ x.first + x.count - 1 then stallWrite (s0.raise Reg.CASCADE_STATUS 0x10#32) x.dst clsChain c 0#36
  else
    let r := sectionsRun s0 x.first (stallRead s x.src) x.count
    stallWrite r.2 x.dst clsChain c r.1

/-- The cascade unit in one interval: every enabled chain that holds its stall, in number order; off in LISTEN (R238). -/
def cascadeRun (s : State) : State :=
  if s.cascadeLimit = 0 then s
  else (chainKeys s.cascade.stA).foldl (fun u c =>
    let x := chainOf u.cascade.stA c
    if x.en && holdsStall u x.dst clsChain c then chainRun u c else u) s

end Sys2Proof.Machine
end

