-- ==== Sys2Proof/Machine/Ports.lean ====
section
/-! DEFINITION. The microphone, analog and TDM ports (chapter 11). -/
namespace Sys2Proof.Machine

/-- CORE_SRC: 0 stopped, 1 media PLL, 2 UTIL, 3 UTIL / 4 (R292). -/
def coreSrc (s : State) : Nat := s.fld Reg.CLK_STATUS 0 2

/-- MPLL_STATE of CLK_STATUS: 0 OFF, 1 ACQUIRE, 2 LOCKED, 3 HOLDOVER, 4 FAIL. -/
def mpllState (s : State) : Nat := s.fld Reg.CLK_STATUS 2 3

/-- Whether CORE runs on UTIL between the boundary at which it left the media PLL and the switch tick at which it returns (R20, R293). -/
def onUtil (s : State) : Bool := s.tick.entered && decide (coreSrc s = 2)

/-- Whether the media PLL acquires: a switch of CORE to UTIL is requested or made, and CORE has not returned (R20, R285). -/
def acquiring (s : State) : Bool := onUtil s || (s.tick.entered && s.bit Reg.CLK_STATUS 9)

/-- Whether an acquisition has started and CORE has not come to run from the media PLL: also with CORE stopped before the first mode, and
in LISTEN (R36, R344, R369). -/
def pllAway (s : State) : Bool := decide (coreSrc s ≠ 1) && (decide (mpllState s = 1) || decide (mpllState s = 2))

/-- Whether the ports that need the media clock run: sample ticks are raised, CORE is not on UTIL (Table 11-5). -/
def mediaRuns (s : State) : Bool := s.tick.entered && decide (coreSrc s ≠ 0) && !acquiring s

/-- The word of a list keyed by port or channel number. -/
def givenWord {n : Nat} (l : List (Fin n × BitVec 36)) (k : Nat) : Option (BitVec 36) :=
  (l.find? fun e => decide (e.1.val = k)).map Prod.snd

/-! ### PDM (R250 to R256) -/

/-- Whether clock output `k` runs: enabled, ticks raised, and in LISTEN only output 0 (R251, R256). -/
def pdmClock (s : State) (k : Nat) : Bool := s.bit Reg.PDM_CLK_EN k && mediaRuns s && (!s.listen || decide (k = 0))

/-- The running clock outputs, as bits. -/
def pdmClocks (s : State) : BitVec 8 := BitVec.ofNat 8 ((List.range 8).foldl (fun n k => if pdmClock s k then n + 2 ^ k else n) 0)

/-- After a change that can start or stop clocks: every microphone of a clock that starts settles anew (R252). -/
def pdmRefresh (s : State) : State :=
  let now := pdmClocks s
  let start := (List.range 128).foldl (fun (x : BitVec 128) m =>
    if now.getLsbD (m / 16) && !s.ports.pdmRun.getLsbD (m / 16) then x ||| BitVec.ofNat 128 (2 ^ m) else x) 0#128
  { s with ports := { s.ports with pdmRun := now, pdmSettle := s.ports.pdmSettle ||| start } }

/-- Whether microphone `m` is set in a bank of PDM_EN registers. -/
def pdmWanted (s : State) (m : Nat) : Bool := s.flagAt (Reg.PDM_EN 0) m

/-- Take microphone `m` into service at a frame tick (R252): claim its pin and stall, or clear the bit and record why. In LISTEN a
microphone in service stays so, without being decimated (R256). -/
def pdmApply (s : State) (m : Nat) : State :=
  let b := BitVec.ofNat 128 (2 ^ m)
  if pdmWanted s m && !s.ports.pdmOn.getLsbD m then
    if !pdmClock s (m / 16) then (s.lowerAt (Reg.PDM_EN 0) m).raise Reg.PDM_STATUS 2#32
    else
      let r := claimAll s fnPdm [(0, m / 2)]
      if r.1 then
        let k := claimStall r.2 m clsPort fnPdm
        if k.1 then { k.2 with ports := { k.2.ports with
          pdmOn := k.2.ports.pdmOn ||| b, pdmSettle := k.2.ports.pdmSettle ||| b,
          pdmMuted := k.2.ports.pdmMuted &&& ~~~b, pdmMuting := k.2.ports.pdmMuting &&& ~~~b } }
        else (if k.2.ports.pdmOn.getLsbD (m ^^^ 1) then k.2 else resRelease k.2 0 (m / 2) fnPdm).lowerAt (Reg.PDM_EN 0) m
      else r.2.lowerAt (Reg.PDM_EN 0) m
  else s

/-- Take microphone `m` out of service at a frame tick, when its enable is cleared. -/
def pdmRetire (s : State) (m : Nat) : State :=
  if !pdmWanted s m && s.ports.pdmOn.getLsbD m then
    let s1 := releaseStall { s with ports := { s.ports with pdmOn := s.ports.pdmOn &&& ~~~(BitVec.ofNat 128 (2 ^ m)) } } m clsPort fnPdm
    if s1.ports.pdmOn.getLsbD (m ^^^ 1) then s1 else resRelease s1 0 (m / 2) fnPdm
  else s

/-- A window in ms from PDM_CFG, 0 meaning 20 ms, in samples. -/
def pdmWindow (s : State) (lo : Nat) : Nat :=
  let v := s.fld Reg.PDM_CFG lo 8
  msSamples (if v = 0 then 20 else v) s.rate

/-- The frame-tick work of the PDM block after the releases: claims, trims taken in (R254), stuck microphones resumed (R255). -/
def pdmFrame (s : State) : State :=
  let s1 := (List.range 128).foldl pdmApply s
  let s2 := { s1 with ports := { s1.ports with
    pdmTrim := (List.range 128).foldl (fun c m => Cells.set c m ((s1.reg (Reg.PDM_TRIM m)).extractLsb' 0 9)) [] } }
  (List.range 128).foldl (fun u m =>
    if u.ports.pdmMuted.getLsbD m && decide (pdmWindow u 8 ≤ Cells.read (fun _ => 0) u.ports.pdmClean m) then
      { u with ports := { u.ports with pdmMuted := u.ports.pdmMuted &&& ~~~(BitVec.ofNat 128 (2 ^ m)) } }
    else u) s2

/-- The trim product: gain 10^(t/320), rounded half even and saturated (Table 11-3). -/
def pdmTrimmed (t : BitVec 9) (w : Word) : Word × Bool :=
  if t = 0#9 then (w, false)
  else if t.toInt < 0 then satWord (divHalfEven (w.toInt * fxAtten t.toInt.natAbs) fxOne)
  else satWord (divHalfEven (w.toInt * fxOne) (fxAtten t.toInt.natAbs))

/-- The intervals after which a repeated pattern is DC for the whole chain: twice its delay of 18 samples, and one (DESIGN CHOICE, log
entry 84). -/
def pdmMemory : Nat := 37

/-- The pattern of 16 bits that 64 captured bits repeat, the span of one CIC output, if they do. -/
def pdmPattern (b : BitVec 64) : Option (BitVec 16) :=
  let p := b.extractLsb' 0 16
  if b = p ++ p ++ p ++ p then some p else none

/-- The pattern microphone `m` repeats, and for how many intervals, after an interval with bits `b`. -/
def pdmHeld (s : State) (m : Nat) (b : Option (BitVec 64)) : BitVec 16 × Nat :=
  let old := Cells.read (fun _ => (0#16, 0)) s.ports.pdmHold m
  match b.bind pdmPattern with
  | some p => (p, if p = old.1 then min pdmMemory (old.2 + 1) else 1)
  | none => (0#16, 0)

/-- The word that the chain gives at DC for a pattern: 2d - 1 for its fraction d of ones, held within s.35 (R253, R254). -/
def pdmDc (p : BitVec 16) : Word := (satWord ((2 * (((List.range 16).countP fun k => p.getLsbD k) : Int) - 16) * 2 ^ 31)).1

/-- The word of a free value that the caller takes. -/
def freeWord (s : State) (f : Nat → Word) : Word × State := let x := s.takeFree; (f x.1, x.2)

/-- A word through a DC blocker with corner field `corner`; 0 passes it on. -/
def dcBlock (s : State) (corner : Nat) (w : Word) : Word × State := if corner = 0 then (w, s) else freeWord s fun n => Config.freeBlocker n corner w

/-- The word of decimator `m`'s chain before its trim, after an interval with bits `b` (R253): exact at DC, else as given or free. -/
def pdmChain (x : SampleInput) (s : State) (m : Nat) : Word × State :=
  let h := Cells.read (fun _ => (0#16, 0)) s.ports.pdmHold m
  let v := if h.2 = pdmMemory then (pdmDc h.1, s) else
    match givenWord x.pdm m with
    | some w => (w, s)
    | none => freeWord s Config.freePdm
  dcBlock v.2 (s.fld Reg.PDM_CFG 17 2) v.1

/-- The word of decimator `m` in one interval (R252 to R255): zero while it settles or is muted as stuck, else the chain's
word trimmed. -/
def pdmSample (x : SampleInput) (s : State) (m : Nat) : State :=
  if !s.ports.pdmOn.getLsbD m || !pdmClock s (m / 16) || (s.listen && decide (1 < m)) then s
  else
    let bits := (x.bits.find? fun e => decide (e.1.val = m)).map Prod.snd
    let moved := x.edges.getLsbD m || bits.any fun b => decide (b ≠ 0#64) && decide (b ≠ BitVec.allOnes 64)
    let clean := if moved then Cells.read (fun _ => 0) s.ports.pdmClean m + 1 else 0
    let s1 := { s with ports := { s.ports with
      pdmClean := Cells.write (fun _ => 0) s.ports.pdmClean m clean
      pdmHold := Cells.write (fun _ => (0#16, 0)) s.ports.pdmHold m (pdmHeld s m bits) } }
    if s1.ports.pdmSettle.getLsbD m || s1.ports.pdmMuted.getLsbD m then portWrite s1 m 0#36
    else
      let v := pdmChain x s1 m
      let t := pdmTrimmed (Cells.get v.2.ports.pdmTrim m) v.1
      let s2 := if t.2 then (v.2.raise Reg.PDM_STATUS 1#32).count Reg.PDM_SAT_COUNT 0 32 1 else v.2
      portWrite s2 m t.1

/-- At a boundary the microphones found stuck in the interval are muted (R255). -/
def pdmBoundary (s : State) : State :=
  { s with ports := { s.ports with pdmMuted := s.ports.pdmMuted ||| s.ports.pdmMuting, pdmMuting := 0#128 } }

/-- PDM_SETTLE_END (R252). -/
def execPdmSettleEnd (m : Fin 128) (s : State) : Out :=
  done { s with ports := { s.ports with pdmSettle := s.ports.pdmSettle &&& ~~~(BitVec.ofNat 128 (2 ^ m.val)) } }

/-- A microphone found stuck; STUCK_MUTE mutes it from the next interval (R255). -/
def pdmStuck (s : State) (m : Nat) : State :=
  if s.ports.pdmOn.getLsbD m && !s.ports.pdmSettle.getLsbD m then
    let s1 := s.raiseAt (Reg.PDM_STUCK 0) m
    if s1.bit Reg.PDM_CFG 16 then
      { s1 with ports := { s1.ports with
        pdmMuting := s1.ports.pdmMuting ||| BitVec.ofNat 128 (2 ^ m), pdmClean := Cells.write (fun _ => 0) s1.ports.pdmClean m 0 } }
    else s1
  else s

/-- PDM_STUCK (R255). -/
def execPdmStuck (m : Fin 128) (s : State) : Out := done (pdmStuck s m.val)

/-- The effect of a write of PDM_CLK_EN: each newly set bit claims its clock pin, or reads 0 (R251). -/
def pdmClkWrite (s : State) (v : BitVec 32) : State :=
  pdmRefresh ((List.range 8).foldl (fun u k =>
    let was := u.bit Reg.PDM_CLK_EN k
    if v.getLsbD k then
      let r := claimAll u fnPdm [(0, 64 + k)]
      r.2.setBit Reg.PDM_CLK_EN k r.1
    else if was then (resRelease u 0 (64 + k) fnPdm).setBit Reg.PDM_CLK_EN k false
    else u) s)

/-- PDM_CLK_EN_WRITE (R251). -/
def execPdmClkEnWrite (v : BitVec 32) (s : State) : Out := done (pdmClkWrite s v)

/-! ### Analog (R257 to R261) -/

/-- The gain target of input `i`: values above 42 act as 42 (R258). -/
def pgaTarget (s : State) (i : Nat) : BitVec 6 := BitVec.ofNat 6 (min (s.fld (Reg.ANA_ADC_CFG i) 0 6) 42)

/-- Take ADC `i` out of service at a frame tick, when its enable is cleared. -/
def adcRetire (s : State) (i : Nat) : State :=
  if !s.bit Reg.ANA_CTRL i && s.ports.adcOn.getLsbD i then
    releaseStall { s with ports := { s.ports with adcOn := s.ports.adcOn &&& ~~~(BitVec.ofNat 4 (2 ^ i)) } } (128 + i) clsPort fnAnalog
  else s

/-- The frame-tick work of ADC `i` after the releases: enable and claim; its PGA takes in its target, and starts there when the ADC is
enabled (R257, R258). -/
def adcFrame (s : State) (i : Nat) : State :=
  let b := BitVec.ofNat 4 (2 ^ i)
  let s0 := { s with ports := { s.ports with pgaGoal := vset s.ports.pgaGoal i (pgaTarget s i) } }
  if s0.bit Reg.ANA_CTRL i && !s0.ports.adcOn.getLsbD i then
    let r := claimStall s0 (128 + i) clsPort fnAnalog
    if r.1 then
      ({ r.2 with ports := { r.2.ports with adcOn := r.2.ports.adcOn ||| b } }).setFld (Reg.ANA_ADC_CFG i) 16 6 (pgaTarget s i).toNat
    else r.2.setBit Reg.ANA_CTRL i false
  else s0

/-- The magnitude 0.99 in s.35, rounded up (R257). -/
def adcLimit : Int := 34016140985

/-- The word of ADC `i` in one interval (R257), through the DC blocker where HPF selects it: stopped in LISTEN and during acquisition
(Table 11-5). -/
def adcSample (x : SampleInput) (s : State) (i : Nat) : State :=
  if !s.ports.adcOn.getLsbD i || !mediaRuns s || s.listen then s
  else
    let v := match givenWord x.adc i with
      | some w => (w, s)
      | none => freeWord s Config.freeAdc
    let high := x.overload.getLsbD i || decide (adcLimit ≤ v.1.toInt) || decide (v.1.toInt ≤ -adcLimit)
    let o := dcBlock (v.2.raiseIf high Reg.ANA_STATUS (BitVec.ofNat 32 (2 ^ i))) (if s.bit Reg.ANA_CTRL 8 then 1 else 0) v.1
    portWrite o.2 (128 + i) o.1

/-- The effect of PGA_STEP on input `i`: one 1 dB step toward the target taken in (R258). -/
def pgaStep (s : State) (i : Nat) : State :=
  let now := s.fld (Reg.ANA_ADC_CFG i) 16 6
  let goal := (vget s.ports.pgaGoal i 0#6).toNat
  if s.ports.adcOn.getLsbD i then
    s.setFld (Reg.ANA_ADC_CFG i) 16 6 (if now < goal then now + 1 else if goal < now then now - 1 else now)
  else s

/-- PGA_STEP (R258). -/
def execPgaStep (i : Fin 4) (s : State) : Out := done (pgaStep s i.val)

/-- A bias drawing over 5 mA switches off until BIAS_EN is written 0 and then 1 (R259). -/
def biasShort (s : State) (i : Nat) : State :=
  if s.bit (Reg.ANA_ADC_CFG i) 8 && !s.ports.biasTrip.getLsbD i then
    ({ s with ports := { s.ports with biasTrip := s.ports.biasTrip ||| BitVec.ofNat 4 (2 ^ i) } }).raise Reg.ANA_STATUS
      (BitVec.ofNat 32 (2 ^ (4 + i)))
  else s

/-- BIAS_SHORT (R259). -/
def execBiasShort (i : Fin 4) (s : State) : Out := done (biasShort s i.val)

/-- A word as a delivery stage passes it on: scaled by the output gain (R35). -/
def delivered (s : State) (k : Nat) : Word := scale256 (stallRead s k) s.tick.gain

/-- Whether DAC `i` drives its words (R260): enabled and not stopped, with its stall claimed. -/
def dacPlays (s : State) (i : Nat) : Bool :=
  s.bit Reg.ANA_CTRL (4 + i) && mediaRuns s && !s.listen && decide (stallClaim s (132 + i) ≠ 0#36)

/-- The samples from stall read to pin (Table 02-11). -/
def dacDelay : Nat := 20

/-- The words on their way to DAC `i` after this interval's read; none where it drives zero. -/
def dacTaken (s : State) (i : Nat) : List Word :=
  if dacPlays s i then (delivered s (132 + i) :: vget s.ports.dacLine i []).take dacDelay else []

/-- The DACs in one interval: each drives the word read 20 samples before, and zero while nothing has come through (R43, R260). -/
def dacSample (s : State) : State :=
  { s with ports := { s.ports with
    dac := Vector.ofFn fun i => if dacPlays s i.val then (vget s.ports.dacLine i.val []).getD (dacDelay - 1) 0#36 else 0#36
    dacLine := Vector.ofFn fun i => dacTaken s i.val } }

/-- Drive MUTE_N low (R261). -/
def muteLow (s : State) : State := { s with ports := { s.ports with muteN := false } }

/-! ### TDM ports (R262 to R268) -/

/-- TDM port `p`. -/
def tdmAt (s : State) (p : Nat) : TdmPort := vget s.ports.tdm p TdmPort.zero

/-- Replace it. -/
def putTdm (s : State) (p : Nat) (x : TdmPort) : State := { s with ports := { s.ports with tdm := vset s.ports.tdm p x } }

/-- Fields of TDM_CTRL and TDM_FRAME (Table 11-11). -/
def tdmRx (s : State) (p : Nat) : Bool := s.bit (Reg.TDM_CTRL p) 0
def tdmTx (s : State) (p : Nat) : Bool := s.bit (Reg.TDM_CTRL p) 1
def tdmMaster (s : State) (p : Nat) : Bool := s.bit (Reg.TDM_CTRL p) 2
def tdmAsync (s : State) (p : Nat) : Bool := s.bit (Reg.TDM_CTRL p) 3 && !tdmMaster s p
def tdmFmt (s : State) (p : Nat) : Nat := s.fld (Reg.TDM_FRAME p) 0 2
def tdmBits (s : State) (p : Nat) : Nat := 2 ^ (max 5 (min 10 (s.fld (Reg.TDM_FRAME p) 12 4)))
def tdmWidth (s : State) (p : Nat) : Nat := if s.bit (Reg.TDM_FRAME p) 9 then 32 else 24

/-- The slot count of a frame: SLOTS in TDM format, 2 in I2S and left-justified (R264). -/
def tdmSlots (s : State) (p : Nat) : Nat := if tdmFmt s p = 2 then max 1 (s.fld (Reg.TDM_FRAME p) 2 6) else 2

/-- SLOT_W, and how far a slot's data stands above its trailing bits (R262). -/
def tdmSlotBits (s : State) (p : Nat) : Nat := if s.bit (Reg.TDM_FRAME p) 8 then 32 else 24
def tdmTrailing (s : State) (p : Nat) : Nat := tdmSlotBits s p - tdmWidth s p

/-- The bits of the slots below the slot count. -/
def tdmMask (s : State) (p : Nat) : BitVec 32 := BitVec.ofNat 32 (2 ^ min 32 (tdmSlots s p) - 1)

/-- Whether a master's bit clock cannot be made: C / FRAME_BITS below 16 (R263). -/
def tdmRateBad (s : State) (p : Nat) : Bool := tdmMaster s p && s.tick.entered && decide (s.c / tdmBits s p < 16)

/-- What refuses a write of 1 to RX_EN or TX_EN (R264). -/
def tdmCfgBad (s : State) (p : Nat) : Bool :=
  decide (tdmFmt s p = 3) || decide (tdmBits s p < tdmSlots s p * tdmSlotBits s p)
    || (s.bit (Reg.TDM_FRAME p) 9 && !s.bit (Reg.TDM_FRAME p) 8) || tdmRateBad s p

/-- The pins of one direction (Table 21-6). -/
def tdmPins (p : Nat) (tx : Bool) : List (Nat × Nat) := [(0, 72 + 4 * p), (0, 73 + 4 * p), (0, (if tx then 75 else 74) + 4 * p)]

/-- The ASRC channels one direction of an asynchronous port needs for slots `sl` (R269). -/
def asrcChannels (s : State) (p : Nat) (tx : Bool) (sl : BitVec 32) : List (Nat × Nat) :=
  if tdmAsync s p then
    match (List.range 32).reverse.find? fun i => sl.getLsbD i with
    | some h => (List.range (h + 1)).map fun i => (4, s.fld (Reg.TDM_ASRC p) (if tx then 8 else 0) 7 + i)
    | none => []
  else []

/-- The slots a direction has enabled, within its frame. -/
def tdmWanted (s : State) (p : Nat) (tx : Bool) : BitVec 32 :=
  (if tx then s.reg (Reg.TDM_TX_SLOTS p) else s.reg (Reg.TDM_RX_SLOTS p)) &&& tdmMask s p

/-- The channels that a direction of port `p` has claimed. -/
def tdmChannels (s : State) (p : Nat) (tx : Bool) : List Nat := if tx then (tdmAt s p).txCh else (tdmAt s p).rxCh

/-- Whether port `p` may not take a resource: it is held, also where the port's other direction holds a channel, or is a channel past 127
(R269). -/
def tdmRefuses (s : State) (p : Nat) (tx : Bool) (r : Nat × Nat) : Bool :=
  !resFree s r.1 r.2 (fnTdm p) || (decide (r.1 = 4) && (decide (127 < r.2) || (tdmChannels s p !tx).contains r.2))

/-- Claim resources for one direction, all of them or none; its channels are noted. -/
def tdmClaim (s : State) (p : Nat) (tx : Bool) (l : List (Nat × Nat)) : Bool × State :=
  match l.find? (tdmRefuses s p tx) with
  | some r => (false, claimRefused s r.1 r.2 (resOwner s r.1 r.2) (fnTdm p))
  | none =>
    let x := tdmAt s p
    let new := (l.filter fun r => decide (r.1 = 4) && !(tdmChannels s p tx).contains r.2).map Prod.snd
    let t := (claimAll s (fnTdm p) l).2
    (true, putTdm t p (if tx then { x with txCh := x.txCh ++ new } else { x with rxCh := x.rxCh ++ new }))

/-- Release what one direction holds and the other does not use. -/
def tdmDrop (s : State) (p : Nat) (tx : Bool) : State :=
  let x := tdmAt s p
  let pins := if s.bit (Reg.TDM_CTRL p) (if tx then 0 else 1) then [(0, (if tx then 75 else 74) + 4 * p)] else tdmPins p tx
  let t := releaseAll s (fnTdm p) (pins ++ (tdmChannels s p tx).map fun c => (4, c))
  putTdm t p (if tx then { x with txCh := [] } else { x with rxCh := [] })

/-- Whether the ASRC of port `p` is locked. -/
def asrcLocked (s : State) (p : Nat) : Bool := s.bit Reg.ASRC_STATUS p

/-- Unlock a port (R270): the flag, the lock state and the ratio. -/
def asrcUnlock (s : State) (p : Nat) : State :=
  if asrcLocked s p then
    (((s.setBit Reg.ASRC_STATUS p false).raise Reg.ASRC_STATUS (BitVec.ofNat 32 (2 ^ (4 + p)))).setReg (Reg.ASRC_RATIO p) 0#32)
  else s

/-- A port with nothing received and nothing on its way. -/
def TdmPort.idle (x : TdmPort) : TdmPort :=
  { x with frame := [], late := 0#32, count := 0, held := [], sent := none, fade := 0,
           rxHist := Vector.replicate 32 [], txHist := Vector.replicate 32 [] }

/-- A port stops: it is not locked, and what it held is gone. -/
def tdmStop (s : State) (p : Nat) : State :=
  putTdm ((s.setBit Reg.ASRC_STATUS p false).setReg (Reg.ASRC_RATIO p) 0#32) p (tdmAt s p).idle

/-- Turn one direction on or off (R264, R269). A port whose first direction comes on has seen no frame; one whose last goes off stops. -/
def tdmDirection (s : State) (p : Nat) (tx want : Bool) : State :=
  let k := if tx then 1 else 0
  let on := s.bit (Reg.TDM_CTRL p) k
  if want && !on then
    if tdmCfgBad s p then s.raise (Reg.TDM_STATUS p) 0x10#32
    else
      let r := tdmClaim s p tx (tdmPins p tx ++ asrcChannels s p tx (tdmWanted s p tx))
      if r.1 then
        let x := tdmAt r.2 p
        let y := if s.bit (Reg.TDM_CTRL p) (1 - k) then x else { x.idle with seen := false, lost := false }
        putTdm (r.2.setBit (Reg.TDM_CTRL p) k true) p (if tx then { y with lfsr := lfsrSeed (s.reg (Reg.TDM_NOISE_SEED p)) } else y)
      else r.2
  else if !want && on then
    let t := (tdmDrop s p tx).setBit (Reg.TDM_CTRL p) k false
    if s.bit (Reg.TDM_CTRL p) (1 - k) then t else tdmStop t p
  else s

/-- The effect of a TDM_CTRL write (R264, R267): the answer says whether it gets an error response. -/
def tdmCtrlWrite (s : State) (p : Nat) (v : BitVec 32) : Bool × State :=
  let idle := !tdmRx s p && !tdmTx s p
  let old := s.reg (Reg.TDM_CTRL p)
  let bad := !idle && decide ((v ^^^ old) &&& 0x3C#32 ≠ 0#32)
  let s1 := if idle then s.setReg (Reg.TDM_CTRL p) (v &&& 0x2C#32 ||| old &&& 0x10#32) else s.raiseIf bad (Reg.TDM_STATUS p) 0x10#32
  let s2 := if idle then
      if v.getLsbD 4 && !old.getLsbD 4 then
        let r := claimAll s1 (fnTdm p) [(1, p / 2)]
        r.2.setBit (Reg.TDM_CTRL p) 4 r.1
      else if !v.getLsbD 4 && old.getLsbD 4 then
        ((resRelease s1 1 (p / 2) (fnTdm p)).setBit (Reg.TDM_CTRL p) 4 false).setReg (Reg.TDM_DLL p) 0#32
      else s1
    else s1
  (bad, tdmDirection (tdmDirection s2 p false (v.getLsbD 0)) p true (v.getLsbD 1))

/-- The effect of a TDM_FRAME write: performed only while the port is disabled (R264). -/
def tdmFrameWrite (s : State) (p : Nat) (v : BitVec 32) : Bool × State :=
  if tdmRx s p || tdmTx s p then (true, s.raise (Reg.TDM_STATUS p) 0x10#32)
  else (false, s.setReg (Reg.TDM_FRAME p) (v &&& 0xFF3FF#32))

/-- Claim the ASRC channel of a slot set later, or clear its bit (R269). -/
def tdmSlotChannel (s : State) (p : Nat) (tx : Bool) (i : Nat) : Bool × State :=
  if tdmAsync s p then tdmClaim s p tx ((List.range (i + 1)).map fun k => (4, s.fld (Reg.TDM_ASRC p) (if tx then 8 else 0) 7 + k))
  else (true, s)

/-- The receive slots that port `p` is to serve from a frame tick. -/
def tdmRxWanted (s : State) (p : Nat) : BitVec 32 := if tdmRx s p then tdmWanted s p false else 0#32

/-- Release the stalls of receive slots cleared (R264). -/
def tdmRetire (s : State) (p : Nat) : State :=
  (List.range 32).foldl (fun u i =>
    if (tdmAt s p).rxOn.getLsbD i && !(tdmRxWanted s p).getLsbD i then releaseStall u (136 + 32 * p + i) clsPort (fnTdm p) else u) s

/-- The frame-tick work of a TDM port after the releases: slots newly set claim their stall (R264). -/
def tdmFrame (s : State) (p : Nat) : State :=
  let want := tdmRxWanted s p
  let x := tdmAt s p
  let r := (List.range 32).foldl (fun (a : State × BitVec 32) i =>
    if want.getLsbD i && !x.rxOn.getLsbD i then
      let c := tdmSlotChannel a.1 p false i
      let k := if c.1 then claimStall c.2 (136 + 32 * p + i) clsPort (fnTdm p) else (false, c.2)
      if k.1 then (k.2, a.2) else (k.2.lower (Reg.TDM_RX_SLOTS p) (BitVec.ofNat 32 (2 ^ i)), a.2 &&& ~~~(BitVec.ofNat 32 (2 ^ i)))
    else a) (s, want)
  let wtx := if tdmTx r.1 p then tdmWanted r.1 p true else 0#32
  let t := (List.range 32).foldl (fun (a : State × BitVec 32) i =>
    if wtx.getLsbD i && !x.txOn.getLsbD i then
      let c := tdmSlotChannel a.1 p true i
      if c.1 then (c.2, a.2) else (c.2.lower (Reg.TDM_TX_SLOTS p) (BitVec.ofNat 32 (2 ^ i)), a.2 &&& ~~~(BitVec.ofNat 32 (2 ^ i)))
    else a) (r.1, wtx)
  putTdm t.1 p { tdmAt t.1 p with rxOn := r.2, txOn := t.2 }

/-- Whether port `p` moves frames: a direction enabled, outside LISTEN, and a master only with the media clock (Table 11-5). -/
def tdmRuns (s : State) (p : Nat) : Bool :=
  (tdmRx s p || tdmTx s p) && s.tick.entered && !s.listen && (!tdmMaster s p || mediaRuns s)

/-- What an ASRC channel makes of the words it holds: silence of silence, and else a free value (DEDUCED, log entry 82: the spec gives
the channel's delay and not its filter). -/
def asrcWord (s : State) (held : List Word) : Word × State := if held.all (· = 0#36) then (0#36, s) else freeWord s Config.freeAsrc

/-- The delay of an ASRC channel in samples at the stall rate (Table 02-11); the words from which one sample is made, as many after the
word so delayed as before it; and the words of a received channel in that time at the highest ratio of R270 (DEDUCED, log entry 82). -/
def asrcDelay : Nat := 24
def asrcTaps : Nat := 2 * asrcDelay + 1
def asrcPush (n : Nat) (held : List Word) (w : Word) : List Word := (w :: held).take n

/-- The word that slot `i` of a frame carries: DATA_W bits above the slot's trailing bits (R262, R66). -/
def tdmSlotWord (s : State) (p : Nat) (slots : List (BitVec 32)) (i : Nat) : Word :=
  pcmIn (tdmWidth s p) (slots.getD i 0#32 >>> tdmTrailing s p)

/-- The word a receive slot writes in this interval: that of the frame held, zero while its port cannot receive, a converted word faded
in while its ASRC is locked (R265, R270). -/
def tdmRxWord (s : State) (p i : Nat) : Word × State :=
  let x := tdmAt s p
  if !tdmRx s p || !(tdmWanted s p false).getLsbD i || !mediaRuns s then (0#36, s)
  else if tdmAsync s p then
    if asrcLocked s p then let w := asrcWord s (vget x.rxHist i []); (scaleFrac w.1 (min 256 (x.fade + 1)) 256, w.2) else (0#36, s)
  else (tdmSlotWord s p x.held i, s)

/-- The receive side of port `p` in one interval. -/
def tdmRxSample (s : State) (p : Nat) : State :=
  if s.tick.entered && !s.listen && (!tdmMaster s p || mediaRuns s) then
    (List.range 32).foldl (fun u i =>
      if (tdmAt s p).rxOn.getLsbD i then
        let w := tdmRxWord u p i
        portWrite w.2 (136 + 32 * p + i) w.1
      else u) s
  else s

/-- The word that transmit slot `i` takes from its stall for the next frame: the word readable in the ending interval, through its ASRC
channel on an asynchronous port (R265, R270). -/
def tdmTxTaken (s : State) (p i : Nat) : Word × State :=
  let w := delivered s (264 + 32 * p + i)
  if tdmAsync s p then
    let x := tdmAt s p
    let h := asrcPush asrcTaps (vget x.txHist i []) w
    asrcWord (putTdm s p { x with txHist := vset x.txHist i h }) h
  else (w, s)

/-- Transmit slot `i` of the next frame: its word converted, left-justified in the slot, with saturation flagged and counted (R262, R268).
An asynchronous port that is not locked sends zero (R270). -/
def tdmTxSlot (s : State) (p i : Nat) : BitVec 32 × State :=
  if tdmAsync s p && !asrcLocked s p then (0#32, s)
  else
    let r := tdmTxTaken s p i
    let x := tdmAt r.2 p
    let c := pcmOut (tdmWidth s p) (s.bit (Reg.TDM_DITHER p) i) r.1 x.lfsr
    let u := if c.sat then (r.2.raise (Reg.TDM_STATUS p) 8#32).count (Reg.TDM_SAT_COUNT p) 0 32 1 else r.2
    ((c.p <<< (32 - tdmWidth s p)) >>> (32 - tdmSlotBits s p), putTdm u p { x with lfsr := c.lfsr })

/-- What a port drives where it sends no slot: 0, or high impedance under TXIDLE (R268). -/
def tdmIdle (s : State) (p : Nat) : Option (BitVec 32) := if s.bit (Reg.TDM_CTRL p) 5 then none else some 0#32

/-- The idle bits after slot `i`: those after the last slot, and in I2S and left-justified formats those of each half (R263). -/
def tdmGap (s : State) (p i : Nat) : Nat :=
  if tdmFmt s p = 2 then (if i + 1 = tdmSlots s p then tdmBits s p - tdmSlots s p * tdmSlotBits s p else 0)
  else tdmBits s p / 2 - tdmSlotBits s p

/-- The format of the frames that a port sends (Table 11-4, R263), with the data `l`. -/
def tdmOut (s : State) (p : Nat) (l : List TdmBurst) : TdmOut :=
  let f := tdmFmt s p
  { rising := s.bit (Reg.TDM_FRAME p) 18
    fsBits := if f = 2 then (if s.bit (Reg.TDM_FRAME p) 16 then tdmSlotBits s p else 1) else tdmBits s p / 2
    fsHigh := s.bit (Reg.TDM_FRAME p) 17 == decide (f = 0)
    delay := if f = 0 then 1 else if f = 2 && s.bit (Reg.TDM_FRAME p) 19 then 1 else 0
    div := if tdmMaster s p then some (s.c / tdmBits s p) else none
    bursts := l }

/-- The bits of slot `i`, and the idle bits after it. -/
def tdmTxBursts (on : BitVec 32) (p : Nat) (r : List TdmBurst × State) (i : Nat) : List TdmBurst × State :=
  let s := r.2
  let x := if on.getLsbD i then (let y := tdmTxSlot s p i; (some y.1, y.2)) else (tdmIdle s p, s)
  let gap := tdmGap s p i
  (r.1 ++ ⟨tdmSlotBits s p, x.1⟩ :: (if gap = 0 then [] else [⟨gap, tdmIdle s p⟩]), x.2)

/-- The transmit side of port `p` at a boundary: the frame of the words readable in the ending interval (R265, R268). A master that only
receives makes the clocks of its frames and drives no data (R263). -/
def tdmTxSample (s : State) (p : Nat) : State :=
  let x := tdmAt s p
  if !tdmRuns s p || !(tdmTx s p || tdmMaster s p) then putTdm s p { x with sent := none }
  else if !tdmTx s p then putTdm s p { x with sent := some (tdmOut s p [⟨tdmBits s p, none⟩]) }
  else
    let r := (List.range (min 32 (tdmSlots s p))).foldl (tdmTxBursts x.txOn p) ([], s)
    putTdm r.2 p { tdmAt r.2 p with sent := some (tdmOut s p r.1) }

/-- One slip (R265). -/
def tdmSlip (s : State) (p : Nat) : State := (s.raise (Reg.TDM_STATUS p) 1#32).count (Reg.TDM_SLIP_COUNT p) 0 16 1

/-- The words held for the next interval: those of the last frame received, whose slots outside `late` are held already; zero after a
loss of the frame sync (R265, R266). -/
def TdmPort.turn (x : TdmPort) : List (BitVec 32) :=
  if x.lost then [] else if x.count = 0 then x.held
  else (List.range 32).map fun i => if x.late.getLsbD i then x.frame.getD i 0#32 else x.held.getD i 0#32

/-- The boundary of port `p`: the words received in the interval are held for the next one, or the previous words repeat; a synchronous
slave whose frames did not number one slips, once for each direction in use (R265; log entry 83: a slave's next frame starts as its last
completes, so the frames that start in an interval are as many as those that complete). It slips neither before its first frame nor after
CLK_LOST, and does while the media PLL acquires (DESIGN CHOICE, log entry 124). -/
def tdmBoundary (s : State) (p : Nat) : State :=
  let x := tdmAt s p
  let slave := !tdmMaster s p && !tdmAsync s p && tdmRuns s p && x.seen && !x.lost
  let slips := if slave && decide (x.count ≠ 1) then (if tdmRx s p then 1 else 0) + (if tdmTx s p then 1 else 0) else 0
  let s1 := (List.range slips).foldl (fun u _ => tdmSlip u p) s
  putTdm s1 p { tdmAt s1 p with held := x.turn, count := 0, fade := if asrcLocked s p then min 256 (x.fade + 1) else 0 }

/-- The bit clocks from the start of a frame to the end of slot `i`. -/
def tdmSlotEnd (s : State) (p i : Nat) : Nat := if tdmFmt s p = 2 then (i + 1) * tdmSlotBits s p else i * (tdmBits s p / 2) + tdmSlotBits s p

/-- Whether slot `i` of a frame that completes `phase` core cycles after a boundary ended in the interval before that boundary (R265). In
a master every slot ends in the interval in which its frame started; the bit clock of a slave is taken as C / FRAME_BITS core cycles
(DESIGN CHOICE, log entry 83). -/
def tdmEarly (s : State) (p phase i : Nat) : Bool :=
  if tdmMaster s p then decide (phase < tdmBits s p * (s.c / tdmBits s p))
  else decide (phase * tdmBits s p < (tdmBits s p - tdmSlotEnd s p i) * s.c)

/-- What a port takes from a frame that completes: the slots that ended before the last boundary are held for this interval, the others
for the next; an asynchronous port hands its slots to their ASRC channels (R265, R270). -/
def tdmTaken (s : State) (p : Nat) (slots : List (BitVec 32)) (phase : Nat) : TdmPort :=
  let x := tdmAt s p
  let early := fun i => tdmEarly s p phase i
  { x with
    frame := slots, count := x.count + 1, lost := false, seen := true
    late := BitVec.ofNat 32 ((List.range 32).foldl (fun n i => if early i then n else n + 2 ^ i) 0)
    held := (List.range 32).map fun i => if early i then slots.getD i 0#32 else x.held.getD i 0#32
    rxHist := if tdmAsync s p then Vector.ofFn fun i => asrcPush (4 * asrcTaps) (vget x.rxHist i.val []) (tdmSlotWord s p slots i.val) else x.rxHist }

/-- The effect of TDM_RX_FRAME: a frame of port `p` completes `phase` core cycles after the last boundary; of two in one
interval the later counts (R265). A slot's word holds its SLOT_W bits. -/
def tdmRxFrame (s : State) (p : Nat) (slots : List (BitVec 32)) (phase : BitVec 16) : State :=
  if tdmRuns s p then (putTdm s p (tdmTaken s p slots phase.toNat)).setFld (Reg.TDM_PHASE p) 0 16 phase.toNat
  else s

/-- The effect of TDM_FS_EDGE: an FS edge of a slave at a wrong count (R266). -/
def tdmFsEdge (s : State) (p : Nat) : State :=
  if tdmRuns s p && !tdmMaster s p then
    (((putTdm s p { tdmAt s p with lost := false, seen := true }).raise (Reg.TDM_STATUS p) 2#32).count (Reg.TDM_SLIP_COUNT p) 16 16 1)
  else s

/-- The effect of CLK_LOST: no FS edge for 1 ms; zero is written from the next interval (R266, R270). -/
def tdmClkLost (s : State) (p : Nat) : State :=
  if (tdmRx s p || tdmTx s p) && !tdmMaster s p then
    asrcUnlock ((putTdm s p { tdmAt s p with lost := true }).raise (Reg.TDM_STATUS p) 4#32) p
  else s

/-- The effect of DLL_LOCK: the DLL that port `p` holds has kept its tap for 16 frames (R267). -/
def dllLock (s : State) (p : Nat) (tap : BitVec 6) : State :=
  if s.bit (Reg.TDM_CTRL p) 4 then s.setReg (Reg.TDM_DLL p) (BitVec.ofNat 32 (256 + tap.toNat)) else s

/-- The effect of ASRC_LOCK: a ratio held within 100 ppm for 100 ms locks the port; one outside 0.25 to 4 never does, and sets RATE_ERR
(R270), on a locked port too, which follows its estimate (DEDUCED, log entry 26). -/
def asrcLock (s : State) (p : Nat) (ratio : BitVec 32) : State :=
  let bad := decide (ratio.toNat < 2 ^ 26) || decide (2 ^ 30 < ratio.toNat)
  if tdmAsync s p && tdmRuns s p then
    if asrcLocked s p then (s.setReg (Reg.ASRC_RATIO p) ratio).raiseIf bad (Reg.TDM_STATUS p) 0x20#32
    else if bad then s.raise (Reg.TDM_STATUS p) 0x20#32
    else (putTdm (s.setBit Reg.ASRC_STATUS p true) p { tdmAt s p with fade := 0 }).setReg (Reg.ASRC_RATIO p) ratio
  else s

/-- At a switch tick, `changed` where C changes or the clocks return: in LISTEN the port stops; else a master whose bit clock cannot be
made stops with RATE_ERR, its enables read 0 and its claims are released, and an asynchronous port relocks (Table 11-5). -/
def tdmSwitch (changed : Bool) (s : State) (p : Nat) : State :=
  if s.listen then tdmStop s p
  else if !changed then s
  else
    let s1 := asrcUnlock s p
    if (tdmRx s1 p || tdmTx s1 p) && tdmRateBad s1 p then
      let s2 := tdmDirection (tdmDirection (s1.raise (Reg.TDM_STATUS p) 0x20#32) p false false) p true false
      let s3 := (List.range 32).foldl (fun u i => releaseStall u (136 + 32 * p + i) clsPort (fnTdm p)) s2
      putTdm s3 p { tdmAt s3 p with rxOn := 0#32, txOn := 0#32 }
    else s1

/-- TDM_RX_FRAME (R265). -/
def execTdmRxFrame (p : Fin 4) (slots : List (BitVec 32)) (phase : BitVec 16) (s : State) : Out := done (tdmRxFrame s p.val slots phase)

/-- TDM_FS_EDGE (R266). -/
def execTdmFsEdge (p : Fin 4) (s : State) : Out := done (tdmFsEdge s p.val)

/-- CLK_LOST (R266). -/
def execClkLost (p : Fin 4) (s : State) : Out := done (tdmClkLost s p.val)

/-- DLL_LOCK (R267). -/
def execDllLock (p : Fin 4) (tap : BitVec 6) (s : State) : Out := done (dllLock s p.val tap)

/-- ASRC_LOCK (R270). -/
def execAsrcLock (p : Fin 4) (ratio : BitVec 32) (s : State) : Out := done (asrcLock s p.val ratio)

/-- ASRC_UNLOCK (R270). -/
def execAsrcUnlock (p : Fin 4) (s : State) : Out := done (asrcUnlock s p.val)

/-- Every input port in one interval. -/
def portsRx (x : SampleInput) (s : State) : State :=
  (List.range 4).foldl tdmRxSample ((List.range 4).foldl (adcSample x) ((List.range 128).foldl (pdmSample x) s))

/-- Every output port at a boundary. -/
def portsTx (s : State) : State := (List.range 4).foldl tdmBoundary ((List.range 4).foldl tdmTxSample (dacSample (pdmBoundary s)))

/-- The releases of every audio port at a frame tick, and then its claims, in function order (R498). -/
def portsRetire (s : State) : State :=
  (List.range 4).foldl tdmRetire ((List.range 4).foldl adcRetire ((List.range 128).foldl pdmRetire s))
def portsFrame (s : State) : State := (List.range 4).foldl tdmFrame ((List.range 4).foldl adcFrame (pdmFrame s))

/-- Whether a switch tick changes the clocks of the ports: C changes, or CORE returns or starts (Table 11-5); `old` is the state
before it. -/
def clocksChange (old s : State) : Bool := decide (old.c ≠ s.c) || onUtil old || !old.tick.entered

/-- The frame of port `p` in the interval that a switch tick opens: a frame that goes on takes the new divider, and a port that starts
there sends its first frame at once, of outputs held at zero (Table 11-5). -/
def tdmRestart (s : State) (p : Nat) : State :=
  match (tdmAt s p).sent with
  | some o => if tdmRuns s p then putTdm s p { tdmAt s p with sent := some { o with div := (tdmOut s p []).div } }
    else putTdm s p { tdmAt s p with sent := none }
  | none => tdmTxSample s p

/-- What the ports do at a switch tick (Table 11-5). -/
def portsSwitch (changed : Bool) (s : State) : State :=
  let s1 := (List.range 4).foldl tdmRestart ((List.range 4).foldl (tdmSwitch changed) s)
  pdmRefresh (if changed then { s1 with ports := { s1.ports with pdmSettle := BitVec.allOnes 128 } } else s1)

/-- Port `p` when acquisition starts: it unlocks, and what it held is gone. -/
def tdmAcquire (s : State) (p : Nat) : State := tdmStop (asrcUnlock s p) p

/-- What the ports do when acquisition starts (Table 11-5). -/
def portsAcquire (s : State) : State := muteLow (pdmRefresh ((List.range 4).foldl tdmAcquire s))

end Sys2Proof.Machine
end

