-- ==== Sys2Proof/Machine/Records.lean ====
section
/-! DEFINITION. The records of the supervisor and the farrier (R450, Table 19-5), and the farrier's spare counts. -/
namespace Sys2Proof.Machine

/-- Write SUP_REPORT0 and the report of one decision: `src` 0 rule, 1 host, 2 fixed duty. RULE reads 0 when no rule decided. The three
words of the report reach SUP_REPORT1 to SUP_REPORT3 at the next read of SUP_REPORT0 (R450). -/
def supReport (s : State) (rule src action result arg detail : Nat) : State :=
  let s1 := s.count Reg.SUP_REPORT0 0 32 1
  { s1 with sup := { s1.sup with report := #v[
      BitVec.ofNat 32 ((if src = 0 then rule % 32 else 0) + src * 32 + action * 256 + result * 2048 + arg * 65536),
      s1.tick.frameCnt.setWidth 32, BitVec.ofNat 32 detail] } }

/-- A decision on a mode request: report and MODE_DECISION record. `who` is 0 host, 1 rule, 2 fixed duty; `arg` the mode and
family as in MODE_SET; `reason` 0 for accepted. -/
def modeDecision (s : State) (who rule action arg reason : Nat) : State :=
  let src := if who = 0 then 1 else if who = 1 then 0 else 2
  (supReport s rule src action (if reason = 0 then 0 else 2) arg reason).event 0x10 4 who arg reason (if who = 1 then rule else 255)

/-- An event is raised to the supervisor (R349, R392). -/
def State.supEvent (s : State) (e : SupEvent) : State := { s with sup := { s.sup with events := s.sup.events ++ [e] } }

/-- Kinds of spare (Table 19-6). -/
def kindRill : Nat := 0
def kindBasin : Nat := 1
def kindLane : Nat := 2
def kindBank : Nat := 3
def kindFlash : Nat := 4
def kindTether : Nat := 5

/-- The FAR_SPARES field of a kind: its lowest bit and width; for a lane or a tether port, of its engine or port `i`. -/
def spareField (kind i : Nat) : Nat × Nat :=
  if kind = kindRill then (0, 1) else if kind = kindBasin then (1, 1) else if kind = kindLane then (2 + i, 1)
  else if kind = kindBank then (10, 3) else if kind = kindFlash then (13, 4) else (17 + i, 1)

/-- The spares left of a kind. -/
def sparesLeft (s : State) (kind i : Nat) : Nat := let f := spareField kind i; s.fld Reg.FAR_SPARES f.1 f.2

/-- Use up one spare; SPARE_OUT is raised once, when none is left (R459). -/
def useSpare (s : State) (kind i : Nat) : State :=
  let f := spareField kind i
  if sparesLeft s kind i = 0 then s
  else
    let s1 := s.setFld Reg.FAR_SPARES f.1 f.2 (sparesLeft s kind i - 1)
    if sparesLeft s1 kind i = 0 then (s1.raise Reg.FAR_STATUS 8#32).event 0x11 5 kind 0 0 0 else s1

/-- A RETIRED record: cause 1 BIST, 2 ECC, 3 program or erase failure, 4 link. -/
def retiredRecord (s : State) (kind phys cause : Nat) : State := s.event 0x11 4 kind phys cause 0

end Sys2Proof.Machine
end

