-- ==== Sys2Proof/Machine/Reset.lean ====
section
/-! DEFINITION. The reset kinds: what power-on, wake and warm reset keep (R105, R149, R388, R392, R440, R484 to R490). -/
namespace Sys2Proof.Machine

/-- Codes of Table 21-4. -/
def rstWakePin : Nat := 0x01
def rstWakeTimer : Nat := 0x02
def rstDebugUnlock : Nat := 0x10
def rstSafe : Nat := 0x11
def rstHostCommand : Nat := 0x12
def rstPin : Nat := 0x13
def rstStartTimeout : Nat := 0x14
def rstDoubleFault : Nat := 0x15
def rstClock : Nat := 0x16
def rstRail : Nat := 0x17

/-- RETAIN. -/
def retain (s : State) : Bool := s.bit Reg.PWR_CTRL 0

/-- The bits of register `a` in the always-on domain (Table 22-11). -/
def aonMask (a : Nat) : BitVec 32 :=
  if a = Reg.PWR_CTRL then 0x3A#32
  else if a = Reg.PWR_STATUS then 0x7300#32
  else if a = Reg.PWR_RST ∨ a = Reg.PWR_RTC_SEC ∨ a = Reg.PWR_RTC_SUB ∨ a = Reg.PWR_WAKE_TIME then 0xFFFFFFFF#32
  else if Reg.PWR_SCRATCH 0 ≤ a ∧ a ≤ Reg.PWR_SCRATCH 3 then 0xFFFFFFFF#32
  else 0#32

/-- The bits of register `a` that a warm reset keeps whatever RETAIN holds (R388, R440, R490). -/
def warmMask (a : Nat) : BitVec 32 :=
  if a = Reg.PWR_CTRL then 0x3B#32
  else if a = Reg.BOOT_FAILCNT ∨ a = Reg.DBG_CTL then 0xFFFFFFFF#32
  else if a = Reg.BOOT_STATUS then 0xFF00#32
  else if Reg.DBG_CHAL 0 ≤ a ∧ a ≤ Reg.DBG_CHAL 7 then 0xFFFFFFFF#32
  else if Reg.DBG_RESP 0 ≤ a ∧ a ≤ Reg.DBG_RESP 31 then 0xFFFFFFFF#32
  else if Reg.MEM_BANK_MAP 0 ≤ a ∧ a ≤ Reg.MEM_BANK_MAP 31 then 0x3F#32
  else aonMask a

/-- The staged fields of register `a`, which belong to a staged set. -/
def stagedMask (a : Nat) : BitVec 32 :=
  match regFind a with
  | some d => d.st
  | none => 0#32

/-- The registers after a reset that keeps the bits `m a` of each register. -/
def regsKept (m : Nat → BitVec 32) (r : Cells (BitVec 32)) : Cells (BitVec 32) :=
  r.foldl (fun q e => Cells.write regReset q e.1 ((regReset e.1 &&& ~~~(m e.1)) ||| (e.2 &&& m e.1))) []

/-- A rill engine whose memories and staged set are kept: RUN in force is 0 (R105). -/
def rillKept (e : RillEngine) : RillEngine :=
  { RillEngine.zero with cistern := e.cistern, prog := e.prog, stA := e.stA, stS := e.stS, lenA := e.lenA, pageA := e.pageA,
                         lutA := e.lutA }

/-- A basin engine whose memories and staged set are kept (R149). -/
def basinKept (e : BasinEngine) : BasinEngine :=
  { BasinEngine.zero with ls := e.ls, code := e.code, stA := e.stA, stS := e.stS, halfA := e.halfA }

/-- What every reset leaves alone: the commands that wait, the flash, the one-time-programmable memory, the pins and the
host's memory lie outside its extent. -/
def resetBase (s : State) : State :=
  { State.reset with
    pending := s.pending, freeCtr := s.freeCtr,
    host := { HostState.zero with mem := s.host.mem },
    power := { PowerState.zero with
      pins := s.power.pins, driven := s.power.driven, tamperLow := s.power.tamperLow, rtc := s.power.rtc, lf := s.power.lf },
    boot := { s.boot with op := none, slot := none, key := none, armed := false, safeReq := none, goWait := false } }

/-- Keep the yard, every engine memory and every staged set of `s` in `t` (R490). The copies in force are kept, and nothing of
them acts until the next swap. The cascade unit's state store is cleared, with fresh ECC. -/
def keepMemories (s t : State) : State :=
  { t with
    rill := s.rill.map rillKept, basin := s.basin.map basinKept,
    bus := { t.bus with stA := s.bus.stA, stS := s.bus.stS },
    fabric := { t.fabric with stA := s.fabric.stA, stS := s.fabric.stS },
    cascade := { t.cascade with stA := s.cascade.stA, stS := s.cascade.stS },
    sets := s.sets.map fun x => { SetState.zero with seed := x.seed },
    yard := s.yard, ecc := Cells.keep (fun k => !(decide (0xFFC000 ≤ k) && decide (k < 0x1000000))) s.ecc, wb := s.wb,
    tether := { t.tether with ports := s.tether.ports.map fun p => { TetherPort.zero with txA := p.txA, rxA := p.rxA } } }

/-- Count a start of a confirmed image that ends in a warm reset before STARTED (R426). -/
def countFailure (s : State) : State :=
  if s.boot.armed && !s.bit Reg.BOOT_STATUS 2 then s.setFld Reg.BOOT_FAILCNT 0 4 (min 15 (s.fld Reg.BOOT_FAILCNT 0 4 + 1)) else s

/-- Record a reset reason: the previous one moves to RST_PREV (R488). -/
def recordReason (s : State) (code : Nat) : State :=
  s.setReg Reg.PWR_RST (BitVec.ofNat 32 (code + s.fld Reg.PWR_RST 0 8 * 256))

/-- Whether a warm reset with this reason keeps the memories (R490). -/
def keepsMemories (s : State) (code : Nat) : Bool := retain s && decide (code ≠ rstRail)

/-- A warm reset with reason `code` (R488, R490). While reset is held, a rail or clock fault replaces the reason, and a rail
fault clears what was kept; any other cause then has no effect. In STANDBY the main rails are off and nothing resets. Of causes that are
registered in one cycle the sender gives the command of the highest code alone (log entry 121). -/
def warmReset (s : State) (code : Nat) : State :=
  match s.power.phase with
  | .standby => s
  | .held =>
    if code = rstRail then
      { resetBase s with regs := regsKept warmMask (s.setFld Reg.PWR_RST 0 8 code).regs, boot := s.boot }
    else if code = rstClock then s.setFld Reg.PWR_RST 0 8 code
    else s
  | .running | .entering =>
    let s1 := recordReason (countFailure s) code
    let keep := keepsMemories s code
    let m := fun a => warmMask a ||| (if keep then stagedMask a else 0#32)
    let t := { resetBase s1 with regs := regsKept m s1.regs, boot := { (resetBase s1).boot with safeReq := s.boot.safeReq } }
    if keep then keepMemories s t else t

/-- The start of a wake from STANDBY with reason `code` (R484, R485, R487): the always-on domain alone is kept. -/
def wakeReset (s : State) (code : Nat) : State :=
  let s1 := recordReason s code
  { resetBase s1 with
    regs := regsKept aonMask s1.regs,
    boot := { (resetBase s1).boot with tack := [], tackEcc := [], dbgReq := false, lcReq := none, failSlot := none } }

/-- The granules that the operation a loss of power cut off leaves torn (R419). -/
def tornGranules (o : Option (Nat × Bool)) : List Nat :=
  match o with
  | none => []
  | some (a, true) => (List.range 4096).map fun k => a / 65536 * 4096 + k
  | some (a, false) => [a / 16]

/-- Loss of power in a flash operation: its granules are torn (R419, R429). -/
def tearFlash (b : BootState) : BootState :=
  { b with torn := (tornGranules b.op).foldl (fun t g => Cells.write (fun _ => false) t g true) b.torn, op := none }

/-- Power-on from OFF (R487): everything is reset but flash and one-time-programmable memory. -/
def powerOnReset (s : State) : State :=
  let t := resetBase { s with boot := tearFlash s.boot }
  let b := { t.boot with tack := [], tackEcc := [], dbgReq := false, lcReq := none, failSlot := none }
  { t with boot := { b with tap := .idcode, bridge := 0#32 }, power := { t.power with rtc := 0#47, lf := 0 } }

/-- Warm reset into SAFE with a SAFE_REASON (R430). -/
def enterSafe (s : State) (reason : Nat) : State :=
  if s.power.phase = .held ∨ s.power.phase = .standby then s
  else warmReset { s with boot := { s.boot with safeReq := some (BitVec.ofNat 8 reason) } } rstSafe

end Sys2Proof.Machine
end

