-- ==== Sys2Proof/Machine/Clock.lean ====
section
/-! DEFINITION. Clocks: the media NCO, the media PLL, CORE's source and the clock outputs (chapter 12). -/
namespace Sys2Proof.Machine

/-- Set the PLL's state and its gate. -/
def setMpll (s : State) (st : Nat) (gate : Bool) : State := (s.setFld Reg.CLK_STATUS 2 3 st).setBit Reg.CLK_STATUS 5 gate

/-- Whether the output gate is open. -/
def gateOpen (s : State) : Bool := s.bit Reg.CLK_STATUS 5

/-- CORE moves to a source at a boundary; no switch waits any more (R292). -/
def setCore (s : State) (src : Nat) : State := (s.setFld Reg.CLK_STATUS 0 2 src).setBit Reg.CLK_STATUS 9 false

/-- The divider settings: RDIV and NINT x 2^24 + FRAC (R281). -/
def mpllRdiv (s : State) : Nat := let r := s.fld Reg.MPLL_DIV 0 10; if r = 0 then 1024 else r
def mpllRatio (s : State) : Nat := s.fld Reg.MPLL_DIV 10 18 * 2 ^ 24 + s.fld Reg.MPLL_FRAC 0 24

/-- ENTRY, and F_NOM of the entry in use. -/
def mpllEntry (s : State) : Nat := s.fld Reg.MPLL_CFG 8 4
def mpllFnom (s : State) : Nat := s.fld (Reg.MPLL_BANDF (mpllEntry s)) 0 23

/-- FW_eff: FW with the steering in force (R279). -/
def mncoFwEff (s : State) : Nat := ((s.clock.fw.toNat : Int) + (s.clock.fw.toNat : Int) * (s.reg Reg.MNCO_ADJ_NOW).toInt / 2 ^ 40).toNat

/-- The reference frequency as a fraction of Hz: the NCO's from FW_eff, any other source's nominal one, which R289 derives from the
dividers and F_NOM. -/
def mpllRef (s : State) : Nat × Nat :=
  if s.fld Reg.MPLL_CFG 1 2 = 0 then (393216000 * mncoFwEff s, 2 ^ 48)
  else (400 * mpllFnom s * mpllRdiv s * 2 ^ 24, max 1 (mpllRatio s))

/-- Whether a limit of R281 is not met. -/
def mpllLimitBad (s : State) : Bool :=
  let f := mpllRef s
  let den := f.2 * mpllRdiv s
  decide (s.fld Reg.MPLL_DIV 10 18 < 16)
    || decide (f.1 < 8000 * den) || decide (25000000 * den < f.1)
    || decide (f.1 * mpllRatio s < 2750000000 * den * 2 ^ 24) || decide (3300000000 * den * 2 ^ 24 < f.1 * mpllRatio s)

/-- The configuration tests of R288. -/
def mpllCfgBad (s : State) : Bool :=
  !s.bit (Reg.MPLL_BAND (mpllEntry s)) 31 || mpllLimitBad s
    || (decide (s.fld Reg.MPLL_CFG 1 2 = 2) && tdmMaster s (s.fld Reg.MPLL_CFG 3 2))

/-- Raise the MPLL_STATUS flags `m` and the supervisor's event with them (Table 15-10). -/
def mpllEvent (s : State) (m : Nat) : State := (s.raise Reg.MPLL_STATUS (BitVec.ofNat 32 m)).event 4 1 m 0 0 0

/-- Enter SAFE at once, its event first (R37, R363, R430). -/
def safeNow (s : State) (reason : Nat) : State := enterSafe (s.event 2 3 reason 0 0 0) reason

/-- A fixed duty decides on SAFE: its decision is recorded, and SAFE is entered at once (R37, R448, R450). -/
def dutySafe (s : State) (reason : Nat) : State := safeNow (modeDecision s 2 0 5 3 0) reason

/-- An acquisition ends in FAIL with cause flags `m`; the third in a row of one mode change enters SAFE with reason 0x07 (R288). -/
def mpllFail (s : State) (m : Nat) : State :=
  let s1 := mpllEvent (setMpll s 4 false) (16 + m)
  if s1.tick.pending then
    let s2 := { s1 with clock := { s1.clock with fails := s1.clock.fails + 1 } }
    if 3 ≤ s2.clock.fails then dutySafe s2 7 else s2
  else s1

/-- CORE must leave the media PLL at the next boundary; outputs are muted from this interval (R20, R285). -/
def leaveMedia (s : State) : State :=
  if coreSrc s = 1 then
    let s1 := s.setBit Reg.CLK_STATUS 9 true
    muteLow { s1 with tick := { s1.tick with gain := 0, ramp := .steady } }
  else s

/-- Acquisition starts, with CORE off the media PLL: the gate closes, the lock count and the control value are 0, the band is CODE, and
the modulator is loaded (R282, R285). It fails at once on a bad configuration (R288). -/
def mpllAcquire (s : State) : State :=
  let s1 := s.count Reg.MPLL_EVENTS 0 16 1
  let seed := (s1.reg Reg.MPLL_SEED).extractLsb' 0 24
  let s2 := { s1 with clock := { s1.clock with
    lfsr := if seed = 0#24 then 1#24 else seed, mash := .start (s1.fld Reg.MPLL_DIV 10 18), refPhase := 0#48, edges := 0 } }
  let s3 := (setMpll s2 1 false).setReg Reg.MPLL_LOOP (BitVec.ofNat 32 (s2.fld (Reg.MPLL_BAND (mpllEntry s2)) 0 6 * 1024))
  if mpllCfgBad s3 then mpllFail s3 64 else s3

/-- What a configuration write makes of the PLL: acquisition, or OFF (R284). -/
def mpllTake (s : State) : State := if s.bit Reg.MPLL_CFG 0 then mpllAcquire s else setMpll s 0 false

/-- After a write of a configuration register: restart, or stop (R284). While CORE runs from the PLL its loop goes on, gate open, until
CORE has left it at the next boundary (R285). -/
def mpllConfigured (s : State) : State := if coreSrc s = 1 then leaveMedia s else mpllTake s

/-- A configuration that turns bad while acquisition runs ends it in FAIL (R288). -/
def mpllRecheck (s : State) : State := if mpllState s = 1 ∧ mpllCfgBad s = true then mpllFail s 64 else s

/-- A write of band register `a` of entry `i`: the entry that ENTRY names is part of the configuration (R284). -/
def mpllBandWrite (s : State) (i : Nat) (written : State) : State := if i = mpllEntry s then mpllConfigured written else written

/-! ### The NCO and the modulator as time passes (R279, R282) -/

/-- One advance of the modulator's dither LFSR, of the form of R61: x^24 + x^23 + x^22 + x^17 + 1. -/
def lfsr24Next (x : BitVec 24) : BitVec 24 := if x.getLsbD 0 then (x >>> 1) ^^^ 0xE10000#24 else x >>> 1

/-- One cycle of the phase detector in the modulator: `frac` with the dither bit of `l` runs through three accumulators, whose carries
shape the ratio about `nint` (R282; log entry 80: each stage accumulates the sum of the one before). -/
def mashCycle (nint frac : Nat) (dither : Bool) (m : Modulator) (l : BitVec 24) : Modulator :=
  let b := fun (c : Bool) => if c then (1 : Int) else 0
  let x1 := m.a1.toNat + frac + if dither && l.getLsbD 0 then 1 else 0
  let x2 := m.a2.toNat + x1 % 2 ^ 24
  let x3 := m.a3.toNat + x2 % 2 ^ 24
  let c1 := decide (2 ^ 24 ≤ x1)
  let c2 := decide (2 ^ 24 ≤ x2)
  let c3 := decide (2 ^ 24 ≤ x3)
  { a1 := BitVec.ofNat 24 x1, a2 := BitVec.ofNat 24 x2, a3 := BitVec.ofNat 24 x3, c2 := c2, c3 := c3, d3 := m.c3
    ratio := nint + b c1 + (b c2 - b m.c2) + (b c3 - 2 * b m.c3 + b m.d3) }

/-- `n` cycles of the modulator. -/
def mashRun (nint frac : Nat) (dither : Bool) : Nat → Modulator × BitVec 24 → Modulator × BitVec 24
  | 0, x => x
  | n + 1, x => mashRun nint frac dither n (mashCycle nint frac dither x.1 x.2, if dither then lfsr24Next x.2 else x.2)

/-- `n` cycles of the phase detector: the modulator is idle with FRAC 0 and no dither, and the PLL then integer-N (R282). -/
def modulate (s : State) (n : Nat) : State :=
  let nint := s.fld Reg.MPLL_DIV 10 18
  let frac := s.fld Reg.MPLL_FRAC 0 24
  let dither := s.bit Reg.MPLL_CFG 14
  if frac = 0 ∧ dither = false then { s with clock := { s.clock with mash := { s.clock.mash with ratio := nint } } }
  else
    let r := mashRun nint frac dither n (s.clock.mash, s.clock.lfsr)
    { s with clock := { s.clock with mash := r.1, lfsr := r.2 } }

/-- `n` UTIL cycles of the NCO, of the reference in use and, while the PLL's loop runs or is held, of the modulator. -/
def clockPass (s : State) (n : Nat) : State :=
  let nco := s.clock.phase.toNat + n * mncoFwEff s
  let f := mpllRef s
  let ref := s.clock.refPhase.toNat + n * (f.1 * 2 ^ 48 / (f.2 * 393216000))
  let edges := s.clock.edges + ref / 2 ^ 48
  let r := mpllRdiv s
  let s1 := { s with clock := { s.clock with phase := BitVec.ofNat 48 nco, refPhase := BitVec.ofNat 48 ref, edges := edges % r } }
  if 1 ≤ mpllState s ∧ mpllState s ≤ 3 then modulate s1 (edges / r) else s1

/-- The address of configuration register `k`: MPLL_CFG, MPLL_DIV, MPLL_FRAC, MPLL_SEED. -/
def mpllConfigReg (k : Nat) : Nat := Reg.MPLL_CFG + 4 * k

/-- The RW bits of configuration register `k` (Table 12-7). -/
def mpllConfigMask (k : Nat) : BitVec 32 := if k = 0 then 0x7F3F#32 else if k = 1 then 0xFFFFFFF#32 else 0xFFFFFF#32

/-- A write of a configuration register (R284). -/
def mpllConfigWrite (s : State) (k : Nat) (v : BitVec 32) : State :=
  mpllConfigured (s.setReg (mpllConfigReg k) (v &&& mpllConfigMask k))

/-- A write of MNCO_FW_HI: FW applies at once, and acquisition restarts while the NCO is the reference (R284). -/
def mncoFwWrite (s : State) (v : BitVec 32) : State :=
  let s1 := s.setReg Reg.MNCO_FW_HI (v &&& 0xFFFF#32)
  let s2 := { s1 with clock := { s1.clock with fw := v.extractLsb' 0 16 ++ s1.reg Reg.MNCO_FW_LO } }
  if s2.fld Reg.MPLL_CFG 1 2 = 0 then mpllConfigured s2 else s2

/-- The limit of MNCO_ADJ (R280). -/
def adjLimit : Int := 219902325

/-- Take a steering value, clamped (R280). -/
def mncoAdj (s : State) (x : Int) : State :=
  let y := max (-adjLimit) (min adjLimit x)
  (s.setReg Reg.MNCO_ADJ (BitVec.ofInt 32 y)).raiseIf (decide (y ≠ x)) Reg.MPLL_STATUS 0x200#32

/-- A write of MNCO_ADJ over the crossbar: refused with an error response while the servo owns it (R337). -/
def mncoAdjWrite (s : State) (v : BitVec 32) : Bool × State :=
  if s.bit Reg.TIME_CTRL 0 then (true, s.raise Reg.TIME_STATUS 8#32) else (false, mncoAdj s v.toInt)

/-- One slew step of ADJ_NOW (R280). -/
def adjSlew (s : State) : State :=
  let a := (s.reg Reg.MNCO_ADJ_NOW).toInt
  let t := (s.reg Reg.MNCO_ADJ).toInt
  mpllRecheck (s.setReg Reg.MNCO_ADJ_NOW (BitVec.ofInt 32 (if a ≤ t then min (a + 1024) t else max (a - 1024) t)))

/-- Write the fields of clock output `k` (0 MCLK_OUT, 1 WCLK_OUT) of CLKOUT_CTRL, claiming or releasing its pin (R296). Where the claim is
refused its enable reads 0 and its other field stays (R497). -/
def clkOutput (s : State) (v : BitVec 32) (k : Nat) (on : Bool) : State :=
  let put := fun (u : State) =>
    if k = 0 then u.setFld Reg.CLKOUT_CTRL 0 3 (v.extractLsb' 0 3).toNat else u.setFld Reg.CLKOUT_CTRL 3 2 (v.extractLsb' 3 2).toNat
  if on then
    let r := claimAll s fnClkOut [(0, 88 + k)]
    if r.1 then put r.2 else r.2.setBit Reg.CLKOUT_CTRL (3 * k) false
  else put (releaseAll s fnClkOut [(0, 88 + k)])

/-- A write of CLKOUT_CTRL: releases first, then claims (R296, R498). -/
def clkOutWrite (s : State) (v : BitVec 32) : State :=
  let step := fun (on : Bool) (u : State) (k : Nat) => if v.getLsbD (3 * k) = on then clkOutput u v k on else u
  [0, 1].foldl (step true) ([0, 1].foldl (step false) s)

/-- Whether MCLK_OUT and WCLK_OUT run: enabled, CORE on the media PLL (R295, R296). -/
def clkOutRuns (s : State) (k : Nat) : Bool := s.bit Reg.CLKOUT_CTRL (3 * k) && mediaRuns s && !s.listen

/-! ### The real-time clock (R278, R484, R513) -/

/-- The UTIL cycles of one LF cycle: 393.216 MHz over 32.768 kHz (Table 12-4). -/
def lfCycles : Nat := 12000

/-- Whether the LF oscillator runs, and the real-time clock with it (R278, R484, R513). -/
def lfRuns (s : State) : Bool := s.bit Reg.PWR_CTRL 1 || s.bit Reg.PWR_CTRL 4

/-- `n` LF cycles pass on the real-time clock. -/
def rtcCount (s : State) (n : Nat) : State :=
  if lfRuns s then { s with power := { s.power with rtc := s.power.rtc + BitVec.ofNat 47 n } } else s

/-- `n` UTIL cycles pass on the real-time clock, at the nominal rate of both clocks (DEDUCED, log entry 6). -/
def rtcPass (s : State) (n : Nat) : State :=
  if lfRuns s then
    let s1 := rtcCount s ((s.power.lf + n) / lfCycles)
    { s1 with power := { s1.power with lf := (s.power.lf + n) % lfCycles } }
  else s

/-- A time that no command tells passes on the real-time clock: a free number of LF cycles. -/
def rtcGap (s : State) : State := if lfRuns s then rtcCount s.takeFree.2 (Config.freeRtc s.takeFree.1) else s

/-! ### The commands -/

/-- TDM_CTRL_WRITE (R264); a port made master may fail the acquisition that runs from its clock (R288). -/
def execTdmCtrlWrite (p : Fin 4) (v : MasterWrite) (s : State) : Out :=
  let r := tdmCtrlWrite s p.val v.value
  done (s.asked v.master.val (Reg.TDM_CTRL p.val) v.value (r.1, mpllRecheck r.2))

/-- TDM_FRAME_WRITE (R264). -/
def execTdmFrameWrite (p : Fin 4) (v : MasterWrite) (s : State) : Out :=
  done (s.asked v.master.val (Reg.TDM_FRAME p.val) v.value (tdmFrameWrite s p.val v.value))

/-- MPLL_CONFIG_WRITE (R284): `k` names MPLL_CFG, MPLL_DIV, MPLL_FRAC or MPLL_SEED. -/
def execMpllConfigWrite (k : Fin 4) (v : BitVec 32) (s : State) : Out := done (mpllConfigWrite s k.val v)

/-- MPLL_LOCK (R285): the lock count reaches 256 with the loop at control value `ctrl`, which never exceeds CLAMP. -/
def execMpllLock (ctrl : BitVec 10) (s : State) : Out :=
  done (if mpllState s = 1 then
    let s1 := ((setMpll s 2 true).raise Reg.MPLL_STATUS 0x100#32).setFld Reg.MPLL_LOOP 16 9 256
    let s2 := s1.setFld Reg.MPLL_LOOP 0 10 (min ctrl.toNat (s1.fld (Reg.MPLL_BAND (mpllEntry s1)) 8 10))
    { s2 with clock := { s2.clock with fails := 0 } }
  else s)

/-- MPLL_GATE_CLOSE (R286): in LOCKED, a failed test before CORE has returned closes the gate again. -/
def execMpllGateClose (s : State) : Out :=
  done (if mpllState s = 2 ∧ coreSrc s ≠ 1 then (setMpll s 1 false).setFld Reg.MPLL_LOOP 16 9 0 else s)

/-- MPLL_OVER (R287, R288). -/
def execMpllOver (s : State) : Out := done (if mpllState s = 1 then mpllFail s 32 else s)

/-- MPLL_TIMEOUT (R288). -/
def execMpllTimeout (s : State) : Out := done (if mpllState s = 1 then mpllFail s 128 else s)

/-- HOLDOVER (R289): `refLoss` tells a reference loss from a lock loss. -/
def execHoldover (refLoss : Bool) (s : State) : Out :=
  done (if mpllState s = 2 then
    mpllEvent ((setMpll s 3 (gateOpen s)).count Reg.MPLL_EVENTS 16 16 1) (4 + if refLoss then 1 else 2)
  else s)

/-- RESUMED (R290). -/
def execResumed (s : State) : Out :=
  done (if mpllState s = 3 ∧ s.bit Reg.MPLL_ACQ 8 = true then (setMpll s 2 (gateOpen s)).raise Reg.MPLL_STATUS 8#32 else s)

/-- MNCO_ADJ_WRITE (R280, R337). -/
def execMncoAdjWrite (v : MasterWrite) (s : State) : Out := 
  done (s.asked v.master.val Reg.MNCO_ADJ v.value (mncoAdjWrite s v.value))

/-- ADJ_SLEW_STEP (R280). -/
def execAdjSlewStep (s : State) : Out := done (adjSlew s)

/-- MNCO_FW_HI_WRITE (R284). -/
def execMncoFwHiWrite (v : BitVec 32) (s : State) : Out := done (mncoFwWrite s v)

/-- CLOCK_FAULT (R277). -/
def execClockFault (s : State) : Out := done (warmReset s rstClock)

/-- CLKOUT_CTRL_WRITE (R296). -/
def execClkoutCtrlWrite (v : BitVec 32) (s : State) : Out := done (clkOutWrite s v)

end Sys2Proof.Machine
end

