-- ==== Sys2Proof/Machine/Boot.lean ====
section
/-! DEFINITION. Flash, one-time-programmable memory, stage 0, image slots, SAFE and the life cycle (chapter 18). -/
namespace Sys2Proof.Machine

/-! ### Flash (R415 to R419) -/

/-- Whether granule `g` is torn. -/
def granuleTorn (s : State) (g : Nat) : Bool := Cells.read (fun _ => false) s.boot.torn g

/-- The flash byte at a logical offset; what a torn granule reads as is free (R419, log entry 96). -/
def flashByte (s : State) (a : Nat) : Byte :=
  if granuleTorn s (a / 16) then Config.freeTorn a else Cells.read flashErased s.boot.flash a

/-- The life-cycle state: 0 BLANK, 1 DEVELOP, 2 DEPLOYED, 3 RETURNED, 4 END. -/
def lifeCycle (s : State) : Nat := s.boot.lc.toNat

/-- The base of slot `k` (0 A, 1 B). -/
def slotBase (k : Nat) : Nat := if k = 0 then 0x10000 else 0x390000

/-- The slot that offset `a` lies in. -/
def slotOf (a : Nat) : Option Nat := if 0x10000 ≤ a ∧ a < 0x390000 then some 0 else if 0x390000 ≤ a ∧ a < 0x710000 then some 1 else none

/-- Whether Table 18-1 permits program and erase at offset `a`. -/
def flashPermitted (s : State) (a : Nat) : Bool :=
  if a < 0x10000 then false
  else if a < 0x710000 then decide (s.boot.slot ≠ slotOf a)
  else if a < 0x7F0000 then true
  else decide (lifeCycle s ≤ 1) && decide (a < 0x800000)

/-- Whether the granule at offset `a` is erased. -/
def granuleErased (s : State) (a : Nat) : Bool :=
  !granuleTorn s (a / 16) && (List.range 16).all fun k => decide (flashByte s (a + k) = 0xFF#8)

/-- Program a granule with 16 bytes. -/
def flashPut (s : State) (a : Nat) (bs : List Byte) : State :=
  { s with boot := { s.boot with
      flash := bs.zipIdx.foldl (fun m x => Cells.write flashErased m (a + x.2) x.1) s.boot.flash,
      torn := Cells.write (fun _ => false) s.boot.torn (a / 16) false } }

/-- Erase the block of offset `a`. -/
def flashErase (s : State) (a : Nat) : State :=
  { s with boot := { s.boot with
      flash := Cells.keep (fun x => decide (x / 65536 ≠ a / 65536)) s.boot.flash,
      torn := Cells.keep (fun g => decide (g / 4096 ≠ a / 65536)) s.boot.torn } }

/-- The granule bytes in FL_DATA0 to FL_DATA3. -/
def flData (s : State) : List Byte := (List.range 4).flatMap fun i => leBytes (s.reg (Reg.FL_DATA i)) 4

/-- What keeps an operation from being performed: FL_STATUS flags PROTECT, NOT_ERASED and ALIGN (R416, Table 18-10). -/
def flashRefusal (s : State) (erase : Bool) (a : Nat) : Nat :=
  let align := decide (a % (if erase then 65536 else 16) ≠ 0)
  (if s.bit Reg.FL_STATUS 0 || !flashPermitted s a then 2 else 0) + (if align then 8 else 0)
    + (if !erase && !align && !granuleErased s a then 4 else 0)

/-- An FL_CMD operation by a master (R416, R417): whether the response is an error, and the state. -/
def flashCommand (s : State) (master : Nat) (erase : Bool) : Bool × State :=
  if master ≠ masterCcD then (true, s.raise Reg.SYS_STATUS 16#32)
  else
    let a := s.fld Reg.FL_ADDR 0 23
    let r := flashRefusal s erase a
    if r ≠ 0 then (false, s.raise Reg.FL_STATUS (BitVec.ofNat 32 r))
    else
      let s1 := (if erase then flashErase s a else flashPut s a (flData s)).raise Reg.FL_STATUS 1#32
      (false, { s1 with boot := { s1.boot with op := some (a, erase) } })

/-- The physical block that holds logical block `b`: the newest entry of the spare-sector table, or the block's own number (R415). -/
def flashPhys (s : State) (b : Nat) : Nat :=
  match s.boot.spareTable.reverse.find? fun e => decide (e.1 = b) with
  | some e => e.2
  | none => b

/-! ### Slots and markers (R418 to R420) -/

/-- Whether the marker granule at offset `o` of slot `k` reads set: all 16 bytes its code; a torn one as Table 18-3 gives. -/
def marker (s : State) (k o : Nat) (code : Byte) (torn : Bool) : Bool :=
  let b := (List.range 16).map fun i => flashByte s (slotBase k + o + i)
  if granuleTorn s ((slotBase k + o) / 16) then torn
  else if b.all fun x => decide (x = code) then true
  else if b.all fun x => decide (x = 0xFF#8) then false
  else torn

/-- The attempt granules that are set, by number. -/
def attempts (s : State) (k : Nat) : List Nat := (List.range 8).filter fun i => marker s k (0x140 + 16 * i) 0xB0#8 true

/-- Whether a slot is retired, confirmed, or a candidate: valid and not retired. -/
def slotRetired (s : State) (k : Nat) : Bool := marker s k 0x130 0xF0#8 true
def slotConfirmed (s : State) (k : Nat) : Bool := marker s k 0x120 0xE0#8 true
def slotCandidate (s : State) (k : Nat) : Bool :=
  marker s k 0x100 0xC0#8 false && marker s k 0x110 0xD0#8 false && !slotRetired s k

/-- Program a marker granule. -/
def putMarker (s : State) (k o : Nat) (code : Byte) : State := flashPut s (slotBase k + o) (List.replicate 16 code)

/-- SEQ of slot `k`. -/
def slotSeq (s : State) (k : Nat) : BitVec 32 := leWord ((List.range 4).map fun i => flashByte s (slotBase k + 8 + i))

/-- Serial-number order: slot `a` is newer than slot `b` (R424). -/
def newer (s : State) (a b : Nat) : Bool := let d := (slotSeq s a - slotSeq s b).toNat; decide (1 ≤ d) && decide (d < 2 ^ 31)

/-- Retire the other slot when it is a candidate and `k` is newer than it (R425). -/
def retireOlderOther (s : State) (k : Nat) : State :=
  if slotCandidate s (1 - k) && newer s k (1 - k) then putMarker s (1 - k) 0x130 0xF0#8 else s

/-! ### The checks of R423 -/

/-- An image in slot layout: its bytes by offset, and how many bytes there are room for. -/
structure ImageView where
  byte : Nat → Byte
  room : Nat

/-- The image of slot `k`. -/
def slotImage (s : State) (k : Nat) : ImageView := ⟨fun o => flashByte s (slotBase k + o), 0x380000⟩

/-- An image in the yard at byte offset `o` (R433). -/
def yardImage (s : State) (o : Nat) : ImageView :=
  ⟨fun i => wordByte (eccWord (s.mark ((o + i) / 4)) (Cells.get s.yard ((o + i) / 4))) ((o + i) % 4), 0x2000000 - o⟩

/-- The ECC events of stage 0's reads of yard bytes `o` to `o + n - 1` (R380). -/
def yardImageEcc (s : State) (o n : Nat) : State :=
  ((Cells.keys s.ecc).filter fun w => decide (o / 4 ≤ w) && decide (w ≤ (o + n - 1) / 4)).foldl (fun t w => yardEcc t (s.mark w) w) s

/-- Bytes of an image, and a little-endian field of its header. -/
def ImageView.bytes (v : ImageView) (o n : Nat) : List Byte := (List.range n).map fun i => v.byte (o + i)
def ImageView.field (v : ImageView) (o n : Nat) : Nat := leVal (v.bytes o n)

/-- Check row 1: the header's form. -/
def headerOk (v : ImageView) : Bool :=
  let len := v.field 0x0C 4
  let entry := v.field 0x14 4
  decide (v.field 0 4 = 0x4B545331) && decide (v.field 4 2 = 1) && decide (v.byte 7 = 0#8)
    && ((v.bytes 0x18 8 ++ v.bytes 0xC0 64).all fun b => decide (b = 0#8))
    && decide (16 ≤ len) && decide (len ≤ 3669504) && decide (len % 16 = 0) && decide (0x200 + len ≤ v.room)
    && decide (entry % 16 = 0) && decide (entry < len)

/-- Check rows 3 and 4: the key is programmed, not revoked, and the public key hashes to it. -/
def keyOk (s : State) (k : Nat) (pub : List Byte) : Bool :=
  match vget s.boot.keys k none with
  | some h => !s.boot.revoked.getLsbD k && decide (beVal (sha256 pub) = h.toNat)
  | none => false

/-- The checks of Table 18-4, in their states. -/
def checksPass (s : State) (v : ImageView) : Bool :=
  if headerOk v then
    let body := v.bytes 0x200 (v.field 0x0C 4)
    if decide ((crc32c body).toNat = v.field 0x10 4) then
      if lifeCycle s = 2 ∨ lifeCycle s = 3 then
        let digest := v.bytes 0x20 32
        decide (v.field 6 1 < 4) && keyOk s (v.field 6 1) (v.bytes 0x80 64)
          && decide (sha256 (v.bytes 0 0x20 ++ body) = digest) && ecdsaVerify digest (v.bytes 0x40 64) (v.bytes 0x80 64)
      else true
    else false
  else false

/-! ### Mirrors of the one-time-programmable memory -/

/-- BOOT_OTP and LC_STATE, as the one-time-programmable memory stands. -/
def otpShow (s : State) : State :=
  let present := (List.range 4).foldl (fun n k => if (vget s.boot.keys k none).isSome then n + 2 ^ k else n) 0
  (s.setReg Reg.BOOT_OTP (BitVec.ofNat 32 (present + s.boot.revoked.toNat * 16 + if s.boot.wipeDone then 256 else 0))).setFld
    Reg.BOOT_STATUS 16 3 s.boot.lc.toNat

/-- Whether every tack-room access is turned away: a wipe runs or TAMPER_N is low (R392). -/
def tackShut (s : State) : Bool := s.bit Reg.MEM_STATUS 9 || s.power.tamperLow

/-- Record a refused tack-room access. -/
def tackReject (s : State) : State := s.raise Reg.MEM_STATUS 0x20#32

/-- Wipe the tack room (R392): all zero, WLOCK 0. At a transition that stage 0 records, the wipe's 1,024 cycles are over within the step
that stage 0 takes, long before it uses the room again (DEDUCED, log entry 112). -/
def tackWipe (s : State) : State :=
  { s.setReg Reg.TACK_CTRL 0#32 with boot := { s.boot with tack := [], tackEcc := [] } }

/-! ### Stage 0 (R421, R422) -/

/-- The erase on entry to RETURNED: both slots and the journal, then WIPE_DONE (R436). -/
def returnedErase (s : State) : State :=
  if s.boot.lc = 3#3 ∧ s.boot.wipeDone = false then
    { s with boot := { s.boot with flash := Cells.keep (fun a => decide (a < 0x10000) || decide (0x7F0000 ≤ a)) s.boot.flash,
                                   torn := Cells.keep (fun g => decide (g < 0x1000) || decide (0x7F000 ≤ g)) s.boot.torn,
                                   wipeDone := true } }
  else s

/-- Whether Table 18-7 lets a pending request be carried out. -/
def lcAllowed (s : State) (target : Nat) (unlocked : Bool) : Bool :=
  if target = 4 then decide (lifeCycle s < 4)
  else if lifeCycle s = 0 then decide (target = 1)
  else if lifeCycle s = 1 then decide (target = 2) && ((List.range 4).any fun k => (vget s.boot.keys k none).isSome && !s.boot.revoked.getLsbD k)
  else if lifeCycle s = 2 then decide (target = 3) && unlocked
  else false

/-- Step 2: a pending life-cycle request (R435, R436). -/
def stageLifeCycle (s : State) : State :=
  let s1 := match s.boot.lcReq with
    | none => s
    | some (t, u) =>
      let s0 := { s with boot := { s.boot with lcReq := none } }
      if lcAllowed s t.toNat u then tackWipe { s0 with boot := { s0.boot with lc := t } }
      else s0.raise Reg.BOOT_STATUS 0x1000#32
  returnedErase s1

/-- The bytes of DBG_RESP words `i` to `i + n - 1`. -/
def respBytes (s : State) (i n : Nat) : List Byte := (List.range n).flatMap fun k => leBytes (s.reg (Reg.DBG_RESP (i + k))) 4

/-- The unlock check against the challenge in force before the reset (R438). -/
def unlockOk (s : State) : Bool :=
  let chal := (List.range 8).flatMap fun k => leBytes (s.reg (Reg.DBG_CHAL k)) 4
  let pub := respBytes s 16 16
  keyOk s (s.fld Reg.DBG_CTL 0 2) pub && ecdsaVerify (sha256 (chal ++ leNat 16 s.boot.devId.toNat)) (respBytes s 0 16) pub

/-- Draw a new challenge (R438): eight free words. -/
def drawChallenge (s : State) : State :=
  (List.range 8).foldl (fun t k => let r := t.takeFree; r.2.setReg (Reg.DBG_CHAL k) (Config.freeChallenge r.1)) s

/-- Step 3: the debug port for the state, and the unlock (R437, R438). The session that an unlock opened ends with the reset. -/
def stageDebug (s : State) : State :=
  let ok := s.boot.dbgReq && decide (lifeCycle s = 2) && unlockOk s
  let s1 := (s.setBit Reg.BOOT_STATUS 13 ok).setBit Reg.BOOT_STATUS 14 (if s.boot.dbgReq then !ok else s.bit Reg.BOOT_STATUS 14)
  let opened := decide (lifeCycle s ≤ 1) || ok || (decide (lifeCycle s = 3) && s.boot.wipeDone)
  drawChallenge { s1.setBit Reg.BOOT_STATUS 19 opened with boot := { s1.boot with dbgReq := false } }

/-- Word `i` that the factory area gives stage 0: a function of what is programmed there, so that an area left alone gives every reset
the same words. -/
def factoryWord (s : State) (i : Nat) : BitVec 32 :=
  Config.freeFactory (Cells.keep (fun a => decide (0x7F0000 ≤ a)) s.boot.flash) (Cells.keep (fun g => decide (0x7F000 ≤ g)) s.boot.torn) i

/-- Step 4: the band table's entries 0 (48 kHz family) and 1 (44.1 kHz family), whose targets the table of the clocks fixes, the PCIe
Subsystem IDs and the calibration values, from the factory area (R283, R346, R421). -/
def stageFactory (s : State) : State :=
  let t := [(Reg.MPLL_BAND 0, factoryWord s 0 &&& 0x8003FF3F#32), (Reg.MPLL_BANDF 0, 7864320#32),
    (Reg.MPLL_BAND 1, factoryWord s 1 &&& 0x8003FF3F#32), (Reg.MPLL_BANDF 1, 7225344#32)].foldl (fun t e => t.setReg e.1 e.2) s
  { t with host := { t.host with subIds := factoryWord s 2 }, boot := { t.boot with calibration := factoryWord s 3 } }

/-- Fill and lock the tack room (R422); `image` says that an image starts. While every access of the room is turned away the writes are not
performed, and the room stays as the wipe left it (R392). -/
def tackFill (s : State) (image : Bool) : State :=
  let words := if image && (decide (lifeCycle s = 1) || decide (lifeCycle s = 2)) then
      s.boot.secrets.toList ++ (List.range 4).map fun k => s.boot.devId.extractLsb' (32 * k) 32
    else []
  let t := s.setReg Reg.TACK_CTRL 1#32
  if tackShut s then tackReject t else { t with boot := { t.boot with tack := Cells.setAll [] 0 words, tackEcc := [] } }

/-- Enter SAFE in stage 0 with a SAFE_REASON (R431, R432). -/
def stageSafe (s : State) (reason : Nat) : State :=
  let s0 := tackFill s false
  let s1 := { s0 with cc := { s0.cc with held := false } }
  ((((s1.setFld Reg.BOOT_STATUS 0 8 (3 + 128)).setReg Reg.BOOT_SAFE (BitVec.ofNat 32 reason)).setReg Reg.BOOT_SEQ 0#32).raise
    Reg.HOST_CTRL 2#32).raise Reg.CSP_SL_CFG 8#32

/-- The control core fetches from byte address `a`, out of reset. -/
def ccStart (s : State) (a : Nat) : State :=
  { s with basin := vmod s.basin 9 (fun e => { e with pc := BitVec.ofNat 32 a }), cc := { s.cc with held := false } }

/-- Note which image BOOT_FAILCNT counts: a different image clears it (R426). -/
def noteImage (s : State) (k : Nat) (seq : BitVec 32) : State :=
  if s.boot.failSlot = some (k, seq) then s
  else { s.setReg Reg.BOOT_FAILCNT 0#32 with boot := { s.boot with failSlot := some (k, seq) } }

/-- Slot `k`'s image runs, signed with key `key`, and the start watchdog with it (R426). -/
def imageRuns (s : State) (k key : Nat) : State :=
  { s with boot := { s.boot with slot := some k, key := some key, armed := true } }

/-- Start slot `k` (R421 step 7): status, start watchdog, branch. -/
def startSlot (s : State) (k : Nat) (trial : Bool) : State :=
  let v := slotImage s k
  let s1 := noteImage (tackFill s true) k (slotSeq s k)
  let s2 := (s1.setFld Reg.BOOT_STATUS 0 8 (k + (if trial then 4 else 0) + (attempts s k).length * 8)).setReg Reg.BOOT_SEQ (slotSeq s k)
  ccStart (imageRuns (s2.setReg Reg.BOOT_SAFE 0#32) k (v.field 6 1)) (slotBase k + 0x200 + v.field 0x14 4)

/-- A normal start of a confirmed slot, or SAFE after three failed starts of it (R425, R426): a tie orders slot A first, so slot A
alone is chosen by it. -/
def startNormal (s : State) (k : Nat) : State :=
  let s1 := retireOlderOther s k
  if s1.boot.failSlot = some (k, slotSeq s1 k) ∧ 3 ≤ s1.fld Reg.BOOT_FAILCNT 0 4 then
    stageSafe s1 (if s1.bit Reg.BOOT_STATUS 8 ∧ k = 0 then 9 else 4)
  else startSlot s1 k false

/-- The selection of R425 over the candidates in order; `none` at the end enters SAFE with the reason given. -/
def stageSelect (s : State) (reason : Nat) : List Nat → State
  | [] => stageSafe s reason
  | k :: rest =>
    if checksPass s (slotImage s k) then
      if slotConfirmed s k then startNormal s k
      else if 3 ≤ (attempts s k).length then
        stageSelect ((putMarker s k 0x130 0xF0#8).raise Reg.BOOT_STATUS 0x800#32) 3 rest
      else
        let free := (List.range 8).find? fun i => !marker s k (0x140 + 16 * i) 0xB0#8 true
        startSlot (match free with | some i => putMarker s k (0x140 + 16 * i) 0xB0#8 | none => s) k true
    else stageSelect (s.raise Reg.BOOT_STATUS (if k = 0 then 0x200#32 else 0x400#32)) reason rest

/-- The candidates, newest first, and whether they tie (R424). -/
def slotOrder (s : State) : List Nat × Bool :=
  let c := [0, 1].filter (slotCandidate s)
  if c.length = 2 then (if newer s 1 0 then ([1, 0], false) else ([0, 1], !newer s 0 1)) else (c, false)

/-- The SAFE_REASON that the reset reason or the state requires, the lowest row of Table 18-6 first (R431). -/
def safeRequired (s : State) : Option Nat :=
  if s.boot.otpFault ∨ lifeCycle s = 4 then some 6
  else if s.fld Reg.PWR_RST 0 8 = rstClock then some 7
  else s.boot.safeReq.map BitVec.toNat

/-- Stage 0 (R421). -/
def stage0 (s : State) : State :=
  let s1 := otpShow (stageFactory (stageDebug (stageLifeCycle s)))
  match safeRequired s1 with
  | some r => stageSafe { s1 with boot := { s1.boot with safeReq := none } } r
  | none =>
    let o := slotOrder s1
    let s2 := (s1.setFld Reg.BOOT_STATUS 8 4 (if o.2 then 1 else 0))
    stageSelect s2 (if o.1.isEmpty then 1 else 2) o.1

/-- Whether the device is in SAFE. -/
def inSafe (s : State) : Bool := s.bit Reg.BOOT_STATUS 7

/-- RESET_RELEASE (R389, R489): reset is released, the clear starts unless the memories were kept, and stage 0 runs. -/
def resetRelease (s : State) : State :=
  if s.power.phase = .held then
    let code := s.fld Reg.PWR_RST 0 8
    let s1 := { s with power := { s.power with phase := .running } }
    stage0 (if retain s ∧ rstDebugUnlock ≤ code ∧ code ≠ rstRail then rtcGap s1 else (rtcGap s1).raise Reg.MEM_STATUS 0x100#32)
  else s

/-! ### Starts, SAFE and the life cycle -/

/-- STARTED (R426, R495): an image writes it. -/
def bootStart (s : State) : State :=
  if s.boot.slot.isSome then
    { s.setReg Reg.BOOT_FAILCNT 0#32 with boot := { s.boot with armed := false }, power := { s.power with started := true } }
  else s

/-- CONFIRM (R427): only a trial image. -/
def bootConfirm (s : State) : State :=
  match s.boot.slot with
  | some k =>
    if s.bit Reg.BOOT_STATUS 2 then
      (bootStart (retireOlderOther (putMarker s k 0x120 0xE0#8) k)).setBit Reg.BOOT_STATUS 2 false
    else s
  | none => s

/-- A write of BOOT_SAFE_REQ (R430). -/
def bootSafeReq (s : State) (v : BitVec 32) : State :=
  let r := (v.extractLsb' 0 8).toNat
  if v.extractLsb' 24 8 = 0xA5#8 ∧ (r = 5 ∨ r = 7 ∨ r = 8) then safeNow s r else s

/-- A write of BOOT_LC_REQ (R435): a later request replaces a pending one. -/
def bootLcReq (s : State) (v : BitVec 32) : State :=
  let t := (v.extractLsb' 0 3).toNat
  if v.extractLsb' 16 16 = 0x4C43#16 ∧ lifeCycle s < t ∧ t ≤ 4 then
    { s.setBit Reg.BOOT_STATUS 12 false with boot := { s.boot with lcReq := some (BitVec.ofNat 3 t, s.bit Reg.BOOT_STATUS 13) } }
  else s.raise Reg.BOOT_STATUS 0x1000#32

/-- A write of DBG_CTL (R438): REQ enters warm reset with reason "debug unlock". -/
def dbgCtlWrite (s : State) (key : BitVec 2) (req : Bool) : State :=
  let s1 := s.setFld Reg.DBG_CTL 0 2 key.toNat
  if req then warmReset { s1 with boot := { s1.boot with dbgReq := true } } rstDebugUnlock else s1

/-- Record a write to an LC field that the life-cycle state does not permit (R9). -/
def lcReject (s : State) : State := s.raise Reg.SYS_STATUS 1#32

/-- The device secrets, which are programmed through BOOT_OTP_CMD in BLANK and DEVELOP (R439). No field of the register selects them, so
each performed PROG_HASH leaves every word of them free (DESIGN CHOICE, log entry 113). -/
def progSecrets (s : State) : State :=
  let f := s.takeFree
  { f.2 with boot := { f.2.boot with secrets := Vector.ofFn fun i => Config.freeSecret f.1 i.val } }

/-- PROG_HASH of key `k` (R439). -/
def progHash (s : State) (k : Nat) : State :=
  if 1 < lifeCycle s then lcReject s
  else if (vget s.boot.keys k none).isSome then s.raise Reg.BOOT_STATUS 0x100000#32
  else progSecrets (otpShow { s with boot := { s.boot with keys := vset s.boot.keys k (some (BitVec.ofNat 256 (beVal (respBytes s 0 8)))) } })

/-- REVOKE of key `k` (R439). An image whose KEY_IDX names no key of the four, as the states without check row 3 let start, protects none. -/
def revokeKey (s : State) (k : Nat) : State :=
  if lifeCycle s ≠ 1 ∧ lifeCycle s ≠ 2 then lcReject s
  else if s.boot.key = some k then s.raise Reg.BOOT_STATUS 0x100000#32
  else otpShow { s with boot := { s.boot with revoked := s.boot.revoked ||| BitVec.ofNat 4 (2 ^ k) } }

/-- Hand the banks that byte range `o` to `o + n - 1` of the yard covers to the control core (R433). -/
def banksToCc (s : State) (o n : Nat) : State :=
  (List.range 32).foldl (fun t b =>
    if o / 0x100000 ≤ b ∧ b ≤ (o + n - 1) / 0x100000 then t.setReg (Reg.MEM_BANK_OWNER b) 0x10001#32 else t) s

/-- Stage 0 checks the image at BOOT_RUN's offset in place and starts it, or sets RUN_ERR (R433, R434). The room that SAFE's entry filled
stands while its lock does; after a wipe that cleared the lock it is filled and locked again (R421 step 7). -/
def bootGo (s : State) : State :=
  let o := s.fld Reg.BOOT_RUN 0 25 / 256 * 256
  let v := yardImage s o
  let s1 := if lifeCycle s = 4 then s else yardImageEcc s o (if headerOk v then 0x200 + v.field 0x0C 4 else 0x100)
  if lifeCycle s ≠ 4 ∧ checksPass s v = true then
    let seq := BitVec.ofNat 32 (v.field 8 4)
    let s2 := noteImage (banksToCc (if s1.bit Reg.TACK_CTRL 0 then s1 else tackFill s1 false) o (0x200 + v.field 0x0C 4)) 2 seq
    let s3 := ((s2.setFld Reg.BOOT_STATUS 0 8 2).setReg Reg.BOOT_SEQ seq).setReg Reg.BOOT_SAFE 0#32
    ccStart { s3 with boot := { s3.boot with slot := some 2, key := some (v.field 6 1) },
                      power := { s3.power with started := true } } (0x10000000 + o + 0x200 + v.field 0x14 4)
  else s1.raise Reg.BOOT_STATUS 0x8000#32

/-- A write of BOOT_RUN (R433): GO acts only in SAFE, and while the yard is being cleared stage 0's reads of it wait (R389). -/
def bootRun (s : State) (offset : BitVec 25) (go : Bool) : State :=
  let s0 := s.setReg Reg.BOOT_RUN (offset.zeroExtend 32)
  if go ∧ inSafe s = true then
    if memClearing s then { s0 with boot := { s0.boot with goWait := true } } else bootGo s0
  else s0

/-! ### The commands -/

/-- RESET_RELEASE (R489, R421). -/
def execResetRelease (s : State) : Out := done (resetRelease s)

/-- CONFIRM (R427). -/
def execBootConfirm (s : State) : Out := done (bootConfirm s)

/-- START_TIMEOUT (R426). -/
def execStartTimeout (s : State) : Out := done (if s.boot.armed then warmReset s rstStartTimeout else s)

/-- BOOT_SAFE_REQ (R430). -/
def execBootSafeReq (v : BitVec 32) (s : State) : Out := done (bootSafeReq s v)

/-- GO (R433). -/
def execBootGo (offset : BitVec 25) (s : State) : Out := done (bootRun s offset true)

/-- BOOT_LC_REQ (R435). -/
def execBootLcReq (v : BitVec 32) (s : State) : Out := done (bootLcReq s v)

/-- REQ (R438). -/
def execDbgReq (key : BitVec 2) (s : State) : Out := done (dbgCtlWrite s key true)

/-- PROG_HASH (R439). -/
def execProgHash (k : Fin 4) (s : State) : Out := done (progHash s k.val)

/-- REVOKE (R439). -/
def execRevoke (k : Fin 4) (s : State) : Out := done (revokeKey s k.val)

/-- PROGRAM_GRANULE (R416, R417): `master` is the master that writes FL_CMD. -/
def execProgramGranule (master : Fin 18) (s : State) : Out := done (s.asked master.val Reg.FL_CMD 1#32 (flashCommand s master.val false))

/-- ERASE_BLOCK (R416, R417). -/
def execEraseBlock (master : Fin 18) (s : State) : Out := done (s.asked master.val Reg.FL_CMD 2#32 (flashCommand s master.val true))

end Sys2Proof.Machine
end

