-- ==== Sys2Proof/Machine/HostLink.lean ====
section
/-! DEFINITION. The host interface: ring enables, doorbells, the link, moderation and the host audio rings (chapter 15). -/
namespace Sys2Proof.Machine

/-! ### Rings (R350 to R353) -/

/-- Whether ring `r` exists (Table 15-3). -/
def ringExists (r : Nat) : Bool := decide (r ≠ 3) && decide (r < 54)

/-- Whether any ring is enabled. -/
def anyRingEn (s : State) : Bool := (List.range 64).any (ringEn s)

/-- Record a refused configuration (R353). -/
def cfgReject (s : State) : State := s.raise Reg.HOST_STATUS 0x8000#32

/-- What refuses an enable of ring `r` (R353, Table 15-12). -/
def ringEnableBad (s : State) (r : Nat) : Bool :=
  let size := ringSize s r
  !ringExists r || decide (size < 16) || decide (4096 < size)
    || decide ((s.reg (Reg.RING_BASE_LO r)).toNat % min 4096 (32 * size) ≠ 0)
    || (inSafe s && decide (1 < r))
    || (decide (4 ≤ r) && decide (r < 20) && decide (128 < s.fld (Reg.RING_AUD (r - 4)) 0 7 + s.fld (Reg.RING_AUD (r - 4)) 8 7 + 1))

/-- Audio ring `a` (0 to 7 AIN, 8 to 15 AOUT). -/
def audAt (s : State) (a : Nat) : AudRing := vget s.host.aud a AudRing.zero
def putAud (s : State) (a : Nat) (x : AudRing) : State := { s with host := { s.host with aud := vset s.host.aud a x } }

/-- Audio ring `a` is enabled: numbering starts anew, and period 0 begins at the next frame tick. Its stalls stay claimed until then. -/
def audRestart (s : State) (a : Nat) : State := putAud s a { AudRing.zero with on := (audAt s a).on, fresh := true }

/-- The port and queue that transmit ring `r` feeds. -/
def txQueueOf (r : Nat) : Option (Nat × Nat) :=
  if 20 ≤ r ∧ r < 28 then some (0, r - 20) else if 36 ≤ r ∧ r < 44 then some (1, r - 36) else if r = 52 then some (2, 0) else none

/-- The frames of transmit queue `q` that wait for their write-back. -/
def txOwed (s : State) (p q : Nat) : List TxEntry := (vget (vget s.eth p EthPort.zero).txq q []).filter TxEntry.ring

/-- The frames that transmit ring `r` gave its queue are sent without a write-back: the slots that held their descriptors are gone. -/
def ringDetach (s : State) (r : Nat) : State :=
  match txQueueOf r with
  | some (p, q) =>
    let x := vget s.eth p EthPort.zero
    { s with eth := vset s.eth p { x with txq := vset x.txq q ((vget x.txq q []).map fun e => { e with ring := false }) } }
  | none => s

/-- An accepted enable (R353): PI and CI 0, the mirror entry 0, STOPPED clear; an AOUT ring loads the dither LFSR (R61), and an audio ring
waits for its frame tick (R365). -/
def ringEnable (s : State) (r : Nat) : State :=
  let s1 := ((s.setBit (Reg.RING_CFG r) 0 true).setReg (Reg.HOST_DOORBELL r) 0#32).setFld (Reg.RING_STATE r) 0 16 0
  let s2 := { s1.setBit (Reg.RING_STATE r) 17 false with host := { s1.host with stopping := s1.host.stopping &&& ~~~(BitVec.ofNat 64 (2 ^ r)) } }
  let s3 := ringDetach (hostPut s2 (mirrorAddr s2 r) (leNat 4 0)) r
  let s4 := if 4 ≤ r ∧ r < 20 then audRestart s3 (r - 4) else s3
  if 12 ≤ r ∧ r < 20 then { s4 with host := { s4.host with lfsr := lfsrSeed (s4.reg Reg.HOST_NOISE_SEED) } } else s4

/-- A write of RING_CFG (R353): whether the response is an error, and the state. -/
def ringCfgWrite (s : State) (r : Nat) (v : BitVec 32) : Bool × State :=
  let size := (v.extractLsb' 2 4).toNat
  let plain := ((s.setBit (Reg.RING_CFG r) 1 (v.getLsbD 1)).setFld (Reg.RING_CFG r) 6 5 (v.extractLsb' 6 5).toNat).setFld
    (Reg.RING_CFG r) 16 8 (v.extractLsb' 16 8).toNat
  if ringEn s r then
    let s1 := if v.getLsbD 0 then plain
      else { plain.setBit (Reg.RING_CFG r) 0 false with host := { plain.host with stopping := plain.host.stopping ||| BitVec.ofNat 64 (2 ^ r) } }
    if size = s.fld (Reg.RING_CFG r) 2 4 then (false, s1) else (true, cfgReject s1)
  else
    let s1 := plain.setFld (Reg.RING_CFG r) 2 4 size
    if v.getLsbD 0 then (if ringEnableBad s1 r then (false, cfgReject s1) else (false, ringEnable s1 r)) else (false, s1)

/-- RING_STOPPED (R353): the work that a ring had started when a write cleared its EN is complete. A command held in execution, or an audio period in
progress, or a frame not yet sent, keeps the ring from stopping. -/
def ringStopped (s : State) (r : Nat) : State :=
  if s.host.stopping.getLsbD r = false ∨ ringEn s r ∨ (r = 0 ∧ s.host.held.isSome)
      ∨ (4 ≤ r ∧ r < 20 ∧ ((vget s.host.aud (r - 4) AudRing.zero).on = true ∨ (vget s.host.aud (r - 4) AudRing.zero).ended ≠ []))
      ∨ (txQueueOf r).any (fun x => !(txOwed s x.1 x.2).isEmpty) = true then s
  else
    let s1 := (hostPut s (mirrorAddr s r) (leNat 4 (ringCi s r))).setBit (Reg.RING_STATE r) 17 true
    { s1 with host := { s1.host with stopping := s1.host.stopping &&& ~~~(BitVec.ofNat 64 (2 ^ r)) } }

/-! ### Host audio rings (R365 to R369) -/

/-- The fields of RING_AUD: BASE, CH, PERIOD, the bytes' format. -/
def audBase (s : State) (a : Nat) : Nat := s.fld (Reg.RING_AUD a) 0 7
def audCh (s : State) (a : Nat) : Nat := s.fld (Reg.RING_AUD a) 8 7 + 1
def audPeriod (s : State) (a : Nat) : Nat := 16 * (s.fld (Reg.RING_AUD a) 16 8 + 1)
def audBits (s : State) (a : Nat) : Nat := if s.bit (Reg.RING_AUD a) 7 then 24 else 32

/-- Whether audio rings wait (R369). -/
def audWaits (s : State) : Bool := s.host.waits || pllAway s

/-- Whether audio ring `a` plays or captures: in service, and audio rings do not wait (R365, R369). -/
def audRuns (s : State) (a : Nat) : Bool := (audAt s a).on && !(audAt s a).fresh && !audWaits s

/-- A little-endian field of a descriptor. -/
def descField (d : List Byte) (o n : Nat) : Nat := leVal ((d.drop o).take n)

/-- Write back an audio descriptor (R366): the period's first media count, the flags of byte 24 and the count; then advance. -/
def audWriteBack (s : State) (a : Nat) (start : BitVec 64) (flags count : Nat) : State :=
  ringAdvance (hostPut s (ringSlot s (4 + a) (ringCi s (4 + a)) + 16)
    (leDwords [start.toNat % 2 ^ 32, start.toNat / 2 ^ 32, flags, count])) (4 + a)

/-- Count a LATE (AIN) or OVERRUN (AOUT) period. -/
def audCount (s : State) (a : Nat) : State := s.count (Reg.RING_AUDCNT a) (if a < 8 then 0 else 16) 16 1

/-- Write back the descriptors of periods that ended without them, as they are produced (R367, R368). -/
def audOwed (s : State) (a : Nat) : Nat → State
  | 0 => s
  | n + 1 =>
    match (audAt s a).owed with
    | (_, start) :: rest =>
      if ringReady s (4 + a) = 0 ∨ (audAt s a).ended ≠ [] then s
      else
        let s1 := putAud s a { audAt s a with owed := rest }
        audOwed (audWriteBack s1 a start (if a < 8 then 3 else 5) 0) a n
    | [] => s

/-- Close the AIN period in progress: its descriptor is written back DONE with the samples delivered (R366, R369). -/
def ainClose (s : State) (a : Nat) (interrupted : Bool) : State :=
  let x := audAt s a
  if x.begun then
    let s1 := putAud s a { x with begun := false, period := x.period + 1, pos := 0, data := none }
    match x.data with
    | some _ => audWriteBack s1 a x.start (1 + if interrupted then 8 else 0) x.pos
    | none => s1
  else s

/-- Open the next AIN period (R367): its data plays if all of it has arrived; otherwise it plays zero and its descriptor is
written back with LATE, at once when it is produced. -/
def ainOpen (s : State) (a : Nat) : State :=
  let x := audAt s a
  let need := 4 * audCh s a * audPeriod s a
  let got := x.fetched.find? fun e => e.1 = x.period && decide (e.2.length = need)
  let y := { x with begun := true, pos := 0, start := s.tick.media, fetched := x.fetched.filter fun e => decide (x.period < e.1) }
  match got with
  | some e => putAud s a { y with data := some e.2 }
  | none =>
    let s1 := audCount (putAud s a { y with data := none, owed := y.owed ++ [(x.period, s.tick.media)] }) a
    audOwed s1 a (audAt s1 a).owed.length

/-- AIN_PERIOD_START (R367): close the period that ended and open the next; a ring whose EN reads 0 leaves service instead. -/
def ainStart (s : State) (a : Nat) : State :=
  let x := audAt s a
  if audRuns s a && (!x.begun || decide (audPeriod s a ≤ x.pos)) then
    let s1 := ainClose s a false
    if ringEn s1 (4 + a) then ainOpen s1 a else putAud s1 a AudRing.zero
  else s

/-- Whether, in local mode, the descriptor in slot `i` after CI of AIN ring `a`, or its data, waits (R385, R389). -/
def ainHolds (s : State) (a i : Nat) : Bool :=
  let slot := ringSlot s (4 + a) (ringCi s (4 + a) + i)
  hostHolds s masterHost slot 32 ||
    (hostLocal s && hostHolds s masterHost (descField (hostGet s masterHost slot 32 [] false).1 0 8) (4 * audCh s a * audPeriod s a))

/-- The data of the descriptor in slot `i` after CI of AIN ring `a`: `given` is what host memory holds of it, and the yard of local mode
is read for the descriptor first. Nothing says that a read failed (R373, Table 15-4); a descriptor that cannot be read stops the ring. -/
def ainData (s : State) (a i : Nat) (given : List Byte) : Option (List Byte) × State :=
  if hostLocal s then
    let d := hostGet s masterHost (ringSlot s (4 + a) (ringCi s (4 + a) + i)) 32 [] false
    if d.2.1 then (none, ringFail d.2.2 (4 + a))
    else
      let f := hostGet d.2.2 masterHost (descField d.1 0 8) (4 * audCh s a * audPeriod s a) [] false
      (some (if f.2.1 then [] else f.1), f.2.2)
  else (some given, tagsNote (tagsNote s true 32) true (4 * audCh s a * audPeriod s a))

/-- AIN_DESCRIPTOR_FETCH (R367): the data of the next descriptor that is produced and whose period less 2 has begun. -/
def ainFetch (s : State) (a : Nat) (data : List Byte) : State :=
  let x := audAt s a
  let low := if x.begun then x.period + 1 else x.period
  let behind := x.owed.length + if x.begun && x.data.isSome then 1 else 0
  let produced := low + (ringReady s (4 + a) - behind)
  match (List.range 2).find? fun i => decide (low + i < produced) && !(x.fetched.any fun e => e.1 = low + i) with
  | some i =>
    if ainHolds s a (behind + i) then s
    else
    let r := ainData s a (behind + i) data
    match r.1 with
    | some d => putAud r.2 a { audAt r.2 a with fetched := (audAt r.2 a).fetched ++ [(low + i, d)] }
    | none => r.2
  | none => s

/-- Play one tick of AIN ring `a` (R367): zero while it waits, between periods, or for a late period. -/
def ainSample (s : State) (a : Nat) : State :=
  let x := audAt s a
  if x.on then
    let s1 := (List.range (audCh s a)).foldl (fun t c =>
      let w := match x.data with
        | some d => if x.begun && audRuns s a then
            pcmIn (audBits s a) (BitVec.ofNat 32 (leVal ((d.drop (4 * (x.pos * audCh s a + c))).take 4))) else 0#36
        | none => 0#36
      portWrite t (904 + audBase s a + c) w) s
    if x.begun && audRuns s a then putAud s1 a { audAt s1 a with pos := x.pos + 1 } else s1
  else s

/-- One captured sample of stall `k`: the PCM bytes (R66 to R68). -/
def aoutWord (s : State) (a k : Nat) : List Byte × State :=
  let r := pcmOut (audBits s a) (s.bit (Reg.HOST_DITHER (k / 32)) (k % 32)) (delivered s (1032 + k)) s.host.lfsr
  let s1 := { s with host := { s.host with lfsr := r.lfsr } }
  (leBytes r.p 4,
   if r.sat then (s1.raise Reg.HOST_STATUS 0x10000#32).count Reg.HOST_SAT_COUNT 0 32 1 else s1)

/-- Whether the descriptor of the period in progress of AOUT ring `a` is produced: those of the periods before it come first. -/
def audSlot (s : State) (a : Nat) : Bool := decide ((audAt s a).ended.length + (audAt s a).owed.length < ringLeft s (4 + a))

/-- Capture one tick of AOUT ring `a` (R368); a full period moves to the periods that ended, and the next begins. -/
def aoutSample (s : State) (a : Nat) : State :=
  let x := audAt s a
  if audRuns s a then
    let start := if x.pos = 0 then s.tick.media else x.start
    let r := (List.range (audCh s a)).foldl (fun (p : List Byte × State) c =>
      let q := aoutWord p.2 a ((audBase s a + c) % 128)
      (p.1 ++ q.1, q.2)) (x.caught, s)
    if audPeriod s a ≤ x.pos + 1 then
      let e : AudPeriod := ⟨x.period, start, r.1, x.pos + 1, false, audSlot s a⟩
      putAud r.2 a { x with on := ringEn s (4 + a), begun := false, period := x.period + 1, pos := 0, caught := [], ended := x.ended ++ [e] }
    else putAud r.2 a { x with begun := true, pos := x.pos + 1, start := start, caught := r.1 }
  else s

/-- Write back one AOUT period (R368): its samples and descriptor, or OVERRUN where the descriptor was not produced by its end. -/
def aoutPut (s : State) (a : Nat) (e : AudPeriod) (desc : List Byte) : State :=
  if e.slot then
    let d := hostGet s masterHost (ringSlot s (4 + a) (ringCi s (4 + a))) 32 desc false
    if d.2.1 then ringFail d.2.2 (4 + a)
    else audWriteBack (hostPut d.2.2 (descField d.1 0 8) e.bytes) a e.start (1 + if e.interrupted then 8 else 0) e.count
  else
    let s1 := audCount s a
    putAud s1 a { audAt s1 a with owed := (audAt s1 a).owed ++ [(e.index, e.start)] }

/-- AOUT_PERIOD_END (R368): the oldest period that ended is written back, and then those owed whose descriptors are there. In local mode it
waits for its descriptor while the yard holds the read. -/
def aoutEnd (s : State) (a : Nat) (desc : List Byte) : State :=
  match (audAt s a).ended with
  | e :: rest =>
    if e.slot && hostHolds s masterHost (ringSlot s (4 + a) (ringCi s (4 + a))) 32 then s
    else
    let s1 := aoutPut (putAud s a { audAt s a with ended := rest }) a e desc
    audOwed s1 a (audAt s1 a).owed.length
  | [] => s

/-- AUDIO_RING_WAIT (R369): the period in progress of audio ring `a` is closed, with INTERRUPTED unless it is complete. An AOUT period
joins the periods whose write-back is due. -/
def audWait (s : State) (a : Nat) : State :=
  let x := audAt s a
  if !x.on || x.fresh || s.host.waits then s
  else if a < 8 then ainClose s a (decide (x.pos < audPeriod s a))
  else if x.begun then
    putAud s a { x with begun := false, period := x.period + 1, pos := 0, caught := [],
                        ended := x.ended ++ [⟨x.period, x.start, x.caught, x.pos, true, audSlot s a⟩] }
  else s

/-- The stalls of AIN ring `a`. -/
def ainStalls (s : State) (a : Nat) : List Nat := (List.range (audCh s a)).map fun c => 904 + audBase s a + c

/-- Whether an AIN ring in service carries stall `k`. -/
def ainCovers (s : State) (k : Nat) : Bool := (List.range 8).any fun a => (audAt s a).on && (ainStalls s a).contains k

/-- The frame-tick work of audio ring `a` (R365): an enable takes effect, claiming an AIN ring's stalls. -/
def audFrame (s : State) (a : Nat) : State :=
  let x := audAt s a
  let y := { x with on := true, fresh := false }
  if !x.fresh then s
  else if !ringEn s (4 + a) then putAud s a AudRing.zero
  else if a < 8 then
    let r := claimInputs s (ainCovers s) fnHost (ainStalls s a)
    if r.1 then putAud r.2 a y else (putAud r.2 a AudRing.zero).setBit (Reg.RING_CFG (4 + a)) 0 false
  else putAud s a y

/-- Release the input stalls that no AIN ring in service carries (R203). -/
def ainRelease (s : State) : State :=
  (List.range 128).foldl (fun t i => if ainCovers t (904 + i) then t else releaseStall t (904 + i) clsPort fnHost) s

/-- The frame-tick work of every audio ring after the releases; `resume` ends a wait (R369). -/
def hostFrame (s : State) (resume : Bool) : State :=
  (List.range 16).foldl audFrame { s with host := { s.host with waits := s.host.waits && !resume } }

/-- Every audio ring waits (R369). -/
def hostWait (s : State) : State :=
  let s1 := (List.range 16).foldl audWait s
  { s1 with host := { s1.host with waits := true } }

/-- The host's audio in one interval. -/
def hostSample (s : State) : State :=
  (List.range 8).foldl (fun t a => aoutSample t (8 + a)) ((List.range 8).foldl (fun t a => ainSample (ainStart t a) a) s)

/-! ### Doorbells, link and moderation -/

/-- A doorbell write (R351, R373): `fromCore` tells the local-mode doorbell from BAR2. -/
def doorbell (s : State) (r : Nat) (v : BitVec 32) (fromCore : Bool) : State :=
  if hostLocal s ≠ fromCore ∨ ringEn s r = false then s
  else
    let pi := (v.extractLsb' 0 16).toNat
    let n := (pi + 65536 - ringCi s r) % 65536
    if ringSize s r < n ∨ n < (ringPi s r + 65536 - ringCi s r) % 65536 then
      ((s.setBit (Reg.RING_STATE r) 16 true).raise Reg.HOST_STATUS 0x800#32).event 1 2 r 1 0 0
    else
      let s1 := s.setReg (Reg.HOST_DOORBELL r) (BitVec.ofNat 32 pi)
      if 4 ≤ r ∧ r < 20 then audOwed s1 (r - 4) (audAt s1 (r - 4)).owed.length else s1

/-- Whether `a` is a HOST register that a Function Level Reset returns to its reset value (R349). -/
def flrResets (a : Nat) : Bool := decide (a / 0x10000 = 0x4060) && decide (a ≠ Reg.HOST_STATUS)

/-- The host interface stops (R349): every EN reads 0, a command in execution loses its completion record, frames queued are sent without
a write-back, and the function's configuration returns to its reset state. The link stays in L0 or L1 through a Function Level Reset and
through the entry to D3hot; AER's errors outlive all but PERST_N (PRESUMED, log entry 115: they are sticky in the PCIe base specification). -/
def hostStop (s : State) (why : LinkStop) : State :=
  let s1 := (List.range 64).foldl (fun t r => ringDetach (t.setBit (Reg.RING_CFG r) 0 false) r) s
  let s2 := if why = .flr ∨ why = .d3hot then s1 else s1.setFld Reg.HOST_STATUS 0 5 0
  let h := s2.host
  let s3 := { s2 with host := { HostState.zero with
    mem := h.mem, subIds := h.subIds, waits := h.waits, evtSeq := h.evtSeq, evtGap := h.evtGap, lfsr := h.lfsr, aggHigh := h.aggHigh,
    aer := if why = .perst then 0#32 else h.aer, d3 := decide (why = .d3hot) } }
  if why = .flr then
    let s4 := { s3 with regs := Cells.keep (fun a => !flrResets a) s3.regs }
    if inSafe s4 then s4.raise Reg.HOST_CTRL 2#32 else s4
  else s3

/-- The host interface stops and says so: LINK_DOWN or FLR is set, and the supervisor records the event (R349). -/
def hostDown (s : State) (why : LinkStop) : State :=
  ((hostStop s why).raise Reg.HOST_STATUS (if why = .flr then 0x200#32 else 0x100#32)).supEvent (.host why)

/-- HOST_LINK_DOWN (R349). -/
def execHostLinkDown (why : LinkStop) (s : State) : Out := done (hostDown s why)

/-- The host's configuration of the function: it clears the AER errors named, brings the function to D0, and messages that are no longer
masked are sent (R346, R372). -/
def hostConfigure (s : State) (pci : PciSettings) : State :=
  msixUnmask { s with host := { s.host with pci := pci, aer := s.host.aer &&& ~~~pci.limits.aerClear, d3 := false } }

/-- HOST_LINK_UP (R346, R363, R372): the trained speed (1 to 3) and width (x1, x2), and the host's configuration of the function. On a link
that is up at that speed and width the host only configures the function. In reset and in STANDBY the link stays down (R349). -/
def hostLinkUp (s : State) (speed width : BitVec 2) (pci : PciSettings) : State :=
  let link := 1 + speed.toNat * 2 + width.toNat * 8
  if s.power.phase ≠ .running ∨ speed = 0#2 ∨ width = 0#2 ∨ width = 3#2 then s
  else if s.fld Reg.HOST_STATUS 0 5 = link then hostConfigure s pci
  else hostConfigure (State.event (s.setFld Reg.HOST_STATUS 0 5 link) 1 3 0 0 0 0) pci

/-- HOST_LINK_UP (R363). -/
def execHostLinkUp (speed width : BitVec 2) (limits : PciLimits) (msixOn funcMask : Bool) (s : State) : Out :=
  done (hostLinkUp s speed width ⟨limits, msixOn, funcMask⟩)

/-- The DWORDs of the configuration header that R346 fixes, each with its number: Device and Vendor ID, Class Code and Revision ID, header
type 0, the Subsystem IDs, and Interrupt Pin 0. -/
def pciHeader (s : State) : List (Nat × BitVec 32) :=
  [(0, 0x18361F5C#32), (2, 0x04010000#32 ||| ((s.reg Reg.SYS_ID) &&& 0xFF#32)), (3, 0#32), (11, s.host.subIds), (15, 0#32)]

/-- DWORD `k` of configuration space as read: what R346 fixes, and a free value elsewhere (log entry 115). -/
def configWord (s : State) (k : Nat) : BitVec 32 × State :=
  match (pciHeader s).find? fun e => decide (e.1 = k) with
  | some e => (e.2, s)
  | none => let f := s.takeFree; (Config.freeConfig f.1 k, f.2)

/-- AER reports the uncorrectable error of bit `k` of its status register: 14 a completion timeout, 15 a completer abort, 20 an
unsupported request (PRESUMED, log entry 115). -/
def aerError (s : State) (k : Nat) : State := { s with host := { s.host with aer := s.host.aer ||| BitVec.ofNat 32 (2 ^ k) } }

/-- Note a failed read of host memory (R355). -/
def hostReadFail (s : State) (timeout : Bool) : State :=
  if timeout then aerError (s.raise Reg.HOST_STATUS 0x2000#32) 14 else s.raise Reg.HOST_STATUS 0x1000#32

/-- RING_CFG_WRITE (R353). -/
def execRingCfgWrite (r : Fin 64) (v : MasterWrite) (s : State) : Out :=
  done (s.asked v.master.val (Reg.RING_CFG r.val) v.value (ringCfgWrite s r.val v.value))

/-- RING_STOPPED (R353). -/
def execRingStopped (r : Fin 64) (s : State) : Out := done (ringStopped s r.val)

/-- AIN_PERIOD_START (R367). -/
def execAinPeriodStart (a : Fin 8) (s : State) : Out := done (ainStart s a.val)

/-- AIN_DESCRIPTOR_FETCH (R367): `data` is what the host's memory holds in the descriptor's buffer. -/
def execAinDescriptorFetch (a : Fin 8) (data : List Byte) (s : State) : Out := done (ainFetch s a.val data)

/-- AOUT_PERIOD_END (R368): `desc` is the descriptor the host produced. -/
def execAoutPeriodEnd (a : Fin 8) (desc : List Byte) (s : State) : Out := done (aoutEnd s (8 + a.val) desc)

/-- MODERATION_END (R372): events gathered in the interval are sent as one message, which opens the next interval. -/
def execModerationEnd (r : Fin 64) (s : State) : Out :=
  let b := BitVec.ofNat 64 (2 ^ r.val)
  done (if s.host.modRun.getLsbD r.val then
    if s.host.modPend.getLsbD r.val then
      msixSend { s with host := { s.host with modPend := s.host.modPend &&& ~~~b } } (s.fld (Reg.RING_CFG r.val) 6 5)
    else { s with host := { s.host with modRun := s.host.modRun &&& ~~~b } }
  else s)

/-- A write of HOST_CTRL (R373): whether the response is an error, and the state. -/
def hostCtrlWrite (s : State) (v : BitVec 32) : Bool × State :=
  let s1 := s.setBit Reg.HOST_CTRL 1 (v.getLsbD 1 || inSafe s)
  if v.getLsbD 0 = hostLocal s then (false, s1)
  else if anyRingEn s then (true, cfgReject s1)
  else (false, s1.setBit Reg.HOST_CTRL 0 (v.getLsbD 0))

/-- HOST_CTRL_WRITE (R373). -/
def execHostCtrlWrite (v : MasterWrite) (s : State) : Out := 
  done (s.asked v.master.val Reg.HOST_CTRL v.value (hostCtrlWrite s v.value))

/-- ACK (R509): resend the aggregator's message while a host source is pending. -/
def irqAck (s : State) : State := if irqPendHost s ≠ 0#32 then aggSend s else s

/-- ACK (R509). -/
def execIrqAck (s : State) : Out := done (irqAck s)

end Sys2Proof.Machine
end

