-- ==== Sys2Proof/Machine/Time.lean ====
section
/-! DEFINITION. The TIME block: TIME, captures and compares, the media counter and the servo (chapter 14, R332 to R338). -/
namespace Sys2Proof.Machine

/-- One second in units of 2^-28 ns. -/
def timeSecond : Nat := 1000000000 * 2 ^ 28

/-- Let `n` UTIL cycles pass on TIME, the media clock path and the real-time clock (R279, R332, R513). -/
def elapse (s : State) (n : Nat) : State :=
  let s1 := rtcPass (clockPass s n) n
  { s1 with time := { s1.time with
      t := (s1.time.t + n * (s1.reg Reg.TIME_INC).toNat) % (2 ^ 48 * timeSecond), cyc := s1.time.cyc + n } }

/-- The nanoseconds and seconds of a time. -/
def timeNs (t : Nat) : Nat := t / 2 ^ 28 % 1000000000
def timeSec (t : Nat) : Nat := t / timeSecond

/-- A time moved by a signed number of nanoseconds. -/
def timeMove (t : Nat) (ns : Int) : Nat := (((t : Int) + ns * 2 ^ 28) % ((2 ^ 48 * timeSecond : Nat) : Int)).toNat

/-! ### Compares (R334) -/

/-- The compare time of channel `k` in ns, modulo 2^32 seconds, and TIME in the same range. -/
def cmpTime (s : State) (k : Nat) : Nat := (s.reg (Reg.TIME_CMP_SEC k)).toNat * 1000000000 + (s.reg (Reg.TIME_CMP_NS k)).toNat
def cmpNow (s : State) : Nat := s.time.t / 2 ^ 28 % (2 ^ 32 * 1000000000)

/-- The ns that TIME is past the compare time of channel `k`, modulo the span of a compare time, and whether it is past it: by less
than half that span. -/
def cmpSpan : Nat := 2 ^ 32 * 1000000000
def cmpGone (s : State) (k : Nat) : Nat := (cmpNow s + cmpSpan - cmpTime s k % cmpSpan) % cmpSpan
def cmpPast (s : State) (k : Nat) : Bool := decide (cmpGone s k < cmpSpan / 2)

/-- Note that compare channel `k` has fired for the compare time it holds, or waits for TIME to reach it. -/
def cmpNote (s : State) (k : Nat) (fired : Bool) : State :=
  let b := BitVec.ofNat 2 (2 ^ k)
  { s with time := { s.time with fired := if fired then s.time.fired ||| b else s.time.fired &&& ~~~b } }

/-- TIME_OUTk goes to a level: the pin follows where the channel holds it, and its edge detector sees it (R334, R500). -/
def timeOutput (s : State) (k : Nat) (b : Bool) : State :=
  let m := BitVec.ofNat 2 (2 ^ k)
  pinEdge { s with time := { s.time with out := if b then s.time.out ||| m else s.time.out &&& ~~~m } } (92 + k) (pinLevel s (92 + k))

/-- Compare channel `k` fires: the pulse starts, CMP is set, and a period reloads the compare time. With PERIOD 0 the compare time
stands, and TIME reaches it no more (DEDUCED, log entry 91). -/
def cmpFire (s : State) (k : Nat) (late : Bool) : State :=
  let p := (s.reg (Reg.TIME_CMP_PERIOD k)).toNat
  let t := cmpTime s k + p
  let s1 := (s.raise Reg.TIME_STATUS (BitVec.ofNat 32 (2 ^ (12 + k)))).raiseIf late Reg.TIME_STATUS (BitVec.ofNat 32 (2 ^ (14 + k)))
  let s2 := if p = 0 then s1 else
    (s1.setReg (Reg.TIME_CMP_NS k) (BitVec.ofNat 32 (t % 1000000000))).setReg (Reg.TIME_CMP_SEC k) (BitVec.ofNat 32 (t / 1000000000))
  cmpNote (timeOutput s2 k true) k (decide (p = 0))

/-- EN of compare channel `k`. -/
def cmpEn (s : State) (k : Nat) : Bool := s.bit (Reg.TIME_CMP_CFG k) 0

/-- Whether channel `k` waits for TIME. -/
def cmpWaits (s : State) (k : Nat) : Bool := cmpEn s k && !s.time.fired.getLsbD k

/-- Fire channel `k` at once when its compare time is past after a step or an enable; a compare time that a step puts ahead again is
waited for. -/
def cmpCatch (s : State) (k : Nat) : State :=
  if cmpPast s k then (if cmpWaits s k then cmpFire s k (decide (0 < cmpGone s k)) else s) else cmpNote s k false

/-! ### Steps (R333) -/

/-- After a step: STEPPED, a re-anchor at the next frame tick, and compares that are past. -/
def timeStepped (s : State) : State :=
  let s1 := s.raise Reg.TIME_STATUS 4#32
  [0, 1].foldl cmpCatch { s1 with time := { s1.time with reanchor := true } }

/-- LOAD: TIME takes the TIME_SET value. -/
def timeLoad (s : State) : State :=
  let sec := (s.reg Reg.TIME_SET_SEC_LO).toNat + s.fld Reg.TIME_SET_SEC_HI 0 16 * 2 ^ 32
  timeStepped { s with time := { s.time with
    t := (sec * timeSecond + (s.reg Reg.TIME_SET_NS).toNat * 2 ^ 28) % (2 ^ 48 * timeSecond) } }

/-- ADD: TIME moves by the signed TIME_SET_NS. -/
def timeAdd (s : State) : State :=
  timeStepped { s with time := { s.time with t := timeMove s.time.t (s.reg Reg.TIME_SET_NS).toInt } }

/-- A write of TIME_SET_CMD: both bits act as LOAD. -/
def timeSetCmd (s : State) (v : BitVec 32) : State := if v.getLsbD 0 then timeLoad s else if v.getLsbD 1 then timeAdd s else s

/-! ### Captures (R334) -/

/-- SRC of capture channel `c`: a pin (0 to 2), the sample tick (3) or the frame tick (4 to 7). -/
def capSrc (s : State) (c : Nat) : Nat := min 4 (s.fld (Reg.TIME_CAP_CFG c) 1 3)

/-- Capture channel `c` records TIME. -/
def timeCapture (s : State) (c : Nat) : State :=
  if s.bit (Reg.TIME_CAP_CFG c) 0 then
    let sec := timeSec s.time.t
    let s1 := s.setReg (Reg.TIME_CAP_NS c) (BitVec.ofNat 32 (timeNs s.time.t))
    let s2 := (s1.setReg (Reg.TIME_CAP_SEC_LO c) (BitVec.ofNat 32 sec)).setReg (Reg.TIME_CAP_SEC_HI c) (BitVec.ofNat 32 (sec / 2 ^ 32))
    let s3 := (s2.raise Reg.TIME_STATUS (BitVec.ofNat 32 (2 ^ (8 + c)))).raiseIf (s.time.unread.getLsbD c) Reg.TIME_STATUS
      (BitVec.ofNat 32 (2 ^ (16 + c)))
    { s3 with time := { s3.time with unread := s3.time.unread ||| BitVec.ofNat 4 (2 ^ c) } }
  else s

/-- The captures of the channels whose source is `src`, at a tick. -/
def tickCaptures (s : State) (src : Nat) : State :=
  (List.range 4).foldl (fun t c => if capSrc t c = src then timeCapture t c else t) s

/-- The resources of capture channel `c` with source field `src`, or of compare channel `k`. -/
def capClaims (c src : Nat) : List (Nat × Nat) := (2, c) :: if src < 2 then [(0, 90 + src)] else []
def cmpClaims (k : Nat) : List (Nat × Nat) := [(3, k), (0, 92 + k)]

/-- Whether another enabled capture channel than `c` holds the resource `r`. -/
def capShared (s : State) (c : Nat) (r : Nat × Nat) : Bool :=
  (List.range 4).any fun k => decide (k ≠ c) && s.bit (Reg.TIME_CAP_CFG k) 0 && (capClaims k (s.fld (Reg.TIME_CAP_CFG k) 1 3)).contains r

/-- A write of TIME_CAP_CFG(c): the old claims are released, but for a pin that another channel uses too, and the new ones made (R334,
R498). Where they are refused, EN reads 0 and nothing else changes (R497). -/
def timeCapWrite (s : State) (c : Nat) (v : BitVec 32) : State :=
  let s1 := if s.bit (Reg.TIME_CAP_CFG c) 0 then
      releaseAll s fnTime ((capClaims c (s.fld (Reg.TIME_CAP_CFG c) 1 3)).filter fun r => !capShared s c r) else s
  let r := if v.getLsbD 0 then claimAll s1 fnTime (capClaims c (v.extractLsb' 1 3).toNat) else (true, s1)
  if r.1 then r.2.setReg (Reg.TIME_CAP_CFG c) (v &&& 0xF#32) else r.2.setBit (Reg.TIME_CAP_CFG c) 0 false

/-- A write of TIME_CMP_CFG(k): a compare time already past fires at once. A refused enable reads 0 and changes nothing else (R497). -/
def timeCmpWrite (s : State) (k : Nat) (v : BitVec 32) : State :=
  let width := fun (u : State) => u.setFld (Reg.TIME_CMP_CFG k) 8 8 (v.extractLsb' 8 8).toNat
  let see := fun (u : State) => pinEdge u (92 + k) (pinLevel s (92 + k))
  if v.getLsbD 0 then
    if cmpEn s k then width s
    else
      let r := claimAll s fnTime (cmpClaims k)
      if r.1 then cmpCatch (see (cmpNote ((width r.2).setBit (Reg.TIME_CMP_CFG k) 0 true) k false)) k
      else r.2.setBit (Reg.TIME_CMP_CFG k) 0 false
  else see ((releaseAll (width s) fnTime (cmpClaims k)).setBit (Reg.TIME_CMP_CFG k) 0 false)

/-! ### Media time and the servo (R336 to R338) -/

/-- I(M), in ns. -/
def mediaIdeal (m : Nat) (rate : Nat) : Nat := if rate = 0 then 0 else m * 1000000000 / rate

/-- TIME as a total count of nanoseconds. -/
def timeTotalNs (s : State) : Nat := s.time.t / 2 ^ 28

/-- The M of a re-anchor (R338). -/
def mediaAnchor (s : State) : BitVec 64 := BitVec.ofNat 64 ((timeTotalNs s * s.rate + 999999999) / 1000000000)

/-- LOCKED after 16 consecutive frame ticks near, cleared after 4 far (R337). -/
def servoLock (s : State) (e : Int) : State :=
  let near := decide (e.natAbs ≤ s.fld Reg.TIME_SERVO 16 16)
  let n := if near then s.time.near + 1 else 0
  let f := if near then 0 else s.time.far + 1
  let s1 := { s with time := { s.time with near := n, far := f } }
  if 16 ≤ n then s1.setBit Reg.TIME_STATUS 0 true else if 4 ≤ f then s1.setBit Reg.TIME_STATUS 0 false else s1

/-- The servo's step with error `e` (R337). -/
def servoStep (s : State) (e : Int) : State :=
  let s1 := servoLock s e
  if 1000000 < e.natAbs then
    let s2 := s1.raise Reg.TIME_STATUS 2#32
    { s2 with time := { s2.time with reanchor := true } }
  else
    let acc := max (-adjLimit) (min adjLimit (s1.time.acc + e * 2 ^ (s1.fld Reg.TIME_SERVO 8 5)))
    mncoAdj { s1 with time := { s1.time with acc := acc } } (acc + e * 2 ^ (s1.fld Reg.TIME_SERVO 0 5))

/-- A signed number saturated to 32 bits. -/
def sat32 (e : Int) : BitVec 32 := BitVec.ofInt 32 (satTo 32 e).1

/-- A write of TIME_CMP_NS(k) or TIME_CMP_SEC(k): TIME has not reached the new compare time. -/
def cmpTimeWrite (s : State) (k a : Nat) (v : BitVec 32) : State := cmpNote (s.setReg a v) k false

/-- The TIME block at a frame tick (R336 to R338): a value written to TIME_MEDIA loads, M re-anchors at a switch tick, after a
step or after FAR, and outside acquisition the error is formed and the servo acts. Where M was aligned at this tick, that value stands
(R470). -/
def timeFrame (s : State) (switch aligned : Bool) : State :=
  let m0 := match s.tick.mediaLoad with
    | some m => m
    | none => s.tick.media
  let m := if aligned then s.tick.media else if switch || s.time.reanchor then mediaAnchor s else m0
  let s1 := { s with tick := { s.tick with media := m, mediaLoad := none }, time := { s.time with reanchor := false } }
  let s2 := (s1.setReg Reg.TIME_MEDIA_LO (m.setWidth 32)).setReg Reg.TIME_MEDIA_HI (m.extractLsb' 32 32)
  if acquiring s then s2
  else
    let e : Int := (timeTotalNs s2 : Int) - (mediaIdeal m.toNat s2.rate : Int)
    let s3 := s2.setReg Reg.TIME_SERVO_ERR (sat32 e)
    if s3.bit Reg.TIME_CTRL 0 then servoStep s3 e else s3

/-! ### The commands. `cycles` is the number of UTIL cycles since the last event that reported one. -/

/-- LOAD (R333). -/
def execTimeLoad (s : State) : Out := done (timeLoad s)

/-- ADD (R333). -/
def execTimeAdd (s : State) : Out := done (timeAdd s)

/-- TIME_CAPTURE (R334): an edge on the pin that is channel `c`'s source. The ticks make the captures of the other sources. -/
def execTimeCapture (c : Fin 4) (cycles : BitVec 64) (s : State) : Out :=
  let s1 := elapse s cycles.toNat
  done (if capSrc s1 c.val < 3 then timeCapture s1 c.val else s1)

/-- TIME_COMPARE (R334): fires when TIME has reached the compare time. -/
def execTimeCompare (k : Fin 2) (cycles : BitVec 64) (s : State) : Out :=
  let s1 := elapse s cycles.toNat
  done (if cmpWaits s1 k.val && cmpPast s1 k.val then cmpFire s1 k.val false else s1)

/-- COMPARE_PULSE_END (R334). -/
def execComparePulseEnd (k : Fin 2) (s : State) : Out :=
  done (timeOutput s k.val false)

/-- TIME_CAP_CFG_WRITE (R334): `cmp` names a compare channel (0 or 1) instead of a capture channel. -/
def execTimeCapCfgWrite (cmp : Bool) (c : Fin 4) (v : BitVec 32) (s : State) : Out :=
  done (if cmp then (if c.val < 2 then timeCmpWrite s c.val v else s) else timeCapWrite s c.val v)

end Sys2Proof.Machine
end

