-- ==== Sys2Proof/Machine/Eth.lean ====
section
/-! DEFINITION. The Ethernet MACs: links, MDIO, transmit queues, shapers, receive steering, timestamps, LPI, downshift and
counters (chapter 13). Port 0 is ETH0, 1 ETH1, 2 T1S. -/
namespace Sys2Proof.Machine

/-- Port `p`. -/
def ethAt (s : State) (p : Nat) : EthPort := vget s.eth p EthPort.zero
def putEth (s : State) (p : Nat) (x : EthPort) : State := { s with eth := vset s.eth p x }

/-- Whether the ports are powered (R304, R483). -/
def ethPowered (s : State) : Bool := decide (s.power.phase = .running) && !s.listen && !inSafe s

/-- LINK, SPEED and FULL. -/
def ethLink (s : State) (p : Nat) : Bool := s.bit (Reg.ETH_STATUS p) 0
def ethSpeed (s : State) (p : Nat) : Nat := s.fld (Reg.ETH_STATUS p) 1 2
def ethFull (s : State) (p : Nat) : Bool := s.bit (Reg.ETH_STATUS p) 3

/-- The port's rate in kb/s. -/
def ethKbps (s : State) (p : Nat) : Nat :=
  match ethSpeed s p with
  | 0 => 10000
  | 1 => 100000
  | 2 => 1000000
  | _ => 2500000

/-- ETH_MAXLEN as it acts: the nearest limit outside 64 to 9,600, or 2,000 on T1S (R325, Table 13-7). -/
def ethMaxLen (s : State) (p : Nat) : Nat := max 64 (min (if p = 2 then 2000 else 9600) (s.fld (Reg.ETH_MAXLEN p) 0 14))

/-- Count one event in counter `i`, with its HALF bit (R323). -/
def ethCount (s : State) (p i n : Nat) : State :=
  let old := (s.reg (Reg.ETH_CNT p i)).toNat
  let s1 := s.count (Reg.ETH_CNT p i) 0 32 n
  if old < 2 ^ 31 ∧ (s1.reg (Reg.ETH_CNT p i)).getLsbD 31 = true then s1.raiseAt (Reg.ETH_HALF p 0) i else s1

/-- Set flags of ETH_STATUS. -/
def ethFlag (s : State) (p k : Nat) : State := s.raise (Reg.ETH_STATUS p) (BitVec.ofNat 32 (2 ^ k))

/-- The function code, the master and the queue number in force on T1S (R325). -/
def ethMaster (p : Nat) : Nat := 12 + p
def ethQueue (p q : Nat) : Nat := if p = 2 then 0 else q

/-- The ring of a transmit or receive queue (Table 15-3). -/
def txRing (p q : Nat) : Nat := if p = 2 then 52 else 20 + 16 * p + q
def rxRing (p q : Nat) : Nat := if p = 2 then 53 else 28 + 16 * p + q

/-- A MAC's write of ring slots and frames: to host memory, or in local mode to the yard under the MAC's own ownership (R306). -/
def ethPut (s : State) (p a : Nat) (bs : List Byte) : State :=
  if hostLocal s then
    match yardOffset a with
    | some o => blockWrite s (ethMaster p) o bs
    | none => defaultTarget s (ethMaster p) (a % 2 ^ 32) false true
  else hostPut s a bs

/-! ### Claims and enables (R302, R306) -/

/-- SRC of queue `q`: the stream engine feeds it. -/
def txSrc (s : State) (p q : Nat) : Bool := s.bit (Reg.ETH_TXQ p q) 8

/-- The pins of a port's MDIO bus, and the stream engine's transmit paths it claims. -/
def mdioPins (p : Nat) : List (Nat × Nat) := if p = 2 then [] else [(0, 104 + 2 * p), (0, 105 + 2 * p)]
def txPaths (s : State) (p : Nat) : List (Nat × Nat) := ((List.range 8).filter (txSrc s p)).map fun q => (7, 8 * p + q)

/-- Whether an enable is refused with CFG_REJECT (R302). -/
def ethCfgBad (s : State) (p : Nat) : Bool :=
  decide (s.fld (Reg.ETH_CTRL p) 2 2 = 3)
    || decide (64 < ((List.range (if p = 2 then 1 else 8)).map fun q => s.fld (Reg.ETH_TXQ p q) 0 7).sum)
    || decide (128 < ((List.range (if p = 2 then 1 else 8)).map fun q => s.fld (Reg.ETH_RXQ p q) 0 8).sum)

/-- TX_EN or RX_EN (bit `k`), and whether either is set. -/
def ethEn (s : State) (p k : Nat) : Bool := s.bit (Reg.ETH_CTRL p) k
def ethAnyEn (s : State) (p : Nat) : Bool := ethEn s p 0 || ethEn s p 1

/-- Apply TX_EN (`k` 0) or RX_EN (`k` 1). -/
def ethEnable (s : State) (p k : Nat) (on : Bool) : State :=
  if on = ethEn s p k then s
  else if on then
    if ethCfgBad s p then ethFlag s p 13
    else
      let r := claimAll s (fnEth p) (mdioPins p ++ if k = 0 then txPaths s p else [])
      r.2.setBit (Reg.ETH_CTRL p) k r.1
  else
    let s1 := s.setBit (Reg.ETH_CTRL p) k false
    let s2 := if k = 0 then releaseAll s1 (fnEth p) (txPaths s1 p) else s1
    if ethAnyEn s2 p then s2 else releaseAll s2 (fnEth p) (mdioPins p)

/-! ### Shapers (R309) -/

/-- The shaper of queue `q`: enabled, and its idleSlope in kb/s. -/
def shaped (s : State) (p q : Nat) : Bool := decide (6 ≤ q) && decide (p < 2) && s.bit (Reg.ETH_CBS_IDLE p (q - 6)) 31
def idleSlope (s : State) (p q : Nat) : Nat := s.fld (Reg.ETH_CBS_IDLE p (q - 6)) 0 22

/-- Whether queue `q` is sent under its shaper: idleSlope below the port's rate. -/
def shaperActs (s : State) (p q : Nat) : Bool := shaped s p q && decide (idleSlope s p q < ethKbps s p)

/-- The credit of queue `q` after `n` UTIL cycles, in 1/393,216 bit. -/
def creditAfter (s : State) (p q n : Nat) : Int :=
  let x := ethAt s p
  let c := vget x.credit (q - 6) 0
  let idle : Int := idleSlope s p q
  let rate : Int := ethKbps s p
  let sending := match x.now with
    | some f => decide (f.queue = q)
    | none => false
  if !ethLink s p then 0
  else if sending then
    max (8 * ((ethMaxLen s p : Int) + 20) * (idle - rate) * 393216 / rate) (c + (idle - rate) * n)
  else if (vget x.txq q []).isEmpty then (if 0 < c then 0 else min 0 (c + idle * n))
  else min ((s.fld (Reg.ETH_CBS_HI p (q - 6)) 0 24 : Int) * 393216) (c + idle * n)

/-- Bring a port's credits up to the present cycle. -/
def creditsNow (s : State) (p : Nat) : State :=
  let n := s.time.cyc - (ethAt s p).creditAt
  let c6 := if shaperActs s p 6 then creditAfter s p 6 n else 0
  let c7 := if shaperActs s p 7 then creditAfter s p 7 n else 0
  putEth s p { ethAt s p with credit := vset (vset (ethAt s p).credit 0 c6) 1 c7, creditAt := s.time.cyc }

/-- A change of link speed or of a shaper: CBS_OVER when an idleSlope is not below the rate. -/
def cbsCheck (s : State) (p : Nat) : State :=
  [6, 7].foldl (fun t q => if shaped t p q && ethLink t p && !shaperActs t p q then ethFlag t p 17 else t) s

/-- Whether the port has reserved streams (R320). -/
def reserved (s : State) (p : Nat) : Bool := shaped s p 6 || shaped s p 7 || (List.range 8).any (txSrc s p)

/-! ### Utilisation (R321) -/

/-- The speed code of TARGET, and its rate in kb/s. -/
def dsTarget (s : State) (p : Nat) : Nat := if s.fld (Reg.ETH_DS p) 24 2 = 1 then 1 else 2
def dsKbps (s : State) (p : Nat) : Nat := if dsTarget s p = 1 then 100000 else 1000000

/-- HOLD as it acts, in seconds. -/
def dsHold (s : State) (p : Nat) : Nat := max 1 (s.fld (Reg.ETH_DS p) 14 10)

/-- The UTIL cycles of a window of 100 ms. -/
def utilCycles : Nat := 39321600

/-- The windows begin anew when a link comes up (DESIGN CHOICE, log entry 111). -/
def utilStart (s : State) (p : Nat) : State := putEth s p { ethAt s p with util := { DsUtil.zero with start := s.time.cyc } }

/-- Whether `bits` in one window stay below DOWN_PCT % of the TARGET speed. -/
def utilLow (s : State) (p bits : Nat) : Bool := decide (bits < s.fld (Reg.ETH_DS p) 0 7 * dsKbps s p)

/-- The measurement at the present cycle: the windows that have ended are judged, those after the first of them without traffic. -/
def utilNow (s : State) (p : Nat) : DsUtil :=
  let u := (ethAt s p).util
  let n := (s.time.cyc - u.start) / utilCycles
  if n = 0 then u
  else
    let first := if utilLow s p u.tx && utilLow s p u.rx then u.low + 1 else 0
    { u with start := u.start + n * utilCycles, tx := 0, rx := 0, low := if n = 1 then first else if utilLow s p 0 then first + (n - 1) else 0 }

/-- A frame of `n` bytes ends, sent or received: it counts with its preamble and gap (DESIGN CHOICE, log entry 111), and UP_PCT % of the
current speed may be exceeded. -/
def utilAdd (s : State) (p n : Nat) (rx : Bool) : State :=
  let u := utilNow s p
  let b := 8 * (n + 20)
  let v := if rx then { u with rx := u.rx + b } else { u with tx := u.tx + b }
  putEth s p { ethAt s p with util := { v with exceeded := v.exceeded || decide (s.fld (Reg.ETH_DS p) 7 7 * ethKbps s p < max v.tx v.rx) } }

/-! ### Write-backs and timestamps (R318, R319, R370) -/

/-- Add an entry to the timestamp queue, or lose it (R318, R319); `true` when it was lost. -/
def stampAdd (s : State) (p : Nat) (e : TxStamp) : Bool × State :=
  if 64 ≤ (ethAt s p).stamps.length then (true, ethFlag (ethCount s p 50 1) p 11)
  else (false, ethFlag (putEth s p { ethAt s p with stamps := (ethAt s p).stamps ++ [e] }) p 12)

/-- Show the timestamp queue in its registers. -/
def stampShow (s : State) (p : Nat) : State :=
  let l := (ethAt s p).stamps
  let s1 := s.setReg (Reg.ETH_TXTS_STAT p) (BitVec.ofNat 32 l.length)
  match l with
  | [] => (((s1.setReg (Reg.ETH_TXTS_TAG p) 0#32).setReg (Reg.ETH_TXTS_NS p) 0#32).setReg (Reg.ETH_TXTS_SEC_LO p) 0#32).setReg (Reg.ETH_TXTS_SEC_HI p) 0#32
  | e :: _ =>
    let sec := timeSec e.time
    (((s1.setReg (Reg.ETH_TXTS_TAG p) (BitVec.ofNat 32 (e.tag.toNat + e.queue * 65536 + if e.abort then 524288 else 0))).setReg
      (Reg.ETH_TXTS_NS p) (BitVec.ofNat 32 (timeNs e.time))).setReg (Reg.ETH_TXTS_SEC_LO p) (BitVec.ofNat 32 sec)).setReg
      (Reg.ETH_TXTS_SEC_HI p) (BitVec.ofNat 32 (sec / 2 ^ 32))

/-- POP (R318). -/
def stampPop (s : State) (p : Nat) : State := stampShow (putEth s p { ethAt s p with stamps := (ethAt s p).stamps.drop 1 }) p

/-- Write back the descriptor of the oldest entry of a transmit queue: flags with DONE, collisions, segments sent; then advance
(R370). A stream engine frame has no descriptor. -/
def txWriteBack (s : State) (p q : Nat) (e : TxEntry) (flags cols : Nat) : State :=
  if e.ring then
    let r := txRing p q
    ringAdvance (ethPut s p (ringSlot s r (ringCi s r) + 16) (leDwords [(e.flags ||| BitVec.ofNat 32 (flags ||| 1)).toNat + cols * 4096, e.sent, 0, 0])) r
  else s

/-- Remove the head entries that have nothing to send, writing each back: with ABORTED where it is discarded (R306, R307, R311), and a
segmented send of no frame as it is (R312). -/
def txFlush (s : State) (p q : Nat) : Nat → State
  | 0 => s
  | n + 1 =>
    match vget (ethAt s p).txq q [] with
    | e :: rest =>
      if e.drop || e.frames.isEmpty then
        txFlush (txWriteBack (putEth s p { ethAt s p with txq := vset (ethAt s p).txq q rest }) p q e (if e.drop then 2 else 0) 0) p q n
      else s
    | [] => s

/-- Put an entry at the tail of a queue; a queued frame ends LPI (R320). -/
def txQueue (s : State) (p q : Nat) (e : TxEntry) : State :=
  let s1 := putEth s p { ethAt s p with txq := vset (ethAt s p).txq q (vget (ethAt s p).txq q [] ++ [e]) }
  txFlush (if e.drop || e.frames.isEmpty then s1 else s1.setBit (Reg.ETH_STATUS p) 4 false) p q 1

/-- Finish the head entry of queue `q` with write-back flags and a collision count; `ts` adds its timestamp with ABORT `abort`. -/
def txFinish (s : State) (p q flags cols : Nat) (stamp : Option Nat) (abort : Bool) : State :=
  match vget (ethAt s p).txq q [] with
  | [] => s
  | e :: rest =>
    let r := match stamp with
      | some t => if e.ts && decide (e.sent ≤ 1) then stampAdd s p ⟨e.tag, q, abort, timeMove t (s.fld (Reg.ETH_TS_LAT p) 0 16 : Nat)⟩ else (false, s)
      | none => (false, s)
    let e1 := { e with flags := e.flags ||| if r.1 then 32#32 else 0#32 }
    if e1.frames.length ≤ 1 ∨ flags ≠ 0 then
      txFlush (stampShow (txWriteBack (putEth r.2 p { ethAt r.2 p with txq := vset (ethAt r.2 p).txq q rest }) p q e1 flags cols) p) p q rest.length
    else
      stampShow (putEth r.2 p { ethAt r.2 p with txq := vset (ethAt r.2 p).txq q ({ e1 with frames := e1.frames.drop 1 } :: rest) }) p

/-! ### Transmit (R306 to R313) -/

/-- The bytes a queue holds in the buffer. -/
def txHeld (s : State) (p q : Nat) : Nat := (((vget (ethAt s p).txq q []).filter fun e => !e.drop).map fun e => (e.frames.map List.length).sum).sum

/-- The frame counted from destination address to FCS, after padding. -/
def wireLength (f : List Byte) : Nat := max 60 f.length + 4

/-- Whether a frame is too long to send (R307). -/
def txTooLong (s : State) (p q : Nat) (f : List Byte) : Bool :=
  decide (ethMaxLen s p < wireLength f) || decide (s.fld (Reg.ETH_TXQ p q) 0 7 * 1024 < f.length)

/-- What a descriptor asks for becomes a queue entry (R311 to R313): `d` is the descriptor, `f` the buffer. -/
def txEntryOf (s : State) (p q : Nat) (d f : List Byte) : TxEntry × State :=
  let c := descField d 8 4
  let m := descField d 12 4
  let seg := decide (c / 2 ^ 20 % 2 = 1)
  let ip := decide (c / 2 ^ 21 % 2 = 1)
  let l4 := decide (c / 2 ^ 22 % 2 = 1)
  let base : TxEntry := { frames := [f], ring := true, ts := decide (c / 2 ^ 23 % 2 = 1), tag := BitVec.ofNat 16 (m / 65536),
                          store := seg || ip || l4 || decide (6 ≤ q), seg := seg, sent := 0, flags := 0#32, drop := false }
  let parsed := match parseFrame f with
    | some x => if x.hdr = c / 2 ^ 24 then some x else none
    | none => none
  if seg then
    match parsed with
    | some x =>
      if m % 16384 = 0 ∨ ethMaxLen s p < x.hdr + m % 16384 ∨ 262143 < f.length - x.hdr then
        ({ base with drop := true }, ethFlag (ethCount s p 52 1) p 18)
      else if (segments f x (m % 16384)).any (txTooLong s p q) then ({ base with drop := true }, ethCount s p 52 1)
      else ({ base with frames := segments f x (m % 16384) }, s)
    | none => ({ base with drop := true }, ethFlag (ethCount s p 52 1) p 18)
  else if txTooLong s p q f then ({ base with drop := true }, ethCount s p 52 1)
  else if ip || l4 then
    match parsed with
    | some x => ({ base with frames := [(if l4 then fun g => putL4Sum g x else id) ((if ip then fun g => putIpSum g x else id) f)] }, s)
    | none => ({ base with flags := 64#32 }, ethFlag s p 18)
  else (base, s)

/-- The frames of queue `q` that ring descriptors gave. -/
def txQueued (s : State) (p q : Nat) : Nat := ((vget (ethAt s p).txq q []).filter fun e => e.ring).length

/-- Whether queue `q` fetches a descriptor: one is produced and not yet fetched, and the port transmits the ring's frames. -/
def txFetches (s : State) (p q : Nat) : Bool :=
  ethEn s p 0 && ethPowered s && decide (txQueued s p q < ringReady s (txRing p q)) && !(txSrc s p q)

/-- TX_DESCRIPTOR (R370): the descriptor of the next produced slot and its buffer, `d0` and `f0` those of host memory; `failed` says
that the fetch of the data received an error response (R306). It waits while the queue's partition has no room, and in local mode while the
yard holds a read. -/
def txDescriptor (s : State) (p q0 : Nat) (d0 f0 : List Byte) (failed : Bool) : State :=
  let q := ethQueue p q0
  let r := txRing p q
  let slot := ringSlot s r (ringCi s r + txQueued s p q)
  if txFetches s p q && !hostHolds s (ethMaster p) slot 32 then
    let d := hostGet s (ethMaster p) slot 32 d0 false
    let n := descField d.1 8 4 % 2 ^ 20
    if hostHolds s (ethMaster p) (descField d.1 0 8) n then s
    else
    let f := hostGet d.2.2 (ethMaster p) (descField d.1 0 8) n (f0.take n) failed
    if d.2.1 then ringFail d.2.2 r
    else if f.2.1 then txQueue (ethCount f.2.2 p 52 1) p q ⟨[], true, false, 0#16, true, false, 0, 0#32, true⟩
    else
      let e := txEntryOf f.2.2 p q d.1 f.1
      if e.1.drop = false ∧ e.1.seg = false ∧ s.fld (Reg.ETH_TXQ p q) 0 7 * 1024 < txHeld s p q + (e.1.frames.map List.length).sum then s
      else txQueue (creditsNow e.2 p) p q e.1
  else s

/-- Whether the head of queue `q` may start (R307, R309, R321). -/
def txEligible (s : State) (p q : Nat) : Bool :=
  !(vget (ethAt s p).txq q []).isEmpty
    && (!shaperActs s p q || decide (0 ≤ vget (ethAt s p).credit (q - 6) 0))
    && !(s.bit (Reg.ETH_STATUS p) 6 && (shaped s p q || txSrc s p q))

/-- The bytes of a frame on the wire: padded, with its FCS, or with the FCS inverted. -/
def wireBytes (f : List Byte) (good : Bool) : List Byte :=
  let g := f ++ List.replicate (60 - f.length) 0#8
  g ++ if good then fcsOf g else (fcsOf g).map fun b => ~~~b

/-- Note a started frame in the segment counters of its entry. -/
def txNote (s : State) (p q : Nat) : State :=
  match vget (ethAt s p).txq q [] with
  | e :: rest =>
    let s1 := putEth s p { ethAt s p with txq := vset (ethAt s p).txq q ({ e with sent := if e.seg then e.sent + 1 else e.sent } :: rest) }
    if e.seg then ethCount s1 p 51 1 else s1
  | [] => s

/-- The bytes sent of a cut-through frame whose buffer empties, if it can empty after `n` bytes: at least 256 were there (R307, R308). -/
def txCutShort (s : State) (p : Nat) (e : TxEntry) (f : List Byte) (emptied : Option (BitVec 14)) : Option Nat :=
  emptied.bind fun n => if e.store = false ∧ ethFull s p = true ∧ 256 ≤ n.toNat ∧ n.toNat < f.length then some n.toNat else none

/-- Drop the queued sends of which a frame is longer than ETH_MAXLEN or its partition: they are not sent, and those at a head are written
back now (R307). Both limits may have changed since they were queued. -/
def txPurge (s : State) (p q : Nat) : State :=
  let l := vget (ethAt s p).txq q []
  let bad := fun (e : TxEntry) => !e.drop && e.frames.any (txTooLong s p q)
  if l.any bad then
    let s1 := ethCount s p 52 (l.countP bad)
    txFlush (putEth s1 p { ethAt s1 p with txq := vset (ethAt s1 p).txq q (l.map fun e => if bad e then { e with drop := true } else e) }) p q l.length
  else s

/-- TX_FRAME_START (R307, R308): at a frame boundary the T1S downlink goes first (R327), then the highest eligible queue.
`deferred` says that carrier held it, `emptied` after how many bytes the buffer of a cut-through frame empties. -/
def txFrameStart (s0 : State) (p : Nat) (deferred : Bool) (emptied : Option (BitVec 14)) : State :=
  let s := creditsNow ((List.range 8).foldl (fun t q => if (ethAt s0 p).now.isSome then t else txPurge t p q) s0) p
  let x := ethAt s p
  if !ethEn s p 0 || !ethLink s p || !ethPowered s || x.now.isSome || s.bit (Reg.ETH_STATUS p) 4 then s
  else
    match (if p = 2 then s.t1s.down else none) with
    | some f =>
      let s1 := { s with t1s := { s.t1s with down := none } }
      putEth s1 p { x with now := some ⟨8, f, s.time.t⟩, collisions := 0, backoff := none }
    | none =>
      match ([7, 6, 5, 4, 3, 2, 1, 0] : List Nat).find? (txEligible s p) with
      | none => s
      | some q =>
        let e := (vget x.txq q []).headD ⟨[], false, false, 0#16, true, false, 0, 0#32, true⟩
        let f := e.frames.headD []
        let s1 := if deferred then ethCount s p 49 1 else s
        let s2 := if e.seg then txNote s1 p q else s1
        match txCutShort s p e f emptied with
        | some n =>
          let s3 := putEth s2 p { ethAt s2 p with wire := wireBytes (f.take n) false }
          txFinish (ethFlag (ethCount s3 p 44 1) p 9) p q 4 0 (some s.time.t) true
        | none => putEth s2 p { ethAt s2 p with now := some ⟨q, f, s.time.t⟩, collisions := 0, backoff := none }

/-- The size bin of a frame of `n` bytes, counted from `lo` (Table 13-4). -/
def sizeBin (lo n : Nat) : Nat :=
  lo + if n ≤ 64 then 0 else if n < 128 then 1 else if n < 256 then 2 else if n < 512 then 3 else if n < 1024 then 4
    else if n < 1519 then 5 else 6

/-- Count a good frame's destination kind and size from counter `base` (0 receive, 32 transmit). -/
def countGood (s : State) (p base : Nat) (f : List Byte) : State :=
  let bc := (f.take 6).all fun b => decide (b = 0xFF#8)
  let mc := (f.headD 0#8).getLsbD 0
  let s1 := ethCount (ethCount s p base 1) p (base + 1) f.length
  let s2 := ethCount s1 p (base + if bc then 4 else if mc then 3 else 2) 1
  ethCount s2 p (sizeBin (base + 5) f.length) 1

/-- TX_FRAME_END (R318): the frame on the wire ends well. -/
def txFrameEnd (s0 : State) (p : Nat) : State :=
  let s := creditsNow s0 p
  let x := ethAt s p
  match x.now with
  | none => s
  | some f =>
    if x.backoff.isSome || !ethPowered s then s
    else
      let w := wireBytes f.bytes true
      let s1 := countGood (utilAdd (putEth s p { x with now := none, wire := w, collisions := 0 }) p w.length false) p 32 w
      let s2 := if x.collisions = 1 then ethCount s1 p 45 1 else if 1 < x.collisions then ethCount s1 p 46 1 else s1
      if f.queue = 8 then s2
      else txFinish s2 p f.queue 0 x.collisions (some f.time) false

/-- Discard the frame on the wire with write-back flags. -/
def txAbort (s : State) (p flags : Nat) (stamp : Bool) : State :=
  let x := ethAt s p
  match x.now with
  | none => s
  | some f =>
    let s1 := putEth s p { x with now := none, backoff := none, collisions := 0 }
    if f.queue = 8 then s1
    else txFinish s1 p f.queue flags (min 15 x.collisions) (if stamp then some f.time else none) true

/-- COLLISION (R310): `late` says that more than 64 bytes were sent. The wait r is free within its range. -/
def txCollision (s : State) (p : Nat) (late : Bool) : State :=
  let x := ethAt s p
  if x.now.isNone || ethFull s p || x.backoff.isSome then s
  else if late then txAbort (ethCount s p 48 1) p 16 true
  else
    let n := x.collisions + 1
    let s1 := putEth s p { x with collisions := n }
    if 16 ≤ n then txAbort (ethCount s1 p 47 1) p 8 false
    else
      let r := s1.takeFree
      putEth r.2 p { ethAt r.2 p with backoff := some ((Config.freeBackoff r.1).toNat % 2 ^ min n 10) }

/-- BACKOFF_END (R310): the frame is sent again, and its timestamp is that of this attempt (R317). -/
def backoffEnd (s : State) (p : Nat) : State :=
  let x := ethAt s p
  if x.backoff.isSome then putEth s p { x with backoff := none, now := x.now.map fun f => { f with time := s.time.t } } else s

/-! ### Links, LPI, downshift (R303, R320 to R322) -/

/-- The link goes down (R303): a frame in progress is lost, the credits are held at 0. -/
def ethLinkDown (s : State) (p : Nat) : State :=
  if ethLink s p then
    let had := (ethAt s p).now.isSome && decide ((ethAt s p).now.map TxNow.queue ≠ some 8)
    let s1 := txAbort (if had then ethCount s p 52 1 else s) p 2 false
    let s2 := ethFlag (ethCount (s1.setFld (Reg.ETH_STATUS p) 0 6 (s1.fld (Reg.ETH_STATUS p) 1 3 * 2)) p 31 1) p 8
    putEth s2 p { ethAt s2 p with credit := Vector.replicate 2 0, creditAt := s2.time.cyc }
  else s

/-- Every port's link goes down (R304, R483). -/
def linksDown (s : State) : State := (List.range 3).foldl ethLinkDown s

/-- Whether Table 13-1 and R303 have a link at a speed code and duplex on the interface that IF and IF_FOLLOW select. The T1S pair has
10 Mb/s alone, and being shared it is half duplex (R324). -/
def ethLinkMay (s : State) (p speed : Nat) (full : Bool) : Bool :=
  let sgmii := decide (speed < 2) || (decide (speed = 2) && full)
  if p = 2 then decide (speed = 0) && !full
  else match s.fld (Reg.ETH_CTRL p) 2 2 with
    | 0 => (decide (speed = 3) && full) || (ethEn s p 4 && sgmii)
    | 1 => decide (speed = 2) && full
    | 2 => sgmii
    | _ => false

/-- The registers of the advertisement that hold speeds above TARGET. -/
def dsAbove (s : State) (p : Nat) : List Nat := if dsTarget s p = 1 then [0, 1] else [0]

/-- Start a renegotiation after the port's own transactions `l` (R321): the link goes down, and the next link-up settles the state. -/
def dsRenegotiate (s : State) (p : Nat) (returning : Bool) (l : List DsStep) : State :=
  let s1 := (ethLinkDown s p).setBit (Reg.ETH_STATUS p) 6 (!returning)
  let x := ethAt s1 p
  putEth s1 p { x with settle := true, returning := returning, swBus := s1.bit (Reg.ETH_MDIO_CMD p) 31 && (x.swBus || x.own.isEmpty), own := x.own ++ l }

/-- DOWNSHIFT (R321): both directions have stayed below DOWN_PCT for HOLD seconds. It is refused while the port has reserved streams; otherwise the advertisement is saved and cut, and the link
renegotiates. -/
def downshift (s : State) (p : Nat) : State :=
  if !ethEn s p 11 || s.bit (Reg.ETH_STATUS p) 6 || (ethAt s p).settle || !ethLink s p || decide (ethSpeed s p ≤ dsTarget s p)
      || decide ((utilNow s p).low < 10 * dsHold s p) then s
  else if reserved s p then ethFlag s p 14
  else dsRenegotiate (ethCount s p 54 1) p false ([.save 0, .save 1, .save 2] ++ (dsAbove s p).map .clear ++ [.control])

/-- DOWNSHIFT_RETURN (R321): the saved advertisement is restored and the link renegotiates; a renegotiation that runs completes first
(R322). -/
def downshiftReturn (s : State) (p : Nat) : State :=
  if s.bit (Reg.ETH_STATUS p) 6 && !(ethAt s p).settle then dsRenegotiate s p true [.restore 0, .restore 1, .restore 2, .control] else s

/-- A write that may enable a reservation, from `old` to `s`, returns the port to full speed (R321). -/
def dsReserve (old s : State) (p : Nat) : State := if reserved s p && !reserved old p then downshiftReturn s p else s

/-- A link-up settles DOWNSHIFTED, which is 1 only where the link resolves at or below TARGET; a downshift whose ground is gone meanwhile
returns at once (R322). -/
def dsSettle (s : State) (p speed : Nat) : State :=
  let x := ethAt s p
  if x.settle then
    let s1 := putEth (s.setBit (Reg.ETH_STATUS p) 6 (decide (speed ≤ dsTarget s p) && (ethEn s p 11 || !x.returning))) p
      { x with settle := false, returning := false }
    if !x.returning && (reserved s1 p || !ethEn s1 p 11) then downshiftReturn s1 p else s1
  else s.setBit (Reg.ETH_STATUS p) 6 (s.bit (Reg.ETH_STATUS p) 6 && decide (speed ≤ dsTarget s p))

/-- The link comes up at a speed code and duplex (R303, R322). At 1,000 Mb/s half duplex it is held down; a link outside Table 13-1
does not come up. -/
def ethLinkUp (s : State) (p speed : Nat) (full : Bool) : State :=
  if !ethPowered s then s
  else if p < 2 ∧ speed = 2 ∧ full = false then ethFlag (ethLinkDown s p) p 16
  else if ethLinkMay s p speed full = false then ethLinkDown s p
  else
    let s0 := utilStart (creditsNow s p) p
    let s1 := ethFlag (s0.setFld (Reg.ETH_STATUS p) 0 4 (1 + speed * 2 + if full then 8 else 0)) p 8
    dsSettle (cbsCheck s1 p) p speed

/-- LPI_ENTRY (R320): the transmit path enters LPI, on SGMII and 2.5GBASE-X alone (Table 13-1). -/
def lpiEntry (s : State) (p : Nat) : State :=
  if ethEn s p 10 && ethLink s p && decide (s.fld (Reg.ETH_CTRL p) 2 2 ≠ 1) && decide (1 ≤ ethSpeed s p) && !reserved s p && (ethAt s p).now.isNone && !s.bit (Reg.ETH_STATUS p) 4
      && (List.range 8).all (fun q => (vget (ethAt s p).txq q []).isEmpty) then
    ethCount (s.setBit (Reg.ETH_STATUS p) 4 true) p 53 1
  else s

/-- LPI_RX (R320): the PHY signals receive LPI, or its end. Only a link that is up, on SGMII or 2.5GBASE-X, has LPI (R304, Table 13-1). -/
def lpiRx (s : State) (p : Nat) (on : Bool) : State :=
  if ethPowered s && ethLink s p && decide (s.fld (Reg.ETH_CTRL p) 2 2 ≠ 1) then
    let s1 := s.setBit (Reg.ETH_STATUS p) 5 on
    if on && !s.bit (Reg.ETH_STATUS p) 5 then ethCount s1 p 30 1 else s1
  else s

/-! ### Register writes (R302, R306, R309) -/

/-- A write of ETH_CTRL: whether the response is an error, and the state. IF and IF_FOLLOW change only while both enables are 0
(R302); T1S has neither, nor EEE and downshift (R325). A cleared DS_EN returns the port to full speed (R321). -/
def ethCtrlWrite (s : State) (p : Nat) (v0 : BitVec 32) : Bool × State :=
  let v := if p = 2 then v0 &&& 0x3E3#32 else v0 &&& 0xFFF#32
  let bad := ethAnyEn s p && decide (v &&& 0x1C#32 ≠ s.reg (Reg.ETH_CTRL p) &&& 0x1C#32)
  let m : BitVec 32 := if bad then 0xFE0#32 else 0xFFC#32
  let s1 := s.setReg (Reg.ETH_CTRL p) ((s.reg (Reg.ETH_CTRL p) &&& ~~~m) ||| (v &&& m))
  let s2 := if bad then ethFlag s1 p 13 else s1
  let s3 := if ethEn s p 11 && !v.getLsbD 11 then downshiftReturn s2 p else s2
  let off := [0, 1].foldl (fun t k => if v.getLsbD k then t else ethEnable t p k false) s3
  (bad, [0, 1].foldl (fun t k => if v.getLsbD k then ethEnable t p k true else t) off)

/-- A write of ETH_MAXLEN, ETH_TXQ(q) or ETH_RXQ(q) at address `a` with writable bits `m`: only while both enables are 0, and
SRC = 1 only on queues 6 and 7 (R302, R306); T1S has no SRC (R325). -/
def ethCfgWrite (s : State) (p a : Nat) (m v : BitVec 32) : Bool × State :=
  if ethAnyEn s p then (true, ethFlag s p 13)
  else if p < 2 ∧ Reg.ETH_TXQ p 0 ≤ a ∧ a < Reg.ETH_TXQ p 6 ∧ v.getLsbD 8 = true then (false, ethFlag s p 13)
  else (false, dsReserve s (s.setReg a (v &&& m)) p)

/-- A write of ETH_CBS_IDLE(q) or ETH_CBS_HI(q). -/
def cbsWrite (s : State) (p a : Nat) (m v : BitVec 32) : State :=
  dsReserve s (cbsCheck ((creditsNow s p).setReg a (v &&& m)) p) p

/-! ### MDIO (R305) -/

/-- Whether an MDIO command writes a register that the downshift function owns (R305, R321). -/
def mdioOwned (s : State) (p : Nat) (v : BitVec 32) : Bool :=
  ethEn s p 11 && !v.getLsbD 26 && decide ((v.extractLsb' 21 5).toNat = s.fld (Reg.ETH_DS p) 26 5)
    && (if v.getLsbD 27 then decide (v.extractLsb' 16 5 = 7#5) && decide (v.extractLsb' 0 16 = 0x20#16)
        else decide (v.extractLsb' 0 5 = 9#5) || decide (v.extractLsb' 0 5 = 4#5))

/-- A write of ETH_MDIO_CMD; the command waits while the port's own transactions use the bus (R322). -/
def mdioWrite (s : State) (p : Nat) (v : BitVec 32) : State :=
  if p = 2 then s
  else if s.bit (Reg.ETH_MDIO_CMD p) 31 || mdioOwned s p v then ethFlag s p 15
  else
    let s1 := s.setReg (Reg.ETH_MDIO_CMD p) ((v &&& 0xFFFFFFF#32) ||| 0x80000000#32)
    putEth s1 p { ethAt s1 p with swBus := (ethAt s1 p).own.isEmpty }

/-- The transaction that ETH_MDIO_CMD and ETH_MDIO_DATA describe; `data` is what a read answers. -/
def mdioSoft (s : State) (p : Nat) (data : BitVec 16) : MdioFrame :=
  let v := s.reg (Reg.ETH_MDIO_CMD p)
  let c := v.getLsbD 27
  { cl45 := c, phy := v.extractLsb' 21 5, dev := v.extractLsb' 16 5, reg := if c then v.extractLsb' 0 16 else (v.extractLsb' 0 5).zeroExtend 16,
    read := v.getLsbD 26, data := if v.getLsbD 26 then data else (s.reg (Reg.ETH_MDIO_DATA p)).extractLsb' 0 16 }

/-- The advertisement register `k` as a transaction, and its bits that name a speed above TARGET (R321). -/
def dsFrame (s : State) (p k : Nat) (read : Bool) (data : BitVec 16) : MdioFrame :=
  let phy := BitVec.ofNat 5 (s.fld (Reg.ETH_DS p) 26 5)
  if k = 0 then ⟨true, phy, 7#5, 0x20#16, read, data⟩ else ⟨false, phy, 0#5, if k = 1 then 9#16 else 4#16, read, data⟩
def dsMask (k : Nat) : BitVec 16 := if k = 0 then 0x80#16 else 0x300#16

/-- One of the port's own transactions ends with read data `data`: the transaction, the transaction that follows it at once, and the
advertisement saved. Bit 9 of the control register, Clause 22 register 0, restarts auto-negotiation. -/
def dsStep (s : State) (p : Nat) (saved : Vector (BitVec 16) 3) (data : BitVec 16) : DsStep → MdioFrame × List DsStep × Vector (BitVec 16) 3
  | .save k => (dsFrame s p k true data, [], vset saved k data)
  | .clear k => (dsFrame s p k false (vget saved k 0#16 &&& ~~~dsMask k), [], saved)
  | .restore k => (dsFrame s p k false (vget saved k 0#16), [], saved)
  | .control => ({ dsFrame s p 1 true data with reg := 0#16 }, [.restart (data ||| 0x200#16)], saved)
  | .restart v => ({ dsFrame s p 1 false v with reg := 0#16 }, [], saved)

/-- The transaction on the bus is software's (R305): BUSY clears and a read result stands in DATA. -/
def mdioSoftEnd (s : State) (p : Nat) (data : BitVec 16) : State :=
  if s.bit (Reg.ETH_MDIO_CMD p) 31 then
    let f := mdioSoft s p data
    let s1 := s.setBit (Reg.ETH_MDIO_CMD p) 31 false
    let s2 := if f.read then s1.setReg (Reg.ETH_MDIO_DATA p) (data.zeroExtend 32) else s1
    putEth s2 p { ethAt s2 p with swBus := false, mdio := some f }
  else s

/-- MDIO_COMPLETE: the transaction on the bus ends. The port's own come before a waiting command of software, but not before one that
runs; with MDC stopped none ends (R304, R305). -/
def mdioComplete (s : State) (p : Nat) (data : BitVec 16) : State :=
  let x := ethAt s p
  if !ethPowered s then s
  else match x.own with
    | st :: rest =>
      if x.swBus then mdioSoftEnd s p data
      else
        let r := dsStep s p x.saved data st
        putEth s p { x with own := r.2.1 ++ rest, saved := r.2.2, mdio := some r.1, swBus := (r.2.1 ++ rest).isEmpty && s.bit (Reg.ETH_MDIO_CMD p) 31 }
    | [] => mdioSoftEnd s p data

/-! ### Receive (R314 to R317, R371) -/

/-- The fields of a filter in force. -/
def filtAt (s : State) (p f : Nat) : BitVec 96 := vget (ethAt s p).filt f 0#96

/-- Whether filter `f` matches a frame (R315). -/
def filtMatch (w : BitVec 96) (fr : List Byte) : Bool :=
  let c := w.extractLsb' 0 32
  let tci := (vlanOf fr).getD 0#16
  c.getLsbD 31
    && (!c.getLsbD 16 || decide (beVal (fr.take 6) = (w.extractLsb' 64 32).toNat + (w.extractLsb' 32 16).toNat * 2 ^ 32))
    && (!c.getLsbD 17 || decide (tci.extractLsb' 0 12 = c.extractLsb' 0 12))
    && (!c.getLsbD 18 || decide (tci.extractLsb' 13 3 = c.extractLsb' 12 3))
    && (!c.getLsbD 19 || decide (be16 fr (etypeAt fr) = (w.extractLsb' 48 16).toNat))

/-- What becomes of a frame: a queue with its filter index (63: none), the stream engine, filtered out, or unwanted. -/
inductive RxFate where
  | queue (q f : Nat)
  | stream
  | drop
  | unwanted
  deriving DecidableEq, Repr

/-- Classify a frame (R315). -/
def rxClassify (s : State) (p : Nat) (fr : List Byte) : RxFate :=
  match (List.range 32).find? fun f => filtMatch (filtAt s p f) fr with
  | some f =>
    let c := (filtAt s p f).extractLsb' 0 32
    match (c.extractLsb' 20 2).toNat with
    | 0 => .queue (ethQueue p (c.extractLsb' 22 3).toNat) f
    | 2 => .stream
    | _ => .drop
  | none =>
    let own := decide (beVal (fr.take 6) = (s.reg (Reg.ETH_MAC_LO p)).toNat + s.fld (Reg.ETH_MAC_HI p) 0 16 * 2 ^ 32)
    let bc := (fr.take 6).all fun b => decide (b = 0xFF#8)
    let mc := (fr.headD 0#8).getLsbD 0 && ethEn s p 6
    if own || bc || mc || ethEn s p 5 then .queue (ethQueue p (s.fld (Reg.ETH_CTRL p) 7 3)) 63 else .unwanted

/-- The counter of the first condition of Table 13-2 that a frame meets: the length conditions first, then alignment, code errors,
the FCS, the length field and MAC Control. -/
def rxBad (s : State) (p : Nat) (fr : List Byte) (align code : Bool) : Option Nat :=
  let n := fr.length
  let e := be16 fr (etypeAt fr)
  if n < 64 then some 13
  else if ethMaxLen s p < n then some 14
  else if align then some 15
  else if code then some 16
  else if fr.drop (n - 4) ≠ fcsOf (fr.take (n - 4)) then some 12
  else if e < 1536 ∧ n - 4 - (etypeAt fr + 2) < e then some 17
  else if e = 0x8808 then some 18
  else none

/-- The bytes a receive queue holds. -/
def rxOccupied (s : State) (p q : Nat) : Nat := ((vget (ethAt s p).rxq q []).map fun f => f.bytes.length).sum

/-- Deliver one frame to its ring with descriptor `d` (R371). -/
def rxDeliver (s : State) (p q : Nat) (f : RxFrame) (d : List Byte) : State :=
  let r := rxRing p q
  let slot := ringSlot s r (ringCi s r)
  let small := decide (descField d 8 2 < f.bytes.length)
  let sec := timeSec f.time
  let w := [(if small then 0 else f.bytes.length) + f.filter * 2 ^ 14 + (if small then 2 ^ 20 else 0),
    (f.vlan.getD 0#16).toNat + (if f.vlan.isSome then 2 ^ 16 else 0) + (f.csum.toNat % 4) * 2 ^ 17 + (f.csum.toNat / 4) * 2 ^ 19,
    timeNs f.time, sec % 2 ^ 32, sec / 2 ^ 32]
  let s1 := if small then ethCount s p (22 + q) 1 else ethPut s p (descField d 0 8) f.bytes
  ringAdvance (ethPut s1 p (slot + 12) (leDwords w)) r

/-- Deliver the frames a queue holds, as descriptors are available: `ds` are those the host posted, in ring order. -/
def rxDrain (s : State) (p q : Nat) : List (List Byte) → State
  | [] => s
  | d0 :: ds =>
    match vget (ethAt s p).rxq q [] with
    | f :: rest =>
      let r := rxRing p q
      if ringReady s r = 0 ∨ hostHolds s (ethMaster p) (ringSlot s r (ringCi s r)) 32 = true then s
      else
        let d := hostGet s (ethMaster p) (ringSlot s r (ringCi s r)) 32 d0 false
        if d.2.1 then ringFail d.2.2 r
        else rxDrain (rxDeliver (putEth d.2.2 p { ethAt d.2.2 p with rxq := vset (ethAt d.2.2 p).rxq q rest }) p q f d.1) p q ds
    | [] => s

/-- The descriptors for a queue: the host's, or in local mode one for each slot the yard holds. -/
def rxDescs (s : State) (p q : Nat) (ds : List (List Byte)) : List (List Byte) :=
  if hostLocal s then List.replicate (ringReady s (rxRing p q)) [] else ds

/-- The port and queue of a receive ring. -/
def rxQueueOf (r : Nat) : Option (Nat × Nat) :=
  if 28 ≤ r ∧ r < 36 then some (0, r - 28) else if 44 ≤ r ∧ r < 52 then some (1, r - 44) else if r = 53 then some (2, 0) else none

/-- A doorbell write (R351), which delivers the frames held in the receive buffer to the slots it produces (R353, R371). -/
def doorbellRing (s : State) (r : Nat) (v : BitVec 32) (fromCore : Bool) (ds : List (List Byte)) : State :=
  let s1 := doorbell s r v fromCore
  match rxQueueOf r with
  | some x => if hostLocal s = fromCore then rxDrain s1 x.1 x.2 (rxDescs s1 x.1 x.2 ds) else s1
  | none => s1

/-- A frame that the filters and the buffer admitted to queue `q` (R314 step 3). -/
def rxAccept (s : State) (p q f : Nat) (fr : List Byte) (ds : List (List Byte)) : State :=
  let held : RxFrame := ⟨fr, f, vlanOf fr, csumStatus (fr.take (fr.length - 4)), timeMove s.time.t (-(s.fld (Reg.ETH_TS_LAT p) 16 16 : Nat))⟩
  let s1 := putEth s p { ethAt s p with rxq := vset (ethAt s p).rxq q (vget (ethAt s p).rxq q [] ++ [held]) }
  rxDrain s1 p q (rxDescs s1 p q ds)

/-- RX_FRAME (R314): a whole received frame, FCS included. -/
def rxFrame (s0 : State) (p : Nat) (fr : List Byte) (align code : Bool) (ds : List (List Byte)) : State :=
  let s := if ethLink s0 p then utilAdd s0 p fr.length true else s0
  if !ethEn s p 1 || !ethLink s p || !ethPowered s then s
  else if p = 2 ∧ be16 fr (etypeAt fr) = s.fld Reg.T1S_AUDIO 1 16 then
    match rxBad s p fr align code with
    | some c => ethCount s p c 1
    | none => { countGood s p 0 fr with t1s := { s.t1s with inbox := s.t1s.inbox ++ [fr] } }
  else
    match rxClassify s p fr with
    | .queue q f =>
      if s.fld (Reg.ETH_RXQ p q) 0 8 * 1024 < rxOccupied s p q + ethMaxLen s p then ethFlag (ethCount s p (22 + q) 1) p 10
      else match rxBad s p fr align code with
        | some c => ethCount s p c 1
        | none => rxAccept (countGood s p 0 fr) p q f fr ds
    | fate =>
      match rxBad s p fr align code with
      | some c => ethCount s p c 1
      | none =>
        let s1 := countGood s p 0 fr
        match fate with
        | .stream =>
          let s2 := ethCount s1 p 21 1
          { s2 with stream := { s2.stream with inbox := s2.stream.inbox ++ [fr] } }
        | .drop => ethCount s1 p 20 1
        | _ => ethCount s1 p 19 1

/-- ETH_FILT_C_WRITE (R315): the held fields of the filter apply with it. -/
def filtWrite (s : State) (p f : Nat) (v : BitVec 32) : State :=
  let s1 := s.setReg (Reg.ETH_FILT_C p f) (v &&& 0x81FF7FFF#32)
  let w : BitVec 96 := s1.reg (Reg.ETH_FILT_A p f) ++ s1.reg (Reg.ETH_FILT_B p f) ++ s1.reg (Reg.ETH_FILT_C p f)
  putEth s1 p { ethAt s1 p with filt := vset (ethAt s1 p).filt f w }

/-! ### The commands -/

/-- ETH_CTRL_WRITE (R302). -/
def execEthCtrlWrite (p : Fin 3) (v : MasterWrite) (s : State) : Out :=
  done (s.asked v.master.val (Reg.ETH_CTRL p.val) v.value (ethCtrlWrite s p.val v.value))

/-- ETH_MDIO_CMD_WRITE (R305). -/
def execEthMdioCmdWrite (p : Fin 2) (v : BitVec 32) (s : State) : Out := done (mdioWrite s p.val v)

/-- MDIO_COMPLETE (R305). -/
def execMdioComplete (p : Fin 2) (data : BitVec 16) (s : State) : Out := done (mdioComplete s p.val data)

/-- LINK_CHANGE (R303). -/
def execLinkChange (p : Fin 3) (up : Bool) (speed : BitVec 2) (full : Bool) (s : State) : Out :=
  done (if up then ethLinkUp s p.val speed.toNat full else ethLinkDown s p.val)

/-- TX_FRAME_START (R307, R308). -/
def execTxFrameStart (p : Fin 3) (cycles : BitVec 64) (deferred : Bool) (emptied : Option (BitVec 14)) (s : State) : Out :=
  done (txFrameStart (elapse s cycles.toNat) p.val deferred emptied)

/-- TX_FRAME_END (R318). -/
def execTxFrameEnd (p : Fin 3) (cycles : BitVec 64) (s : State) : Out := done (txFrameEnd (elapse s cycles.toNat) p.val)

/-- COLLISION (R310). -/
def execCollision (p : Fin 3) (late : Bool) (s : State) : Out := done (txCollision s p.val late)

/-- BACKOFF_END (R310). -/
def execBackoffEnd (p : Fin 3) (s : State) : Out := done (backoffEnd s p.val)

/-- TX_DESCRIPTOR (R370): the descriptor and its buffer as the host's memory holds them. A read of host memory that fails sets CPL_ERR
(R355); one that times out is HOST_READ_ERROR's. -/
def execTxDescriptor (p : Fin 3) (q : Fin 8) (desc data : List Byte) (failed : Bool) (s : State) : Out :=
  done (txDescriptor (if failed && !hostLocal s && txFetches s p.val (ethQueue p.val q.val) then hostReadFail s false else s)
    p.val q.val desc data failed)

/-- RX_FRAME (R314): the frame, an alignment or code error, and the posted receive descriptors in ring order. -/
def execRxFrame (p : Fin 3) (frame : List Byte) (align code : Bool) (cycles : BitVec 64) (descs : List (List Byte)) (s : State) : Out :=
  done (rxFrame (elapse s cycles.toNat) p.val frame align code descs)

/-- ETH_FILT_C_WRITE (R315). -/
def execEthFiltCWrite (p : Fin 3) (f : Fin 32) (v : BitVec 32) (s : State) : Out := done (filtWrite s p.val f.val v)

/-- POP (R318). -/
def execTxtsPop (p : Fin 3) (s : State) : Out := done (stampPop s p.val)

/-- LPI_ENTRY (R320). -/
def execLpiEntry (p : Fin 2) (s : State) : Out := done (lpiEntry s p.val)

/-- LPI_RX (R320). -/
def execLpiRx (p : Fin 2) (on : Bool) (s : State) : Out := done (lpiRx s p.val on)

/-- DOWNSHIFT (R321). -/
def execDownshift (p : Fin 2) (s : State) : Out := done (downshift s p.val)

/-- DOWNSHIFT_RETURN (R321): a window has exceeded UP_PCT, or a ground for the return that came during a renegotiation stands. -/
def execDownshiftReturn (p : Fin 2) (s : State) : Out :=
  done (if (ethAt s p.val).util.exceeded || reserved s p.val || !ethEn s p.val 11 then downshiftReturn s p.val else s)

end Sys2Proof.Machine
end

