-- ==== Sys2Proof/Machine/Journal.lean ====
section
/-! DEFINITION. The persist journal (R461, R462) and the retirements it records (R448). The supervisor's writes of the journal take
effect at once. -/
namespace Sys2Proof.Machine

/-- The journal's first offset, the size of a block, and its blocks 113 to 126 (Table 18-1). -/
def journalBase : Nat := 0x710000
def blockSize : Nat := 0x10000
def journalBlocks : Nat := 14

/-- TYPE of a record. -/
def jRetire : Nat := 1
def jPolicy : Nat := 2
def jData : Nat := 3
def jClear : Nat := 4

/-- A journal record: where it stands, its TYPE, SEQ, PA and PB. -/
structure JournalRecord where
  at_ : Nat
  type : Nat
  seq : Nat
  pa : List Byte
  pb : List Byte
  deriving DecidableEq, Repr

/-- The 32 bytes of a record (Table 19-9). -/
def journalBytes (type seq : Nat) (pa pb : List Byte) : List Byte :=
  let b := [BitVec.ofNat 8 type, 0#8, 0#8, 0#8] ++ leNat 4 seq ++ pa ++ pb
  b ++ leNat 4 (crc32c b).toNat ++ leNat 4 0x4A524E4C

/-- The record at flash offset `a`, if it is valid: CRC and COMMIT are correct and no granule is torn. -/
def journalAt (s : State) (a : Nat) : Option JournalRecord :=
  let b := (List.range 32).map fun k => flashByte s (a + k)
  if decide (leVal (b.drop 28) = 0x4A524E4C) && decide (leVal ((b.drop 24).take 4) = (crc32c (b.take 24)).toNat)
      && !granuleTorn s (a / 16) && !granuleTorn s (a / 16 + 1) then
    some ⟨a, leVal (b.take 1), leVal ((b.drop 4).take 4), (b.drop 8).take 8, (b.drop 16).take 8⟩
  else none

/-- The record positions of the journal that are not erased. -/
def journalUsed (s : State) : List Nat :=
  ((Cells.keys s.boot.flash ++ (Cells.keys s.boot.torn).map (16 * ·)).filter fun a =>
    decide (journalBase ≤ a) && decide (a < journalBase + journalBlocks * blockSize)).map (· / 32 * 32) |>.eraseDups

/-- Every valid record. -/
def journalRecords (s : State) : List JournalRecord := (journalUsed s).filterMap (journalAt s)

/-- The highest SEQ of a list of records, and the block being written: the one that holds it. -/
def journalSeq (l : List JournalRecord) : Nat := l.foldl (fun n r => max n r.seq) 0
def journalBlock (l : List JournalRecord) : Nat :=
  match l.find? fun r => decide (r.seq = journalSeq l) with
  | some r => (r.at_ - journalBase) / blockSize
  | none => 0

/-- The first free position after the last one used in block `k`; `none` when the block is full. -/
def journalFree (s : State) (k : Nat) : Option Nat :=
  let base := journalBase + k * blockSize
  let next := (journalUsed s).foldl (fun n a => if base ≤ a ∧ a < base + blockSize then max n (a + 32) else n) base
  if next < base + blockSize then some next else none

/-- Program a record at an offset, granule 0 before granule 1. -/
def journalPut (s : State) (a type seq : Nat) (pa pb : List Byte) : State :=
  let b := journalBytes type seq pa pb
  flashPut (flashPut s a (b.take 16)) (a + 16) (b.drop 16)

/-- The DATA records that follow a POLICY record, in SEQ order. -/
def policyData (l : List JournalRecord) (p : JournalRecord) : List JournalRecord :=
  (List.range ((leVal (p.pa.take 4) + 15) / 16)).filterMap fun k => l.find? fun r => decide (r.type = jData) && decide (r.seq = p.seq + 1 + k)

/-- The table of a POLICY record, if its DATA match its CRC. -/
def policyTable (l : List JournalRecord) (p : JournalRecord) : Option (List Byte) :=
  let n := leVal (p.pa.take 4)
  let t := ((policyData l p).flatMap fun r => r.pa ++ r.pb).take n
  if decide (t.length = n) && decide ((crc32c t).toNat = leVal (p.pa.drop 4)) then some t else none

/-- The stored policy (R462): the newest complete one, unless a newer CLEAR_POLICY follows it. -/
def storedPolicy (s : State) : Option (JournalRecord × List Byte) :=
  let l := journalRecords s
  let best := l.foldl (fun (b : Option (JournalRecord × List Byte)) r =>
    if r.type = jPolicy then
      match policyTable l r, b with
      | some t, some (q, u) => if q.seq < r.seq then some (r, t) else some (q, u)
      | some t, none => some (r, t)
      | none, b => b
    else b) none
  match best with
  | some (r, t) => if l.any fun c => decide (c.type = jClear) && decide (r.seq < c.seq) then none else some (r, t)
  | none => none

/-- Append records to the block in use, without compaction. -/
def journalWrite (s : State) (block seq : Nat) : List (Nat × List Byte × List Byte) → State
  | [] => s
  | (t, pa, pb) :: rest =>
    match journalFree s block with
    | some a => journalWrite (journalPut s a t seq pa pb) block (seq + 1) rest
    | none => s

/-- The records a compaction keeps: every RETIRE record, and the policy in force with its DATA. -/
def journalKept (s : State) : List (Nat × List Byte × List Byte) :=
  let l := journalRecords s
  let r := (l.filter fun x => decide (x.type = jRetire)).map fun x => (x.type, x.pa, x.pb)
  match storedPolicy s with
  | some (p, _) => r ++ (p :: policyData l p).map fun x => (x.type, x.pa, x.pb)
  | none => r

/-- Append records; when the block in use has no room for all of them, the records to keep move to the next block, which is erased
before its use, and the old block is erased. -/
def journalAppend (s : State) (l : List (Nat × List Byte × List Byte)) : State :=
  let recs := journalRecords s
  let k := journalBlock recs
  let seq := if recs.isEmpty then 0 else journalSeq recs + 1
  let room := match journalFree s k with
    | some a => (journalBase + (k + 1) * blockSize - a) / 32
    | none => 0
  if l.length ≤ room then journalWrite s k seq l
  else
    let n := (k + 1) % journalBlocks
    let s1 := journalWrite (flashErase s (journalBase + n * blockSize)) n seq (journalKept s ++ l)
    flashErase s1 (journalBase + k * blockSize)

/-- Journal a retirement (R448, R461). -/
def journalRetire (s : State) (kind phys logical cause : Nat) : State :=
  journalAppend s [(jRetire, leNat 1 kind ++ leNat 1 phys ++ leNat 1 logical ++ leNat 1 cause ++ leNat 4 (s.tick.frameCnt.toNat % 2 ^ 32),
    List.replicate 8 0#8)]

/-- Retire a physical unit: the record, the spare that is used up, and the journal entry. -/
def retireUnit (s : State) (kind phys logical cause i : Nat) : State :=
  journalRetire (useSpare (retiredRecord s kind phys cause) kind i) kind phys logical cause

/-- A verify failure of operation `o` (R458): a spare physical block (128 to 135) takes the logical block with what it held and what the
operation writes, an entry joins the spare-sector table, and the failed block is retired. With no spare left the operation's granules stay
as it left them. -/
def flashVerifyFailed (s : State) (o : Nat × Bool) : State :=
  let b := o.1 / 65536
  let n := s.boot.spareTable.length
  if n < 8 then
    retireUnit { s with boot := { s.boot with spareTable := s.boot.spareTable ++ [(b, 128 + n)] } } kindFlash (flashPhys s b) b 3 0
  else
    let s1 := s.raise Reg.FAR_STATUS 0x20#32
    { s1 with boot := { s1.boot with torn := (tornGranules (some o)).foldl (fun t g => Cells.write (fun _ => false) t g true) s1.boot.torn } }

/-- FLASH_OPERATION_DONE (R416, R458): `failed` says that the verify failed. -/
def flashDone (s : State) (failed : Bool) : State :=
  match s.boot.op with
  | none => s
  | some o =>
    let s1 := if failed then flashVerifyFailed s o else s
    let s2 := (s1.lower Reg.FL_STATUS 1#32).raise Reg.FL_STATUS 16#32
    { s2 with boot := { s2.boot with op := none } }

/-- Store a policy table, or remove the stored one (R444, R462). -/
def journalPolicy (s : State) (t : List Byte) : State :=
  journalAppend s ((jPolicy, leNat 4 t.length ++ leNat 4 (crc32c t).toNat, List.replicate 8 0#8) ::
    (List.range ((t.length + 15) / 16)).map fun k =>
      let d := (t.drop (16 * k)).take 16 ++ List.replicate (16 - ((t.drop (16 * k)).take 16).length) 0#8
      (jData, d.take 8, d.drop 8))
def journalClear (s : State) : State := journalAppend s [(jClear, List.replicate 8 0#8, List.replicate 8 0#8)]

end Sys2Proof.Machine
end

