-- ==== Sys2Proof/Machine/Tether.lean ====
section
/-! DEFINITION. The tether: ports and lanes, stall channels, control messages, partitions and SYNC (chapter 20). -/
namespace Sys2Proof.Machine

/-- Port `p`. -/
def tetherAt (s : State) (p : Nat) : TetherPort := vget s.tether.ports p TetherPort.zero
def putTether (s : State) (p : Nat) (x : TetherPort) : State := { s with tether := { s.tether with ports := vset s.tether.ports p x } }

/-- Fields of TETH_CFG. -/
def tetherId (s : State) : Nat := s.fld Reg.TETH_CFG 0 2
def tetherHost (s : State) : Bool := s.bit Reg.TETH_CFG 3
def tetherEn (s : State) (p : Nat) : Bool := s.bit Reg.TETH_CFG (4 + p)

/-- Whether the device is a tether follower (R31, R470). -/
def isFollower (s : State) : Bool := (tetherEn s 0 || tetherEn s 1) && !s.bit Reg.TETH_CFG 2

/-- Whether the ports are powered (R465). -/
def tetherPowered (s : State) : Bool := decide (s.power.phase = .running) && !s.listen && !inSafe s

/-- LINK of a port. -/
def tetherLink (s : State) (p : Nat) : Bool := s.bit (Reg.TETH_PSTAT p) 0

/-- The data lanes of a direction that work, of the port's two directions the fewer. -/
def lanesLeft (b : BitVec 4) : Nat := ((List.range 4).filter fun l => !b.getLsbD l).length
def lanesWorking (x : TetherPort) : Nat := min (lanesLeft x.fails) (lanesLeft x.txFails)

/-- Show a port's lanes in TETH_PSTAT. -/
def tetherShow (s : State) (p : Nat) : State :=
  let x := tetherAt s p
  ((s.setFld (Reg.TETH_PSTAT p) 4 4 (if tetherLink s p then (~~~(x.fails ||| x.txFails)).toNat else 0)).setBit (Reg.TETH_PSTAT p) 8
    (x.rxOnSpare.isSome || x.txOnSpare.isSome))

/-- Send a message on a port whose link is up. -/
def tetherSend (s : State) (p : Nat) (m : TetherMsg) : State :=
  if tetherLink s p then putTether s p { tetherAt s p with wire := (tetherAt s p).wire ++ [m] } else s

/-! ### Links and lanes (R465, R466) -/

/-- A port's link goes down. -/
def tetherPortDown (s : State) (p : Nat) : State :=
  if tetherLink s p then
    let x := tetherAt s p
    tetherShow ((putTether s p { x with down := true, peerHello := false, rxMove := none, txMove := none, queue := [] }).setBit
      (Reg.TETH_PSTAT p) 0 false) p
  else s

/-- Every port goes down (R465). -/
def tetherDown (s : State) : State := tetherPortDown (tetherPortDown s 0) 1

/-- The number by which a lane is reported and restored, as FAR_INIT.UNIT has it (Table 19-11). -/
def lanePhys (p : Nat) (rx : Bool) (lane : Nat) : Nat := lane + (if rx then 8 else 0) + 16 * p

/-- A lane of one direction is out of use; with fewer than 2 the port goes down. -/
def laneOut (s : State) (p : Nat) (rx : Bool) (lane : Nat) : State :=
  let x := tetherAt s p
  let b := BitVec.ofNat 4 (2 ^ lane)
  let s1 := putTether s p (if rx then { x with fails := x.fails ||| b, rxGone := x.rxGone ||| b } else { x with txFails := x.txFails ||| b })
  if lanesWorking (tetherAt s1 p) < 2 then tetherPortDown s1 p else tetherShow s1 p

/-- Retire a lane with cause 4. -/
def laneRetire (s : State) (p : Nat) (rx : Bool) (lane : Nat) : State :=
  retireUnit s kindTether (lanePhys p rx lane) lane 4 p

/-- Send LANE for receive lane `lane`: both ends move its traffic at the next frame tick. -/
def sendLane (s : State) (p lane : Nat) : State := tetherSend s p (.lane (BitVec.ofNat 2 lane) ((s.tick.frameCnt + 1#64).setWidth 32))

/-- LANE_FAIL (R466): receive lane `lane` fails, 4 naming the spare, whose failure takes the lane that it carries out of use. LANE names
data lanes only, so none is sent for a spare that carries no lane (DEDUCED, log entry 98). -/
def laneFail (s : State) (p lane : Nat) : State :=
  let x := tetherAt s p
  if !tetherLink s p || (if lane = 4 then x.spareBad else x.fails.getLsbD lane) then s
  else
    let s1 := laneRetire (s.raise Reg.TETH_STATUS 2#32) p true lane
    if lane = 4 then
      let s2 := putTether s1 p { tetherAt s1 p with spareBad := true, rxMove := none }
      match (match x.rxOnSpare with
        | some l => some l
        | none => x.rxMove) with
      | some l => laneOut (sendLane s2 p l.toNat) p true l.toNat
      | none => s2
    else if x.rxOnSpare.isNone && x.rxMove.isNone && !x.spareBad then
      sendLane (putTether s1 p { tetherAt s1 p with rxMove := some (BitVec.ofNat 2 lane) }) p lane
    else laneOut (sendLane s1 p lane) p true lane

/-- LANE (R466): the peer's notice that transmit lane `lane` failed. -/
def laneNotice (s : State) (p : Nat) (lane : BitVec 2) (frame : BitVec 32) : State :=
  let x := tetherAt s p
  if !tetherLink s p || decide (x.txOnSpare = some lane) || decide (x.txMove.map Prod.fst = some lane) || x.txFails.getLsbD lane.toNat then s
  else
    let s1 := laneRetire s p false lane.toNat
    if x.txOnSpare.isNone && x.txMove.isNone then putTether s1 p { tetherAt s1 p with txMove := some (lane, frame) }
    else laneOut s1 p false lane.toNat

/-- SPARE_LANE_ROTATE (R466): a spare that carries a lane's traffic mirrors nothing. -/
def spareRotate (s : State) (p : Nat) : State :=
  let x := tetherAt s p
  if tetherLink s p && x.rxOnSpare.isNone then putTether s p { x with mirror := x.mirror + 1#2 } else s

/-- TETHER_LINK_UP: `lanes` gained lock, bit 4 the spare. A lane retired before is announced to the peer (R463). -/
def tetherLinkUp (s : State) (p : Nat) (lanes : BitVec 5) : State :=
  let x := tetherAt s p
  let onSpare : BitVec 4 := match x.rxOnSpare with
    | some l => BitVec.ofNat 4 (2 ^ l.toNat)
    | none => 0#4
  let y := { x with fails := x.rxGone ||| (~~~(lanes.extractLsb' 0 4) &&& ~~~onSpare), spareBad := !lanes.getLsbD 4, marks := 0 }
  if tetherEn s p && tetherPowered s && !tetherLink s p && decide (2 ≤ lanesWorking y) then
    let s1 := tetherShow ((putTether s p y).setBit (Reg.TETH_PSTAT p) 0 true) p
    match x.rxOnSpare with
    | some l => sendLane s1 p l.toNat
    | none => s1
  else s

/-! ### Stall channels (R467 to R469) -/

/-- Fields of a channel entry. -/
def chEn (w : BitVec 32) : Bool := w.getLsbD 31
def chFwd (w : BitVec 32) : Bool := w.getLsbD 30
def chStall (w : BitVec 32) : Nat := (w.extractLsb' 0 11).toNat

/-- The shadow of port `p`'s channel entries from register `base`. -/
def channelShadow (s : State) (base : Nat) : Cells (BitVec 32) :=
  (s.regs.filter fun e => decide (base ≤ e.1) && decide (e.1 < base + 0x800)).map fun e => ((e.1 - base) / 4, e.2)

/-- The swap of port `p`'s set: the shadow comes into force, and a receive channel newly enabled starts afresh. -/
def swapTether (s : State) (p : Nat) : State :=
  let x := tetherAt s p
  let rxA := channelShadow s (Reg.TETH_RXE p 0)
  putTether s p { x with
    txA := channelShadow s (Reg.TETH_TXE p 0), rxA := rxA, live := true,
    rx := x.rx.filter fun e => chEn (Cells.get x.rxA e.1) && chEn (Cells.get rxA e.1) }

/-- Release the claims of port `p`'s receive entries that the new table does not keep; `old` is the table in force before. -/
def releaseTether (s : State) (p : Nat) (old : Cells (BitVec 32)) : State :=
  old.foldl (fun u e =>
    let w := Cells.get (tetherAt u p).rxA e.1
    if chEn e.2 && !(chEn w && decide (chStall w = chStall e.2)) then releaseStall u (chStall e.2) clsTether (512 * p + e.1) else u) s

/-- Claim the stalls of port `p`'s receive entries in channel order; a refused entry reads EN 0 (R468). -/
def claimTether (s : State) (p : Nat) : State :=
  (tetherAt s p).rxA.foldl (fun u e =>
    if chEn e.2 then
      let r := claimStall u (chStall e.2) clsTether (512 * p + e.1)
      if r.1 then r.2
      else putTether r.2 p { tetherAt r.2 p with rxA := Cells.set (tetherAt r.2 p).rxA e.1 (e.2 &&& 0x7FFFFFFF#32) }
    else u) s

/-- The word that arrived for channel `i` of port `p`. -/
def arrived (x : SampleInput) (p i : Nat) : Option Word :=
  (x.tether.find? fun e => decide (e.1.val = p) && decide (e.2.1.val = i)).map fun e => e.2.2

/-- LAT: the samples from the interval in which the peer reads a word to that in which this device reads it (R469). -/
def tetherLat (s : State) : Nat := max 2 (s.fld Reg.TETH_CFG 8 4)

/-- The words that arrive for port `p` in this interval join those on their way; without a link none does. -/
def tetherLine (x : SampleInput) (s : State) (p : Nat) : State :=
  let new := if tetherLink s p then
      (x.tether.filter fun e => decide (e.1.val = p)).map fun e => (e.2.1.val, e.2.2)
    else []
  putTether s p { tetherAt s p with line := (new :: (tetherAt s p).line).take 14 }

/-- The word that channel `i` of port `p` writes in this interval, to be read in the next: the peer's of LAT samples before that. A word
that the peer reads in one interval arrives in the next (DEDUCED, log entry 98). -/
def tetherDue (s : State) (p i : Nat) : Option Word :=
  (((tetherAt s p).line.getD (tetherLat s - 2) []).find? fun e => decide (e.1 = i)).map Prod.snd

/-- A channel whose last word is repeated goes on for one interval: `w` says that a word has come, which is used from the next frame tick;
`n` is the fade length and `f` the frame length. -/
def TetherRx.holdOn (t : TetherRx) (w : Option Word) (n f : Nat) : TetherRx :=
  let start := w.isNone && !t.fade && decide (f ≤ t.miss)
  let full := start && decide (t.num = t.den)
  let num := if full then n else t.num
  let den := max 1 (if full then n else t.den)
  { t with miss := if w.isSome then 0 else t.miss + 1, num := if t.fade || start then num - 1 else num, den := den,
           back := w.isSome, fade := t.fade || start }

/-- One receive channel in one interval (R469). -/
def rxNext (t : TetherRx) (w : Option Word) (n f : Nat) : Word × TetherRx :=
  match t.hold, w with
  | false, some v =>
    let num := if t.up then min t.den (t.num + 1) else t.num
    (if num = t.den then v else scaleFrac v num t.den, { t with last := v, num := num, up := t.up && decide (num < t.den) })
  | false, none =>
    (if t.num = t.den then t.last else scaleFrac t.last t.num t.den, { t with miss := 1, up := false, back := false, hold := true, fade := false })
  | true, v =>
    let u := t.holdOn v n f
    (if u.num = u.den then u.last else scaleFrac u.last u.num u.den, u)

/-- A missing word of port `p`: LATE counts it, and MISS too where the port has no link (R469; DEDUCED, log entry 98). -/
def tetherMissing (s : State) (p : Nat) : State :=
  let s1 := s.count (Reg.TETH_ERR p) 16 16 1
  if tetherLink s p then s1 else s1.count (Reg.TETH_ERR p) 0 16 1

/-- The receive side of port `p` in one interval. -/
def tetherRxSample (x : SampleInput) (s0 : State) (p : Nat) : State :=
  let s := tetherLine x s0 p
  (tetherAt s p).rxA.foldl (fun u e =>
    if chEn e.2 && holdsStall u (chStall e.2) clsTether (512 * p + e.1) then
      let y := tetherAt u p
      let w := tetherDue u p e.1
      let r := rxNext (Cells.read rxFresh y.rx e.1) w (msSamples 20 u.rate) u.f
      let u1 := putTether u p { y with rx := Cells.write rxFresh y.rx e.1 r.2 }
      let u2 := if w.isSome then u1 else tetherMissing u1 p
      stallWrite u2 (chStall e.2) clsTether (512 * p + e.1) (if y.muted then 0#36 else r.1)
    else u) s

/-- The transmit side of port `p` at a boundary: the words readable in the interval that ends, and the words forwarded (R467);
firmware messages that wait go out. Entries that a reset kept send nothing before a swap brings them into force (R490). -/
def tetherTxSample (x : SampleInput) (s : State) (p : Nat) : State :=
  let y := tetherAt s p
  if tetherLink s p then
    putTether s p { y with
      txWords := y.txA.filterMap fun e =>
        if chEn e.2 && y.live then
          if chFwd e.2 then (arrived x (1 - p) (chStall e.2 % 512)).map fun w => (e.1, w) else some (e.1, stallRead s (chStall e.2))
        else none,
      wire := y.queue, queue := [] }
  else putTether s p { y with txWords := [], wire := [] }

/-! ### Partitions (R474, R475) -/

/-- The devices heard through port `p`; after a peer loss none until the rejoin (R477). -/
def heardOn (s : State) (p : Nat) : BitVec 4 :=
  if (tetherAt s p).lost then 0#4
  else BitVec.ofNat 4 ((List.range 4).foldl (fun n d => if vget (tetherAt s p).heard d 4 < 4 then n + 2 ^ d else n) 0)

/-- This device's bit. -/
def selfBit (s : State) : BitVec 4 := BitVec.ofNat 4 (2 ^ tetherId s)

/-- MEMBERS (R474). -/
def members (s : State) : BitVec 4 := selfBit s ||| heardOn s 0 ||| heardOn s 1

/-- The lowest device of a bitmap. -/
def lowestDevice (b : BitVec 4) : Option Nat := (List.range 4).find? fun d => b.getLsbD d

/-- The device whose partition holds authority (R475). -/
def authorityDevice (s : State) (ring : BitVec 4) : Option Nat :=
  match lowestDevice (ring &&& (s.tether.hosts ||| if tetherHost s then selfBit s else 0#4)) with
  | some d => some d
  | none => if s.tether.witness then lowestDevice ((s.reg Reg.TETH_WITNESS).extractLsb' 0 4) else none

/-- Evaluate membership and authority (R474, R475). -/
def tetherAuth (s : State) : State :=
  let m := members s
  let ring := (s.reg Reg.TETH_STATUS).extractLsb' 12 4 ||| m
  let s1 := (s.setFld Reg.TETH_STATUS 8 4 m.toNat).setFld Reg.TETH_STATUS 12 4 ring.toNat
  match authorityDevice s1 ring with
  | some d => { s1.setFld Reg.TETH_STATUS 16 2 (if m.getLsbD d then 1 else 2) with
      tether := { s1.tether with commits := decide (d = tetherId s) } }
  | none => { s1.setFld Reg.TETH_STATUS 16 2 2 with tether := { s1.tether with commits := false } }

/-- WITNESS_EXPIRY (R475). -/
def witnessExpire (s : State) : State := tetherAuth { s with tether := { s.tether with witness := false } }

/-- A write of TETH_WITNESS: the bitmap is in force for 500 ms. -/
def witnessWrite (s : State) (v : BitVec 32) : State :=
  tetherAuth { s.setReg Reg.TETH_WITNESS (v &&& 0xF#32) with tether := { s.tether with witness := true } }

/-! ### Messages (R472, R473) -/

/-- LEN of a header word, and its body words. -/
def msgLen (h : BitVec 32) : Nat := min 252 (h.extractLsb' 8 8).toNat
def msgWords (h : BitVec 32) : Nat := (msgLen h + 3) / 4

/-- MSG_DROP. -/
def msgDrop (s : State) : State := s.raise Reg.TETH_STATUS 16#32

/-- Remember a (SRC, SEQ) pair among the last 64. -/
def msgNote (s : State) (k : Nat × Nat) : State := { s with tether := { s.tether with seen := (k :: s.tether.seen).take 64 } }

/-- Queue a message of this device on both ports (R473). -/
def msgQueue (s : State) (h : BitVec 32) (body : List (BitVec 32)) : State :=
  if [0, 1].any fun p => decide (16 ≤ (tetherAt s p).queue.length) then msgDrop s
  else
    let h1 := (h &&& 0x001CFFFF#32) ||| BitVec.ofNat 32 (tetherId s * 2 ^ 16 + s.tether.seq.toNat * 2 ^ 24)
    [0, 1].foldl (fun u p => if tetherLink u p then putTether u p { tetherAt u p with queue := (tetherAt u p).queue ++ [.firmware h1 body] } else u)
      { s with tether := { s.tether with seq := s.tether.seq + 1#8 } }

/-- Send a REPLY to a message of type `ty` to device `d`: `reason` 0 for accepted, `set` 0xFFFF where no set is meant (Table 20-7). -/
def sendReply (s : State) (d ty reason set : Nat) : State :=
  msgQueue s (BitVec.ofNat 32 (0x14 + 8 * 256 + d * 2 ^ 18)) [BitVec.ofNat 32 (ty + reason * 256 + set * 65536), s.tick.frameCnt.setWidth 32]

/-- TETH_MSG_TX_WRITE: a header or body word. -/
def msgTxWrite (s : State) (header : Bool) (v : BitVec 32) : State :=
  let fresh := header || s.tether.push.isEmpty
  let s1 := if header && !s.tether.push.isEmpty then msgDrop s else s
  let l := if fresh then [v] else s.tether.push ++ [v]
  match l with
  | h :: body =>
    if msgWords h ≤ body.length then msgQueue { s1 with tether := { s1.tether with push := [] } } h body
    else { s1 with tether := { s1.tether with push := l } }
  | [] => s1

/-- TETH_MSG_RX_READ: the word read and the state (R473). A message of LEN 0 leaves at the read after its header. -/
def msgRxRead (s : State) : BitVec 32 × State :=
  let t := s.tether
  let q := match t.rxq with
    | [h] :: rest => if t.read = 1 then ((rest, 0) : List (List (BitVec 32)) × Nat) else ([h] :: rest, t.read)
    | l => (l, t.read)
  match q.1 with
  | [] => (0#32, { s with tether := { t with rxq := [], read := 0 } })
  | m :: rest =>
    let last := decide (q.2 + 1 = m.length) && decide (2 ≤ m.length)
    (m.getD q.2 0#32, { s with tether := { t with rxq := if last then rest else m :: rest, read := if last then 0 else q.2 + 1 } })

/-- Whether a TYPE is one of Table 20-7. -/
def msgKnown (ty : Nat) : Bool := (decide (0x10 ≤ ty) && decide (ty ≤ 0x14)) || (decide (0x20 ≤ ty) && decide (ty ≤ 0x7F))

/-- The values of an ALIGN body (Table 20-7). -/
def alignOf (body : List (BitVec 32)) : BitVec 32 × BitVec 32 × BitVec 64 × BitVec 64 × BitVec 64 :=
  let w := fun k => body.getD k 0#32
  (w 0, w 1, w 3 ++ w 2, w 5 ++ w 4, w 7 ++ w 6)

/-- The (SRC, SEQ) pair of a header, and the body as its LEN gives it. -/
def msgKey (h : BitVec 32) : Nat × Nat := ((h.extractLsb' 16 2).toNat, (h.extractLsb' 24 8).toNat)
def msgBody (h : BitVec 32) (body : List (BitVec 32)) : List (BitVec 32) := (List.range (msgWords h)).map fun k => body.getD k 0#32

/-- Whether a firmware message that arrives is delivered into TETH_MSG_RX: the first copy of a known type, for this device, while the queue
has room (R472, R473). -/
def msgDelivers (s : State) (h : BitVec 32) : Bool :=
  !s.tether.seen.contains (msgKey h) && msgKnown (h.extractLsb' 0 8).toNat
    && (h.getLsbD 20 || decide ((h.extractLsb' 18 2).toNat = tetherId s)) && decide (s.tether.rxq.length < 16)

/-- A firmware message arrives on port `p` (R473): it is delivered, forwarded unless this device is its source, or dropped. -/
def msgReceive (s : State) (p : Nat) (h : BitVec 32) (body : List (BitVec 32)) : State :=
  let ty := (h.extractLsb' 0 8).toNat
  if s.tether.seen.contains (msgKey h) then s
  else if !msgKnown ty then msgDrop (msgNote s (msgKey h))
  else
    let s1 := msgNote s (msgKey h)
    let s2 := if (msgKey h).1 = tetherId s then s1 else tetherSend s1 (1 - p) (.firmware h body)
    if msgDelivers s h then
      { s2 with tether := { s2.tether with
        rxq := s2.tether.rxq ++ [h :: msgBody h body],
        align := if ty = 0x10 ∧ isFollower s = true ∧ 32 ≤ msgLen h then some (alignOf (msgBody h body)) else s2.tether.align } }
    else if h.getLsbD 20 || decide ((h.extractLsb' 18 2).toNat = tetherId s) then msgDrop s2
    else s2

/-- A MARK or HELLO of device `d` arrives on port `p`; from the peer itself it shows in TETH_PSTAT. -/
def hearDevice (s : State) (p : Nat) (d : BitVec 2) (host relayed : Bool) (m : TetherMsg) : State :=
  if d.toNat = tetherId s then s
  else
    let x := tetherAt s p
    let b := BitVec.ofNat 4 (2 ^ d.toNat)
    let s1 := putTether s p { x with heard := vset x.heard d.toNat 0 }
    let s2 := { s1 with tether := { s1.tether with hosts := if host then s1.tether.hosts ||| b else s1.tether.hosts &&& ~~~b } }
    let s3 := if relayed then s2 else s2.setFld (Reg.TETH_PSTAT p) 1 3 (d.toNat + if host then 4 else 0)
    tetherSend s3 (1 - p) m

/-- The leader's frame count, as its MARKs give it (DEDUCED, log entry 105). -/
def leadFrame (s : State) : BitVec 32 := s.tick.frameCnt.setWidth 32 + s.tether.ahead

/-- Take the leader's frame count from a MARK of device `d`, and the leader's DEVID from a HELLO. -/
def leadNote (s : State) (d : BitVec 2) (c : BitVec 64) : State :=
  if s.tether.leader = some d then { s with tether := { s.tether with ahead := c.setWidth 32 - s.tick.frameCnt.setWidth 32 } } else s
def leadHello (s : State) (d : BitVec 2) (leader : Bool) : State :=
  if leader && decide (d.toNat ≠ tetherId s) then { s with tether := { s.tether with leader := some d } } else s

/-- TETHER_MESSAGE_RECEIVE on port `p`; `phase` is the peer's frame-tick offset that the port measures with a MARK (R477). -/
def tetherReceive (s : State) (p : Nat) (m : TetherMsg) (phase : BitVec 32) : State :=
  if !tetherLink s p then s
  else match m with
    | .mark c d host mem rel =>
      let s1 := leadNote (hearDevice s p d host rel (.mark c d host mem true)) d c
      if rel || decide (d.toNat = tetherId s) then s1
      else (putTether s1 p { tetherAt s1 p with marks := 0 }).setReg (Reg.TETH_PHASE p) phase
    | .hello d host leader ring wit rel =>
      let s1 := leadHello (hearDevice s p d host rel (.hello d host leader ring wit true)) d leader
      if rel || decide (d.toNat = tetherId s) then s1 else putTether s1 p { tetherAt s1 p with peerHello := true }
    | .lane l f => laneNotice s p l f
    | .firmware h body => msgReceive s p h body

/-- HELLO: every 16 frame ticks, on each port (Table 20-2). -/
def sendHello (s : State) : State :=
  if s.tick.frameCnt.toNat % 16 = 0 then
    let w := if s.tether.witness then (s.reg Reg.TETH_WITNESS).extractLsb' 0 4 else 0#4
    let m := TetherMsg.hello (BitVec.ofNat 2 (tetherId s)) (tetherHost s) (s.bit Reg.TETH_CFG 2)
      ((s.reg Reg.TETH_CFG).extractLsb' 16 8) w false
    tetherSend (tetherSend s 0 m) 1 m
  else s

/-! ### SYNC and rejoin (R476, R477) -/

/-- A write of TETH_SYNC_CTL; with GO it arms the commit for T, or is refused, late. -/
def syncCtlWrite (s : State) (v : BitVec 32) : State :=
  let s1 := s.setReg Reg.TETH_SYNC_CTL (v &&& 0xF#32)
  if v.getLsbD 31 then
    let t := s1.reg Reg.TETH_SYNC_FRAME
    if 0 < (t - 1#32 - s1.tick.frameCnt.setWidth 32).toInt then
      { s1 with tether := { s1.tether with sync := some (v.extractLsb' 0 4, t, !s1.bit Reg.TETH_STATUS 17) } }
    else s.raise Reg.TETH_STATUS 8#32
  else s1

/-- Whether a SET message for set `k` waits unread. -/
def setUnread (s : State) (k : Nat) : Bool :=
  s.tether.rxq.any fun m => decide ((m.headD 0#32).extractLsb' 0 8 = 0x12#8) && decide ((m.getD 1 0#32).extractLsb' 0 8 = BitVec.ofNat 8 k)

/-- The hardware commit of set `k`. One armed while the partition held authority goes through a split, but that of a frozen partition whose
shadow is incomplete is refused as any commit is (R478; DEDUCED, log entry 104: a shadow is incomplete while a SET for it is unread). -/
def syncSet (armed : Bool) (g : BitVec 4) (s : State) (k : Nat) : State :=
  if groupHas s g.toNat k then commitWrite s k g (armed && !(s.bit Reg.TETH_STATUS 17 && setUnread s k)) else s

/-- Whether set `k` of group `g`'s mask keeps an earlier commit with another group (R476). -/
def syncKept (s : State) (g : BitVec 4) (k : Nat) : Bool :=
  let x := setAt s k
  groupHas s g.toNat k && ((x.committed && decide (x.group ≠ g)) || (x.deferred && decide (x.deferredGroup ≠ g)))

/-- SYNC_COMMIT: after the swaps of frame tick T - 1, every set of the group's mask is committed with it. A set that keeps a commit with
another group is reported to the authority (R476). -/
def syncCommit (s : State) : State :=
  match s.tether.sync with
  | some (g, t, armed) =>
    if s.tick.frameCnt.setWidth 32 = t - 1#32 ∧ g ≠ 0#4 then
      let s1 := (List.range 29).foldl (syncSet armed g) s
      match authorityDevice s1 ((s1.reg Reg.TETH_STATUS).extractLsb' 12 4) with
      | some d => (List.range 29).foldl (fun u k => if syncKept s g k && decide (d ≠ tetherId s) then sendReply u d 0x13 4 k else u) s1
      | none => s1
    else s
  | none => s

/-- REJOIN of port `p`: HELLO was exchanged over a restored link (R477). Its receive channels read zero until T. -/
def rejoin (s : State) (p : Nat) : State :=
  let x := tetherAt s p
  if x.lost && x.peerHello && tetherLink s p then tetherAuth (putTether s p { x with lost := false, muted := true }) else s

/-- The muted channels of port `p` fade in from T. -/
def tetherUnmute (s : State) (p : Nat) : State :=
  let x := tetherAt s p
  if x.muted then
    let n := max 1 (msSamples 20 s.rate)
    putTether s p { x with
      muted := false,
      rx := (x.rxA.filter fun e => chEn e.2).foldl (fun r e => Cells.write rxFresh r e.1
        { Cells.read rxFresh x.rx e.1 with num := 0, den := n, up := true, miss := 0, hold := false, fade := false }) x.rx }
  else s

/-- Port `p` at a frame tick: peer loss, lane moves, and channels whose words returned (R466, R469, R472). -/
def tetherPortFrame (s : State) (p : Nat) : State :=
  let x := tetherAt s p
  let marks := min 4 (x.marks + 1)
  let loss := (x.down || (tetherLink s p && decide (3 ≤ marks))) && !x.lost
  let now := s.tick.frameCnt.setWidth 32
  let moved := match x.txMove with
    | some (_, f) => decide (0 ≤ (now - f).toInt)
    | none => false
  let y := { x with
    marks := marks, down := false, lost := x.lost || loss, peerHello := x.peerHello && !loss,
    heard := if loss then Vector.replicate 4 4 else x.heard.map fun a => min 4 (a + 1),
    rxMove := none, rxOnSpare := if x.rxMove.isSome then x.rxMove else x.rxOnSpare,
    txMove := if moved then none else x.txMove, txOnSpare := if moved then x.txMove.map Prod.fst else x.txOnSpare,
    rx := x.rx.foldl (fun r e => if e.2.back then Cells.write rxFresh r e.1
      { e.2 with miss := 0, back := false, hold := false, fade := false, up := decide (e.2.num < e.2.den) } else r) x.rx }
  tetherShow ((putTether s p y).raiseIf loss Reg.TETH_STATUS 1#32) p

/-- The frame-tick work of the tether, after the frame-tick counter has counted (R472, R475, R477). -/
def tetherFrame (s : State) : State :=
  let s1 := tetherPortFrame (tetherPortFrame s 0) 1
  let s2 := match s1.tether.sync with
    | some (_, t, _) =>
      if 0 ≤ (s1.tick.frameCnt.setWidth 32 - t).toInt then
        let u := tetherUnmute (tetherUnmute s1 0) 1
        { u with tether := { u.tether with sync := none } }
      else s1
    | none => s1
  let mark := TetherMsg.mark s2.tick.frameCnt (BitVec.ofNat 2 (tetherId s2)) (tetherHost s2) (members s2) false
  tetherAuth (tetherSend (tetherSend s2 0 mark) 1 mark)

/-! ### The commands -/

/-- HELLO (R472). -/
def execTetherHello (s : State) : Out := done (sendHello s)

/-- TETH_MSG_TX_WRITE (R473): `header` tells a header word from a body word. -/
def execTethMsgTxWrite (header : Bool) (v : BitVec 32) (s : State) : Out := done (msgTxWrite s header v)

/-- TETH_MSG_RX_READ (R473): the master receives the word. -/
def execTethMsgRxRead (master : Fin 18) (s : State) : Out :=
  let r := msgRxRead s
  done { r.2 with resp := vset r.2.resp master.val ⟨0#36, leBytes r.1 4, false⟩ }

/-- LANE_FAIL (R466). -/
def execLaneFail (p : Fin 2) (lane : Fin 5) (s : State) : Out := done (laneFail s p.val lane.val)

/-- LANE (R466). -/
def execLaneMessage (p : Fin 2) (lane : BitVec 2) (frame : BitVec 32) (s : State) : Out := done (laneNotice s p.val lane frame)

/-- SYNC_GO (R476). -/
def execSyncGo (v : BitVec 32) (s : State) : Out := done (syncCtlWrite s v)

/-- SYNC_COMMIT (R476). -/
def execSyncCommit (s : State) : Out := done (syncCommit s)

/-- REJOIN (R477). -/
def execRejoin (p : Fin 2) (s : State) : Out := done (rejoin s p.val)

/-- TETHER_LINK_UP (R465). -/
def execTetherLinkUp (p : Fin 2) (lanes : BitVec 5) (s : State) : Out := done (tetherLinkUp s p.val lanes)

/-- WITNESS_EXPIRY (R475). -/
def execWitnessExpiry (s : State) : Out := done (witnessExpire s)

/-- SPARE_LANE_ROTATE (R466). -/
def execSpareLaneRotate (p : Fin 2) (s : State) : Out := done (spareRotate s p.val)

end Sys2Proof.Machine
end

