-- ==== Sys2Proof/Machine/Power.lean ====
section
/-! DEFINITION. Power, STANDBY and wake (chapter 21, R480 to R495; R513). -/
namespace Sys2Proof.Machine

/-- Whether a wake source is enabled. -/
def wakeArmed (s : State) : Bool := s.bit Reg.PWR_CTRL 3 || s.bit Reg.PWR_CTRL 4

/-- STANDBY entry as the write is registered (R483, Table 21-2): outputs mute, CORE stops, every link goes down. -/
def standbyEnter (s : State) : State :=
  let s1 := portsAcquire (setCore (muteLow s) 0)
  let s2 := linksDown (tetherDown s1)
  let s3 := hostDown s2 .down
  { s3 with power := { s3.power with phase := .entering, stbyWait := false } }

/-- The STANDBY write is registered: refused without a wake source, and then nothing that was latched since the write acts. -/
def standbyRegister (s : State) : State :=
  let s1 := { s with power := { s.power with stbyWait := false } }
  if wakeArmed s then standbyEnter s1 else { s1 with power := { s1.power with wake := 0#2 } }.raise Reg.PWR_STATUS 1#32

/-- Whether a running mode is in force: one of those from which Table 02-6a leads to STANDBY (R30). -/
def modeRuns (s : State) : Bool := s.tick.entered && !inSafe s

/-- A write of PWR.STBY_REQ: only the key acts, and it waits for a flash operation to end (R483). In SAFE and before the first mode it is
no transition of Table 02-6a: with a wake source it leaves the device as it is (DEDUCED, log entry 100). -/
def standbyWrite (s : State) (v : BitVec 32) : State :=
  if s.power.phase ≠ .running ∨ v.extractLsb' 0 8 ≠ 0x5B#8 then s
  else if modeRuns s = false ∧ wakeArmed s = true then s
  else if s.bit Reg.FL_STATUS 0 then { s with power := { s.power with stbyWait := true } }
  else standbyRegister s

/-- FLASH_OPERATION_DONE, and with it a STANDBY write that waited. -/
def flashOperationDone (s : State) (failed : Bool) : State :=
  let s1 := flashDone s failed
  if s1.power.stbyWait && !s1.bit Reg.FL_STATUS 0 then standbyRegister s1 else s1

/-- PWR_ON_FALL: the main rails go off (Table 21-2); FAULT_N is released (Table 21-7), and the CSP's pins fall to high impedance
(R399). -/
def powerOff (s : State) : State :=
  if s.power.phase = .entering then
    { s with
      power := { s.power with phase := .standby, pwrOn := false, alive := false, faultBoot := false, faultLow := false }
      csp := { s.csp with sel := false, txn := none } }
  else s

/-- The wake sources of an event: bit 0 an edge of the WAKE pin of the selected polarity, bit 1 the timer (R485). -/
def wakeSources (s : State) (edge : Option Bool) (timer : Bool) : BitVec 2 :=
  BitVec.ofNat 2 ((if s.bit Reg.PWR_CTRL 3 && decide (edge = some (s.bit Reg.PWR_CTRL 5)) then 1 else 0)
    + (if s.bit Reg.PWR_CTRL 4 && timer then 2 else 0))

/-- A wake by the sources `w`: WAKE_SRC records them, and the wake reset starts, the pin naming the reason (R485). -/
def wakeBy (s : State) (w : BitVec 2) : State :=
  let s1 := s.setFld Reg.PWR_STATUS 8 2 w.toNat
  wakeReset s1 (if w.getLsbD 0 then rstWakePin else rstWakeTimer)

/-- The real-time clock at `sec` seconds exactly. -/
def rtcAt (s : State) (sec : BitVec 32) : State := { s with power := { s.power with rtc := sec ++ 0#15 } }

/-- The real-time clock as it stands when a wake fires: at the wake time for the timer's. -/
def rtcReach (s : State) (w : BitVec 2) : State := if w.getLsbD 1 then rtcAt s (s.reg Reg.PWR_WAKE_TIME) else s

/-- WAKE: in STANDBY it wakes; from the STANDBY write to the fall of PWR_ON it is latched (R485, R486). -/
def wake (s : State) (edge : Option Bool) (timer : Bool) : State :=
  let w := wakeSources s edge timer
  let latched := { rtcReach s w with power := { (rtcReach s w).power with wake := s.power.wake ||| w } }
  match s.power.phase with
  | .entering => latched
  | .running => if s.power.stbyWait then latched else s
  | .standby => if w ≠ 0#2 ∧ s.power.wake = 0#2 then wakeBy (rtcReach (rtcGap s) w) w else s
  | .held => s

/-- A write of PWR_RTC_SEC (R513): it sets the seconds and clears SUB, and with it a carry of the same LF cycle. -/
def rtcWrite (s : State) (v : BitVec 32) : State := (rtcAt s v).setReg Reg.PWR_RTC_SUB 0#32

/-- FAULT_N as its causes leave it: reset and stage 0, and FAULT_SET while an image runs (R495). -/
def faultPin (s : State) : State :=
  { s with power := { s.power with faultLow := s.power.faultBoot || (s.boot.slot.isSome && s.bit Reg.PWR_CTRL 2) } }

/-! ### The commands -/

/-- STBY_REQ (R483). -/
def execStbyReq (v : BitVec 32) (s : State) : Out := done (standbyWrite s v)

/-- PWR_ON_FALL (R483). -/
def execPwrOnFall (s : State) : Out := done (powerOff s)

/-- WAKE (R485): an edge of the WAKE pin (rising: `true`), the timer, or both in one cycle. -/
def execWake (edge : Option Bool) (timer : Bool) (s : State) : Out := done (wake s edge timer)

/-- LATCHED_WAKE (R486). -/
def execLatchedWake (s : State) : Out :=
  done (if s.power.phase = .standby ∧ s.power.wake ≠ 0#2 then wakeBy (rtcGap s) s.power.wake else s)

/-- POWER_ON (R487): the banks' levels are sensed (R491). -/
def execPowerOn (io : BitVec 3) (s : State) : Out := done ((powerOnReset s).setFld Reg.PWR_STATUS 12 3 io.toNat)

/-- RESET_N (R488, R489). -/
def execResetN (s : State) : Out := done (warmReset s rstPin)

/-- RAIL_FAULT (R482). -/
def execRailFault (s : State) : Out := done (warmReset s rstRail)

/-- PWR_RTC_SEC_WRITE (R513). -/
def execPwrRtcSecWrite (v : BitVec 32) (s : State) : Out := done (rtcWrite s v)

end Sys2Proof.Machine
end

