-- ==== Sys2Proof/Machine/Operands.lean ====
section
/-! DEFINITION. Operand forms of the rill instruction set: sources, destinations, the M field, cistern and window
addressing, and the issue of one step (chapters 04 and 05). -/
namespace Sys2Proof.Machine

/-- What one step does to its engine, and what it raises: saturation, guard overflow, a line error, a use of the noise
LFSR, ECC events (mark, RILL_ERRADDR location) and window offsets written anew. -/
structure RillFx where
  e : RillEngine
  sat : Bool
  gov : Bool
  lineErr : Bool
  noise : Bool
  ecc : List (BitVec 2 × Nat)
  clr : List Nat
  deriving DecidableEq, Repr

/-- A step that changes nothing. -/
def RillFx.none (e : RillEngine) : RillFx := ⟨e, false, false, false, false, [], []⟩

/-- A source value, whether its conversion saturated, and whether it used NOISE. -/
structure SrcVal where
  w : Word
  sat : Bool
  noise : Bool
  deriving DecidableEq, Repr

/-- A plain source value. -/
def SrcVal.plain (w : Word) : SrcVal := ⟨w, false, false⟩

/-- The TICK operand word (Table 04-8). -/
def tickWord (t : TickState) : Word :=
  (t.sampleCnt.extractLsb' 0 24) ++ (if t.j = 0 then 1#1 else 0#1) ++ 0#4 ++ BitVec.ofNat 7 t.j

/-- The NOISE operand word: the LFSR state in bits [35:4] (R99). -/
def noiseWord (l : BitVec 32) : Word := l ++ 0#4

/-- Predicate `i` of a rill engine: P0 always reads 1 (R69). -/
def rillPred (e : RillEngine) (i : Nat) : Bool := i = 0 || vget e.p i false

/-- The source named by operand code `k`; accumulator codes 16 to 19 convert under `conv` (R112, R113). -/
def rillSrcConv (conv : Acc → Stored) (t : TickState) (e : RillEngine) (imm : Word) (k : BitVec 5) : SrcVal :=
  let n := k.toNat
  if n < 16 then SrcVal.plain (vget e.d n 0#36)
  else if n < 20 then let r := conv (vget e.view (n - 16) 0#80); ⟨r.w, r.sat, false⟩
  else if n < 24 then SrcVal.plain ((vget e.view (n - 20) 0#80).extractLsb' 44 36)
  else if n = 29 then SrcVal.plain (tickWord t)
  else if n = 30 then ⟨noiseWord e.lfsr, false, true⟩
  else if n = 31 then SrcVal.plain imm
  else SrcVal.plain 0#36

/-- A source outside the conversion opcodes: real layout, k = 0, round half even (R113). -/
def rillSrc (t : TickState) (e : RillEngine) (imm : Word) (k : BitVec 5) : SrcVal :=
  rillSrcConv (fun a => storeReal a 0#3 0#2 e.lfsr) t e imm k

/-- IMM of an I-form M field (Table 05-3). -/
def rfImm (f : RillFields) : Word := f.m.extractLsb' 0 36

/-- RS of an I-form M field. -/
def rfRs (f : RillFields) : BitVec 2 := f.m.extractLsb' 36 2

/-- LINE, TAP and COEF of a C-form M field. -/
def rfLine (f : RillFields) : Nat := (f.m.extractLsb' 30 8).toNat
def rfTap (f : RillFields) : Nat := (f.m.extractLsb' 14 16).toNat
def rfCoef (f : RillFields) : Nat := (f.m.extractLsb' 0 14).toNat

/-- WIN of a W-form M field. -/
def rfWin (f : RillFields) : Nat := (f.m.extractLsb' 29 9).toNat

/-- RS and k of the conversion field CV, held in SB (R117). -/
def rfCvRs (f : RillFields) : BitVec 2 := f.sb.extractLsb' 3 2
def rfCvK (f : RillFields) : BitVec 3 := f.sb.extractLsb' 0 3

/-- The source SA of a conversion opcode: an accumulator converts under CV in the layout the opcode names; its dither uses
the LFSR (R113, R117, R122). -/
def rillSrcCV (cplx : Bool) (t : TickState) (e : RillEngine) (imm : Word) (f : RillFields) : SrcVal :=
  let r := rillSrcConv (fun a => if cplx then storeCplx a (rfCvK f) (rfCvRs f) e.lfsr else storeReal a (rfCvK f) (rfCvRs f) e.lfsr) t e imm f.sa
  { r with noise := r.noise || ((rfCvRs f) = 2#2 && decide (16 ≤ f.sa.toNat) && decide (f.sa.toNat < 20)) }

/-- Put a result in flight: it is visible `lat` steps later (R76). -/
def RillFx.fly (x : RillFx) (lat : Nat) (t : RillTarget) : RillFx :=
  { x with e := { x.e with flights := x.e.flights ++ [⟨x.e.step + lat, t⟩] } }

/-- Write a word to DST when DST names a data register; any other code discards the result (R112, R115). -/
def RillFx.toD (x : RillFx) (dst : BitVec 5) (w : Word) (lat : Nat) : RillFx :=
  if dst.toNat < 16 then x.fly lat (.d dst.toNat w) else x

/-- Write a predicate when DST names P1 to P7; DST 0 is ignored and any other code discards (R115). -/
def RillFx.toP (x : RillFx) (dst : BitVec 5) (b : Bool) : RillFx :=
  if 0 < dst.toNat ∧ dst.toNat < 8 then x.fly 1 (.p dst.toNat b) else x

/-- Write accumulator DST at once for the next accumulating step, and its source view three steps later (R76). `none` when
DST is no accumulator: then nothing is read, written or flagged (R115). -/
def RillFx.toAcc (x : RillFx) (dst : BitVec 5) (op : AccReg → AccReg × Bool) : RillFx :=
  if 16 ≤ dst.toNat ∧ dst.toNat < 20 then
    let i := dst.toNat - 16
    let r := op (vget x.e.acc i (accZero 0))
    let x1 := { x with e := { x.e with acc := vset x.e.acc i r.1 }, gov := x.gov || r.2 }
    x1.fly 3 (.view i r.1.val)
  else x

/-- The flags a source read leaves. -/
def RillFx.used (x : RillFx) (v : SrcVal) : RillFx := { x with sat := x.sat || v.sat, noise := x.noise || v.noise }

/-! ### Staged memories, lines and the cistern -/

/-- The word-space base of engine `re`'s window (R101). -/
def rillWin (re : Nat) : Nat := 0x800000 + re * 0x40000

/-- RILL_ERRADDR location: word and MEM (Table 04-19). -/
def rillLoc (mem addr : Nat) : Nat := addr + mem * 2 ^ 17

/-- A staged word in force at offset `o` from 0x38000, with its ECC mark. -/
def rillStaged (s : State) (re : Nat) (e : RillEngine) (o : Nat) : Word × BitVec 2 :=
  let m := s.mark (rillWin re + 0x38000 + o)
  (eccWord m (Cells.get e.stA o), m)

/-- Coefficient word `c` in force (R86); uncorrectable reads zero. -/
def rillCoef (s : State) (re : Nat) (e : RillEngine) (x : RillFx) (c : Nat) : Word × RillFx :=
  let r := rillStaged s re e c
  (r.1, { x with ecc := x.ecc ++ [(r.2, rillLoc 2 c)] })

/-- A line: BASE, LEN and LIN (Table 04-4). -/
structure Line where
  base : Nat
  len : Nat
  lin : Bool
  deriving DecidableEq, Repr

/-- The fields of a line descriptor word. -/
def lineOf (w : Word) : Line := ⟨(w.extractLsb' 0 17).toNat, (w.extractLsb' 18 17).toNat, w.getLsbD 35⟩

/-- Line descriptor `l` in force; an uncorrectable descriptor acts as LEN = 0 (Table 04-9). -/
def rillLine (s : State) (re : Nat) (e : RillEngine) (x : RillFx) (l : Nat) : Line × RillFx :=
  let r := rillStaged s re e (0x5000 + l)
  let d := if r.2 = 2#2 then { lineOf r.1 with len := 0 } else lineOf r.1
  (d, { x with ecc := x.ecc ++ [(r.2, rillLoc 2 (0x5000 + l))], lineErr := x.lineErr || decide (d.len = 0) })

/-- The phase Q of a line: (-N) mod LEN (R81). -/
def linePhase (len n : Nat) : Nat := (len - n % len) % len

/-- The cistern address of tap `t` of a line with LEN > 0, at boundary count `n` (R81, R83). -/
def lineAddr (d : Line) (n t : Nat) : Nat :=
  if d.lin then (d.base + t % d.len) % 131072
  else (d.base + (linePhase d.len n + t) % d.len) % 131072

/-- The cistern word at LINE, TAP: zero on a line with LEN = 0, which sets LINE_ERR (R83). -/
def rillCistern (s : State) (re : Nat) (e : RillEngine) (x : RillFx) (f : RillFields) : Word × Line × RillFx :=
  let l := rillLine s re e x (rfLine f)
  if l.1.len = 0 then (0#36, l.1, l.2)
  else
    let a := lineAddr l.1 s.tick.boundaries (rfTap f)
    let m := s.mark (rillWin re + a)
    (eccWord m (Cells.get e.cistern a), l.1, { l.2 with ecc := l.2.ecc ++ [(m, rillLoc 0 a)] })

/-- Write a cistern word. -/
def RillFx.putCistern (x : RillFx) (a : Nat) (w : Word) : RillFx :=
  { x with e := { x.e with cistern := Cells.set x.e.cistern a w }, clr := x.clr ++ [a] }

/-- The gather entry of input position `win` that engine `re` reads: its own, and for REX that of the engine it shadows (R97). -/
def gatherWord (s : State) (re : Nat) (e : RillEngine) (win : Nat) : Word × BitVec 2 :=
  if re = 16 then
    let r := s.fld Reg.FAR_TARGET 0 4
    rillStaged s r (vget s.rill r RillEngine.zero) (0x5100 + win)
  else rillStaged s re e (0x5100 + win)

/-- A window word: an input position through the gather list (R94), or an output word (R95). An ECC event of the shadowed engine's list
is that engine's, whose own step reads the word, and REX records none (DESIGN CHOICE, log entry 106). -/
def rillWindow (s : State) (re : Nat) (e : RillEngine) (x : RillFx) (win : Nat) : Word × RillFx :=
  if win < 256 then
    let g := gatherWord s re e win
    let x1 := if re = 16 then x else { x with ecc := x.ecc ++ [(g.2, rillLoc 2 (0x5100 + win))] }
    if g.2 = 2#2 ∨ !g.1.getLsbD 35 then (0#36, x1) else (stallRead s (g.1.extractLsb' 0 11).toNat, x1)
  else (Cells.get e.outw (win - 256), x)

/-! ### Issue of a step -/

/-- Land one result in its engine. -/
def RillEngine.land (e : RillEngine) : RillTarget → RillEngine
  | .d i w => { e with d := vset e.d i w }
  | .p i b => { e with p := vset e.p i b }
  | .view i a => { e with view := vset e.view i a }

/-- Land every result due at step `k` or before, in issue order (R77), and keep the rest in flight. -/
def RillEngine.landDue (e : RillEngine) (k : Nat) : RillEngine :=
  let due := e.flights.filter fun x => decide (x.due ≤ k)
  let e1 := due.foldl (fun t x => t.land x.tgt) e
  { e1 with flights := e.flights.filter fun x => !decide (x.due ≤ k) }

/-- At the end of an interval every result lands, each at its own step (R78). -/
def RillEngine.landAll (e : RillEngine) : RillEngine :=
  (((e.landDue e.step).landDue (e.step + 1)).landDue (e.step + 2)).landDue (e.step + 3)

/-- The program-store index of step `k` of the selection in force (R72). -/
def RillEngine.stepIndex (e : RillEngine) (k : Nat) : Nat := e.pageA.toNat * 16384 + k

/-- The command that engine `re` issues next: the step word stored at its step count (R71, R109). -/
def rillNext (s : State) (re : Fin 16) : Instr :=
  let e := vget s.rill re.val RillEngine.zero
  decodeRill re (Cells.get e.prog (e.stepIndex e.step))

/-- Whether the engine runs its program: RUN in force, and the mode lets it run (R106, Table 04-14). -/
def rillRunning (s : State) (re : Nat) (e : RillEngine) : Bool :=
  e.runA && s.tick.entered && (!s.listen || decide (re = 0))

/-- Whether the engine issues a step now: it runs, the program is not at its end, and the swap reserve is not reached
(R23, R71). -/
def rillIssues (s : State) (re : Nat) (e : RillEngine) : Bool :=
  rillRunning s re e && !s.tick.frameDue && decide (e.step < e.lenA.toNat) && decide (e.step + 64 < s.c)

/-- The effect of one issued step on engine `re`: results due land, an uncorrectable step word acts as the no-operation
(Table 04-9), a false guard suppresses everything (R75, R110), and the step count advances. The step word is read and its ECC event
recorded whatever the guard, and the operands of a step with a false guard are not read (DESIGN CHOICE, log entry 63: R75 and R104). Its
two words are one read: marks on both are one event, uncorrectable where either is (DESIGN CHOICE, log entry 103). -/
def rillStepFx (s : State) (re : Nat) (f : RillFields) (body : State → Nat → RillEngine → RillFx) (e0 : RillEngine) : RillFx :=
  let e := e0.landDue e0.step
  let idx := e.stepIndex e.step
  let m0 := s.mark (rillWin re + 0x20000 + 2 * idx)
  let m1 := s.mark (rillWin re + 0x20001 + 2 * idx)
  let m := if m0 = 2#2 ∨ m1 = 2#2 then 2#2 else if m0 = 0#2 then m1 else m0
  let x := if m ≠ 2#2 ∧ (rillPred e f.g.toNat != f.gn) = true then body s re e else RillFx.none e
  let e2 := if x.noise then { x.e with lfsr := lfsrNext x.e.lfsr } else x.e
  { x with e := { e2 with step := e2.step + 1, govFrame := e2.govFrame || x.gov }, ecc := (m, rillLoc 1 idx) :: x.ecc }

/-- Put a step's effect into the machine: the engine, its sticky flags (R56, R64, R83) and its ECC records (R104). -/
def rillApply (s : State) (re : Nat) (x : RillFx) : State :=
  let s1 := { s with rill := vset s.rill re x.e, ecc := x.clr.foldl (fun c o => Cells.set c (rillWin re + o) 0#2) s.ecc }
  let s2 := s1.raiseIf x.gov (Reg.RILL_STATUS re) 1#32
  let s3 := s2.raiseIf x.sat (Reg.RILL_STATUS re) 2#32
  let s4 := s3.raiseIf x.lineErr (Reg.RILL_STATUS re) 4#32
  s4.eccEvents (rillSite re) x.ecc

/-- Whether REX runs in step with role `re`: lockstep, or BIST after a mismatch, in which the spare keeps running (R453, R455). LISTEN
gates it (R106). -/
def rexFollows (s : State) (re : Nat) : Bool :=
  decide (s.fld Reg.FAR_TARGET 0 4 = re) && decide (2 ≤ s.fld Reg.FAR_TARGET 4 2) && !s.listen

/-- The cistern words at the offsets `l` of role `re`, written in this step, repeated into REX from the start of its copy of that role on
(R85, R453). -/
def rexRepeat (s : State) (re : Nat) (l : List Nat) : State :=
  if rexShadows s re then
    let e := vget s.rill re RillEngine.zero
    let c := l.foldl (fun c o => Cells.set c o (Cells.get e.cistern o)) (vget s.rill 16 RillEngine.zero).cistern
    { s with
      rill := vmod s.rill 16 fun (x : RillEngine) => { x with cistern := c }
      ecc := l.foldl (fun c o => Cells.set c (rillWin 16 + o) 0#2) s.ecc }
  else s

/-- Issue one step of role `re`, and the same step on REX while it runs with that role. The role's cistern writes are repeated into REX,
but where REX's own step writes a word its own result stands there (DESIGN CHOICE, log entry 106). -/
def rillStep (re : Fin 16) (f : RillFields) (body : State → Nat → RillEngine → RillFx) (s : State) : State :=
  let e := vget s.rill re.val RillEngine.zero
  if rillIssues s re.val e then
    let x := rillStepFx s re.val f body e
    let s1 := rillApply s re.val x
    if rexFollows s re.val then
      let y := rillStepFx s 16 f body (vget s.rill 16 RillEngine.zero)
      rexRepeat (rillApply s1 16 y) re.val (x.clr.filter fun o => !y.clr.contains o)
    else rexRepeat s1 re.val x.clr
  else s

end Sys2Proof.Machine
end

