-- ==== Sys2Proof/Machine/T1s.lean ====
section
/-! DEFINITION. Audio on the T1S pair (chapter 13, R326 to R329). -/
namespace Sys2Proof.Machine

/-- R: the stall rate over the wire rate (R326). -/
def t1sRatio (s : State) : Nat := if s.tick.mode = 5#3 then 6 else if s.tick.mode = 6#3 then 1 else 3

/-- Whether the audio cycle runs: enabled, ticks raised, the port powered. -/
def t1sRuns (s : State) : Bool := s.bit Reg.T1S_AUDIO 0 && s.tick.entered && ethPowered s

/-- Whether audio waits: during acquisition, and from a switch tick to the first cycle boundary after it (R329). -/
def t1sWaits (s : State) : Bool := s.t1s.waits || acquiring s

/-- Acting as PLCA coordinator: node 0, with the port powered; and beacons sent, or seen: a node sees them on a link that is up
(R324). -/
def plcaCoord (s : State) : Bool := s.bit Reg.T1S_PLCA 0 && decide (s.fld Reg.T1S_PLCA 1 4 = 0) && ethPowered s
def plcaActive (s : State) : Bool := plcaCoord s || (s.bit Reg.T1S_PLCA 0 && ethLink s 2)

/-- Count an audio event in counter `i`, and set bit `k` of T1S_ASTATUS. -/
def t1sEvent (s : State) (i k : Nat) : State := (ethCount s 2 i 1).raise Reg.T1S_ASTATUS (BitVec.ofNat 32 (2 ^ k))

/-- T1S_CH_APPLY (R328): cleared UP bits release their stalls. -/
def t1sChRetire (s : State) : State :=
  (List.range 16).foldl (fun u c =>
    if s.t1s.up.getLsbD c && !(s.reg Reg.T1S_CH).getLsbD c then
      releaseStall { u with t1s := { u.t1s with up := u.t1s.up &&& ~~~(BitVec.ofNat 16 (2 ^ c)) } } (1160 + c) clsPort (fnEth 2)
    else u) s

/-- T1S_CH_APPLY (R328) after the releases: set UP bits claim their stalls or read 0. -/
def t1sChApply (s : State) : State :=
  let want := s.reg Reg.T1S_CH
  (List.range 16).foldl (fun u c =>
    if want.getLsbD c && !s.t1s.up.getLsbD c then
      let r := claimStall u (1160 + c) clsPort (fnEth 2)
      if r.1 then { r.2 with t1s := { r.2.t1s with up := r.2.t1s.up ||| BitVec.ofNat 16 (2 ^ c) } }
      else r.2.setBit Reg.T1S_CH c false
    else u) s

/-- The input channels in one interval: a decoded sample for a channel that plays, else zero (R326, R329). -/
def t1sSample (s : State) : State :=
  (List.range 16).foldl (fun u c =>
    if s.t1s.up.getLsbD c then
      match s.t1s.plays.find? fun e => decide (e.1 = c) && t1sRuns s && !t1sWaits s with
      | some e => let w := freeWord u fun n => Config.freeVoice n e.2; portWrite w.2 (1160 + c) w.1
      | none => portWrite u (1160 + c) 0#36
    else u) s

/-- What the output channels read from their stalls in one interval, scaled by the output gain (R35, R326). -/
def t1sTake (s : State) : State :=
  if t1sRuns s && !t1sWaits s then
    { s with t1s := { s.t1s with line := Vector.ofFn fun c =>
      if (s.reg Reg.T1S_CH).getLsbD (16 + c.val) then (delivered s (1176 + c.val) :: vget s.t1s.line c.val []).take 672 else [] } }
  else s

/-- The stall words, newest first, that wire sample `i` of a cycle is made of, out of those read up to the cycle boundary: the sample
stands 88 wire samples after its stall words, and 64 of them are the cycle, so that the filter spans 24 on either side (R326; DEDUCED, log
entry 110). -/
def t1sWindow (s : State) (line : List Word) (i : Nat) : List Word := (line.drop ((63 - i) * t1sRatio s)).take (49 * t1sRatio s)

/-- One wire sample of an output channel: the decimated word is rounded to 14 bits, and saturation is counted (R326). Where nothing but
zero was read it is zero. No configuration of the port enables dither, so its LFSR does not advance (R68; DESIGN CHOICE, log entry 77). -/
def t1sRound (line : List Word) (r : List Int × State) (i : Nat) : List Int × State :=
  let w := t1sWindow r.2 line i
  let f := r.2.takeFree
  let q := if w.all fun x => decide (x = 0#36) then (0, false) else satTo 14 (roundHalfEven (Config.freeWire f.1 w i).toInt 22)
  (r.1 ++ [q.1], if q.2 then t1sEvent f.2 59 11 else f.2)

/-- The 32 G.722 octets of output channel `c` for one cycle. -/
def t1sEncode (s : State) (c : Nat) : List Byte × State :=
  let r := (List.range 64).foldl (t1sRound (vget s.t1s.line c [])) ([], s)
  (List.range 32).foldl (fun (p : List Byte × State) i =>
    let f := p.2.takeFree
    (p.1 ++ [Config.freeOctet f.1 r.1 i], f.2)) ([], r.2)

/-- The downlink frame of a cycle (R327, Table 13-5). -/
def t1sDownlink (s : State) : List Byte × State :=
  let mask := (s.reg Reg.T1S_CH).extractLsb' 16 16
  let da := (s.reg Reg.T1S_AUDIO_DA_LO).toNat + s.fld Reg.T1S_AUDIO_DA_HI 0 16 * 2 ^ 32
  let sa := (s.reg (Reg.ETH_MAC_LO 2)).toNat + s.fld (Reg.ETH_MAC_HI 2) 0 16 * 2 ^ 32
  let hdr := beBytes 6 da ++ beBytes 6 sa ++ beBytes 2 (s.fld Reg.T1S_AUDIO 1 16) ++ [1#8, 0#8] ++ beBytes 2 s.t1s.cycle.toNat
    ++ beBytes 2 mask.toNat ++ [0#8, 0#8]
  ((List.range 16).filter fun c => mask.getLsbD c).foldl (fun (p : List Byte × State) c =>
    let e := t1sEncode p.2 c
    (p.1 ++ e.1, e.2)) (hdr, s)

/-- Whether the downlink frame has been tried on the pair and waits to be sent again. -/
def t1sRetries (s : State) : Bool :=
  let x := ethAt s 2
  x.backoff.isSome && decide (x.now.map TxNow.queue = some 8)

/-- The downlink frame that waits is dropped. One that is on the pair completes (R307; DESIGN CHOICE, log entry 110). -/
def t1sDrop (s : State) : State :=
  let s1 := { s with t1s := { s.t1s with down := none } }
  if t1sRetries s then putEth s1 2 { ethAt s1 2 with now := none, backoff := none, collisions := 0 } else s1

/-- T1S_AUDIO_CYCLE: a cycle boundary (R326 to R329). A boundary that ends a wait plays nothing and misses nothing. -/
def t1sCycle (s0 : State) : State :=
  let s := t1sDrop s0
  if t1sRuns s && !acquiring s && decide (s.tick.sampleCnt.toNat % (64 * t1sRatio s) = 0) && decide (s.t1s.last ≠ some s.tick.sampleCnt) then
    let s1 := if (s0.t1s.down.isSome || t1sRetries s0) && !s.t1s.waits then t1sEvent s 58 10 else s
    let came := fun c => s.t1s.got.any fun e => decide (e.1 = c)
    let s2 := if s.t1s.waits then s1 else
      (List.range 16).foldl (fun u c => if s.t1s.up.getLsbD c && !came c then t1sEvent u 56 8 else u) s1
    let plays := if s.t1s.waits then [] else s.t1s.got.filter fun e => s.t1s.up.getLsbD e.1
    let d := t1sDownlink s2
    { d.2 with t1s := { d.2.t1s with
      got := [], plays := plays, down := some d.1, cycle := d.2.t1s.cycle + 1#16, waits := false, last := some s.tick.sampleCnt } }
  else s0

/-- T1S_UPLINK_FRAME (R329): the oldest audio frame received is kept for the next cycle, or dropped. -/
def t1sUplink (s : State) : State :=
  match s.t1s.inbox with
  | [] => s
  | f :: rest =>
    let s1 := { s with t1s := { s.t1s with inbox := rest } }
    let b := f.drop (etypeAt f + 2)
    let c := (b.getD 1 0#8).toNat
    if t1sRuns s && decide (b.headD 0#8 = 2#8) && decide (c < 16) && s.t1s.up.getLsbD c then
      if s.t1s.got.any fun e => decide (e.1 = c) then t1sEvent s1 57 9
      else { s1 with t1s := { s1.t1s with got := s1.t1s.got ++ [(c, (b.drop 8).take 32)] } }
    else ethCount s1 2 60 1

/-- What T1S audio does when acquisition starts or a switch tick passes: it waits, and its coders are reset (R329). -/
def t1sWait (s0 : State) : State :=
  let s := t1sDrop s0
  { s with t1s := { s.t1s with waits := true, got := [], plays := [], line := Vector.replicate 16 [], down := none, last := some s.tick.sampleCnt } }

/-- T1S_AUDIO_CYCLE (R326). -/
def execT1sAudioCycle (s : State) : Out := done (t1sCycle s)

/-- T1S_UPLINK_FRAME (R329). -/
def execT1sUplinkFrame (s : State) : Out := done (t1sUplink s)

end Sys2Proof.Machine
end

