-- ==== Sys2Proof/Machine/Stream.lean ====
section
/-! DEFINITION. The stream engine (chapter 14, R339 to R344). The layouts of the AAF and RTP headers are those of IEEE 1722 and
RFC 3550, which R339 names (PRESUMED, log entry 31). -/
namespace Sys2Proof.Machine

/-- Stream `i` of each direction. -/
def stxAt (s : State) (i : Nat) : TxStream := vget s.stream.tx i TxStream.zero
def putStx (s : State) (i : Nat) (x : TxStream) : State := { s with stream := { s.stream with tx := vset s.stream.tx i x } }
def srxAt (s : State) (i : Nat) : RxStream := vget s.stream.rx i RxStream.zero
def putSrx (s : State) (i : Nat) (x : RxStream) : State := { s with stream := { s.stream with rx := vset s.stream.rx i x } }

/-- Fields of STX_CTRL, and of SRX_CTRL where they agree (Table 14-5). `c` is the register's address. -/
def strEn (s : State) (c : Nat) : Bool := s.bit c 0
def strRtp (s : State) (c : Nat) : Bool := s.bit c 1
def strBytes (s : State) (c : Nat) : Nat := if s.bit c 2 then 4 else 3
def strCh (s : State) (c : Nat) : Nat := s.fld c 6 6 + 1
def strBase (s : State) (c : Nat) : Nat := s.fld c 12 8
def stxP (s : State) (i : Nat) : Nat := s.fld (Reg.STX_CTRL i) 20 6 + 1
def stxPort (s : State) (i : Nat) : Nat := s.fld (Reg.STX_CTRL i) 4 1
def stxQueue (s : State) (i : Nat) : Nat := 6 + s.fld (Reg.STX_CTRL i) 5 1
def stxHdrLen (s : State) (i : Nat) : Nat := max 14 (min 64 (s.fld (Reg.STX_HDR i) 25 7))
def srxDepth (s : State) (i : Nat) : Nat := max 16 (min 2048 (s.fld (Reg.SRX_CTRL i) 20 12))

/-- STATE of an RX stream: 0 OFF, 2 RUNNING, 3 LOST; WAITING is read while the streams wait. -/
def setSrxState (s : State) (i v : Nat) : State := s.setFld (Reg.SRX_STATE i) 0 2 v

/-- Whether the streams wait (R344). -/
def streamsWait (s : State) : Bool :=
  s.stream.waits || acquiring s || pllAway s || (s.bit Reg.TIME_CTRL 0 && !s.bit Reg.TIME_STATUS 0)

/-- The stalls of RX stream `i`. -/
def srxStalls (s : State) (i : Nat) : List Nat := (List.range (strCh s (Reg.SRX_CTRL i))).map fun c => 392 + strBase s (Reg.SRX_CTRL i) + c

/-! ### Register writes and enables (R340) -/

/-- What refuses the enable of a TX stream. -/
def stxBad (s : State) (i : Nat) : Bool :=
  let c := Reg.STX_CTRL i
  decide (256 < strBase s c + strCh s c)
    || decide (ethMaxLen s (stxPort s i) < wireLength (List.replicate (stxHdrLen s i + stxP s i * strCh s c * strBytes s c) 0#8))
    || !txSrc s (stxPort s i) (stxQueue s i)

/-- What refuses the enable of RX stream `i`, its EN counted as set. -/
def srxBad (s : State) (i : Nat) : Bool :=
  let c := Reg.SRX_CTRL i
  decide (256 < strBase s c + strCh s c)
    || decide (65536 < ((List.range 64).map fun k =>
        if k = i || strEn s (Reg.SRX_CTRL k) then srxDepth s k * strCh s (Reg.SRX_CTRL k) else 0).sum)

/-- CFG_REJECT. -/
def strReject (s : State) : State := s.raise Reg.STR_STATUS 1#32

/-- A stream stops as its EN is cleared; its input stalls are released at the next frame tick. -/
def streamStop (s : State) (rx : Bool) (i : Nat) : State :=
  if rx then setSrxState (putSrx s i RxStream.zero) i 0 else putStx s i TxStream.zero

/-- A write of the register `o` words into the block of stream `i`: whether the response is an error, and the state. Field changes
while EN is 1 are refused (R340). -/
def streamWrite (s : State) (rx : Bool) (i o : Nat) (v : BitVec 32) : Bool × State :=
  let base := if rx then Reg.SRX_CTRL i else Reg.STX_CTRL i
  let m : BitVec 32 := if rx then 0xFFFFFFC6#32 else 0x3FFFFFE#32
  if (if rx then 5 else 4) ≤ o then (false, s)
  else if o ≠ 0 then
    if strEn s base then (true, strReject s) else (false, s.setReg (base + 4 * o) v)
  else if strEn s base then
    let same := decide (v &&& m = s.reg base &&& m)
    let s1 := if same then s else strReject s
    (!same, if v.getLsbD 0 then s1 else streamStop (s1.setBit base 0 false) rx i)
  else
    let s1 := s.setReg base (v &&& m)
    if v.getLsbD 0 then
      if (if rx then srxBad s1 i else stxBad s1 i) then (false, strReject s1) else (false, s1.setBit base 0 true)
    else (false, s1)

/-- Whether an RX stream in service carries stall `k`. -/
def srxCovers (s : State) (k : Nat) : Bool := (List.range 64).any fun i => (srxAt s i).on && (srxStalls s i).contains k

/-- Release the input stalls that no RX stream in service carries. -/
def srxRelease (s : State) : State :=
  (List.range 256).foldl (fun t c => if srxCovers t (392 + c) then t else releaseStall t (392 + c) clsPort fnStream) s

/-- STREAM_ENABLE_APPLY for RX stream `i`: it starts as from LOST. -/
def srxApply (s : State) (i : Nat) : State :=
  if strEn s (Reg.SRX_CTRL i) && !(srxAt s i).on then
    let r := claimInputs s (srxCovers s) fnStream (srxStalls s i)
    if r.1 then setSrxState (putSrx r.2 i { RxStream.zero with on := true }) i 3 else r.2.setBit (Reg.SRX_CTRL i) 0 false
  else s

/-- STREAM_ENABLE_APPLY for TX stream `i`. -/
def stxApply (s : State) (i : Nat) : State :=
  if strEn s (Reg.STX_CTRL i) && !(stxAt s i).on then putStx s i { TxStream.zero with on := true } else s

/-- The frame-tick work of the stream engine after the releases; `resume` ends the wait after a switch tick (R340, R344). -/
def streamFrame (s : State) (resume : Bool) : State :=
  let s1 := if resume then { s with stream := { s.stream with waits := false } } else s
  (List.range 64).foldl stxApply ((List.range 64).foldl srxApply s1)

/-! ### Transmit (R341) -/

/-- The bytes of one converted word, most significant first. A saturation sets the engine's SAT bit and is
counted (R67); Tables 14-4 and 14-5 give neither an address, so that no register shows them (DESIGN CHOICE, log entry 76). -/
def stxWord (s : State) (i k : Nat) : List Byte × State :=
  let n := strBytes s (Reg.STX_CTRL i)
  let r := pcmOut (8 * n) (s.bit (Reg.STX_CTRL i) 3) (delivered s k) s.stream.lfsr
  (beBytes n (r.p.toNat % 256 ^ n), { s with stream := { s.stream with
    lfsr := r.lfsr, sat := s.stream.sat || r.sat, satCount := if r.sat then s.stream.satCount + 1#32 else s.stream.satCount } })

/-- Gather the words of TX stream `i` readable in the interval that ends, of tick M. -/
def stxSample (s : State) (i : Nat) : State :=
  let x := stxAt s i
  if !x.on then s
  else if streamsWait s then putStx s i { x with samples := [], count := 0 }
  else
    let m := s.tick.media
    let fresh := decide (m.toNat % stxP s i = 0)
    let joins := decide (0 < x.count) && decide (x.count < stxP s i) && decide (x.start + BitVec.ofNat 64 x.count = m)
    if fresh || joins then
      let r := (List.range (strCh s (Reg.STX_CTRL i))).foldl (fun (p : List Byte × State) c =>
        let w := stxWord p.2 i (648 + strBase s (Reg.STX_CTRL i) + c)
        (p.1 ++ w.1, w.2)) ([], s)
      putStx r.2 i { x with start := if fresh then m else x.start, samples := (if fresh then [] else x.samples) ++ r.1,
                            count := if fresh then 1 else x.count + 1 }
    else putStx s i { x with samples := [], count := 0 }

/-- Replace bytes from offset `o` of a template; bytes past its end are dropped. -/
def fillBytes (h : List Byte) (o : Nat) (bs : List Byte) : List Byte :=
  (bs.zipIdx.foldl (fun (l : List Byte) e => l.set (o + e.2) e.1) h)

/-- Change one byte of a template. -/
def fillByte (h : List Byte) (o : Nat) (f : Nat → Nat) : List Byte := fillBytes h o [BitVec.ofNat 8 (f (h.getD o 0#8).toNat)]

/-- nsr of the stall rate: 2 for 16 kHz, 4 to 7 for 44.1, 48, 88.2 and 96 kHz, 0 for 14.7 kHz (R339). -/
def nsrCode (rate : Nat) : Nat :=
  match rate with
  | 16000 => 2
  | 44100 => 4
  | 48000 => 5
  | 88200 => 6
  | 96000 => 7
  | _ => 0

/-- format of 24-bit or 32-bit integer samples. -/
def aafFormat (bytes : Nat) : Nat := if bytes = 4 then 2 else 3

/-- The filled header of an AAF packet (R341). -/
def aafHeader (s : State) (i : Nat) (h : List Byte) (n : Nat) : List Byte :=
  let x := stxAt s i
  let o := etypeAt h + 2
  let ch := strCh s (Reg.STX_CTRL i)
  let h1 := fillByte h (o + 1) fun b => b / 2 * 2 + 1
  let h2 := fillBytes h1 (o + 2) [x.seq.setWidth 8]
  let h3 := fillBytes h2 (o + 12) (beBytes 4 ((mediaIdeal x.start.toNat s.rate + (s.reg (Reg.STX_OFFSET i)).toNat) % 2 ^ 32))
  let h4 := fillBytes h3 (o + 16) [BitVec.ofNat 8 (aafFormat (strBytes s (Reg.STX_CTRL i)))]
  let h5 := fillByte h4 (o + 17) fun b => nsrCode s.rate * 16 + b % 16 / 4 * 4 + ch / 256
  fillBytes h5 (o + 18) ([BitVec.ofNat 8 ch, BitVec.ofNat 8 (8 * strBytes s (Reg.STX_CTRL i))] ++ beBytes 2 n)

/-- The filled header of an RTP packet (R341). -/
def rtpHeader (s : State) (i : Nat) (h : List Byte) (n : Nat) : List Byte :=
  let x := stxAt s i
  let l3 := etypeAt h + 2
  let l4 := l3 + 4 * ((h.getD l3 0#8).toNat % 16)
  let h1 := fillBytes h (l3 + 2) (beBytes 2 (h.length - l3 + n) ++ beBytes 2 x.ident.toNat)
  let h2 := fillBytes h1 (l3 + 10) [0#8, 0#8]
  let h3 := fillBytes h2 (l3 + 10) (beBytes 2 (inetSum ((h2.drop l3).take (l4 - l3))))
  let h4 := fillBytes h3 (l4 + 4) (beBytes 2 (h.length - l4 + n) ++ [0#8, 0#8])
  fillBytes h4 (l4 + 10) (beBytes 2 x.seq.toNat ++ beBytes 4 ((x.start.toNat + (s.reg (Reg.STX_MOFF i)).toNat) % 2 ^ 32))

/-- Count a packet that is not queued, with its flag. -/
def stxDrop (s : State) (i : Nat) (m : BitVec 32) : State := (s.count (Reg.STX_COUNT i) 16 16 1).raise Reg.STR_STATUS m

/-- STREAM_TX_PACKET: in the interval of tick M + P the packet is built and queued (R341). A template that the yard refuses is
never queued, and a packet longer than ETH_MAXLEN is queued and not sent (R307). -/
def stxPacket (s : State) (i : Nat) : State :=
  let x := stxAt s i
  let tpl := s.fld (Reg.STX_HDR i) 0 25 / 4 * 4
  if x.on && decide (x.count = stxP s i) && decide (x.start + BitVec.ofNat 64 x.count = s.tick.media) && !streamsWait s
      && !blockHolds s masterStream tpl (stxHdrLen s i) false then
    let t := yardReadBytes s masterStream tpl (stxHdrLen s i)
    let n := x.samples.length
    let h := if strRtp s (Reg.STX_CTRL i) then rtpHeader s i t.1 n else aafHeader s i t.1 n
    let s1 := putStx t.2.2 i { x with samples := [], count := 0, seq := x.seq + 1#16, ident := x.ident + 1#16 }
    let p := stxPort s i
    let q := stxQueue s i
    let f := h ++ x.samples
    let long := decide (ethMaxLen s1 p < wireLength f)
    if !ethLink s1 p then stxDrop s1 i 4#32
    else if t.2.1 || decide (s1.fld (Reg.ETH_TXQ p q) 0 7 * 1024 < txHeld s1 p q + f.length) then stxDrop s1 i 2#32
    else (txQueue (creditsNow (if long then ethCount s1 p 52 1 else s1) p) p q ⟨[f], false, false, 0#16, true, false, 0, 0#32, long⟩).count
      (Reg.STX_COUNT i) 0 16 1
  else s

/-! ### Receive (R342, R343) -/

/-- A frame as the receive side sees it: RTP, its key, the rest of its header checked against stream `i`, its time stamp and
its samples. -/
structure StreamFrame where
  rtp : Bool
  key : Nat
  time : Nat
  good : Bool
  payload : List Byte
  deriving DecidableEq, Repr

/-- Parse a frame without FCS, an AAF frame with at most one VLAN tag; the header test is made for a stream of `ch` channels and `n` bytes each at `rate` (Table 14-1). -/
def streamParse (f : List Byte) (ch n rate : Nat) : Option StreamFrame :=
  let e := if be16 f 12 = 0x8100 ∨ be16 f 12 = 0x88A8 then 16 else 12
  let b := fun o => (f.getD o 0#8).toNat
  if be16 f e = 0x22F0 then
    if b (e + 2) = 2 then
      let o := e + 2
      let len := be16 f (o + 20)
      let pay := (f.drop (o + 24)).take len
      some ⟨false, beVal ((f.drop (o + 4)).take 8), beVal ((f.drop (o + 12)).take 4),
        decide (b (o + 1) % 2 = 1) && decide (b (o + 16) = aafFormat n) && decide (b (o + 17) / 16 = nsrCode rate)
          && decide (b (o + 17) % 4 * 256 + b (o + 18) = ch) && decide (b (o + 19) = 8 * n) && decide (b (o + 22) / 16 % 2 = 0)
          && decide (pay.length = len), pay⟩
    else none
  else
    match parseIp f with
    | some (l3, false, 17, l4) =>
      let len := be16 f (l4 + 4)
      let pay := (f.drop (l4 + 20)).take (len - 20)
      some ⟨true, beVal ((f.drop (l3 + 16)).take 4) + be16 f (l4 + 2) * 2 ^ 32, beVal ((f.drop (l4 + 12)).take 4),
        decide (b (l4 + 8) / 64 = 2) && decide (b (l4 + 8) % 32 = 0) && decide (20 ≤ len) && decide (pay.length = len - 20), pay⟩
    | _ => none

/-- The key of RX stream `i`. -/
def srxKey (s : State) (i : Nat) : Nat :=
  (s.reg (Reg.SRX_KEY_LO i)).toNat + s.fld (Reg.SRX_KEY_HI i) 0 (if strRtp s (Reg.SRX_CTRL i) then 16 else 32) * 2 ^ 32

/-- The RX stream in service that a frame belongs to. -/
def srxMatch (s : State) (f : List Byte) : Option Nat :=
  match streamParse f 0 0 0 with
  | some p => (List.range 64).find? fun i => (srxAt s i).on && decide (strRtp s (Reg.SRX_CTRL i) = p.rtp) && decide (srxKey s i = p.key)
  | none => none

/-- A number modulo 2^32 as a signed one. -/
def signed32 (x : Int) : Int := (BitVec.ofInt 32 x).toInt

/-- I of a tick that may lie before the epoch. -/
def idealAt (m : Int) (rate : Nat) : Int := m * 1000000000 / rate

/-- The tick whose I is nearest to `t`; ties go to the earlier one (R342). -/
def nearestTick (t : Int) (rate : Nat) : Int :=
  let m := t * rate / 1000000000
  ([m, m + 1, m + 2] : List Int).foldl (fun best k =>
    if (idealAt k rate - t).natAbs < (idealAt best rate - t).natAbs then k else best) (m - 1)

/-- M0 of a packet (R342). -/
def packetTick (s : State) (i : Nat) (p : StreamFrame) : Int :=
  let cur : Int := s.tick.media.toNat
  let link := (s.reg (Reg.SRX_LINK i)).toInt
  if p.rtp then cur + signed32 (p.time - (s.reg (Reg.SRX_MOFF i)).toNat + link - cur)
  else
    let now := idealAt cur s.rate
    nearestTick (now + signed32 (p.time + link - now)) s.rate

/-- Whether tick `m` holds a sample. -/
def srxHolds (x : RxStream) (m : Nat) : Bool := x.buf.any fun e => decide (e.1 = 64 * m)

/-- Keep one sample of an accepted packet. -/
def srxKeep (s : State) (i : Nat) (m0 : Int) (pay : List Byte) (k : Nat) : State :=
  let n := strBytes s (Reg.SRX_CTRL i)
  let ch := strCh s (Reg.SRX_CTRL i)
  let m := (m0 + k).toNat
  let x := srxAt s i
  if m0 + k ≤ (s.tick.media.toNat : Int) then s
  else if srxHolds x m then s.count (Reg.SRX_CNT_B i) 0 16 1
  else
    putSrx s i { x with buf := x.buf ++ (List.range ch).map fun c =>
      (64 * m + c, pcmIn (8 * n) (BitVec.ofNat 32 (beVal ((pay.drop ((k * ch + c) * n)).take n)))) }

/-- Place the samples of a packet of stream `i` (Table 14-2). -/
def srxPlace (s : State) (i : Nat) (p : StreamFrame) : State :=
  let size := strBytes s (Reg.SRX_CTRL i) * strCh s (Reg.SRX_CTRL i)
  let count := p.payload.length / size
  if !p.good || decide (p.payload.length % size ≠ 0) || decide (count = 0) || decide (64 < count) then s.count (Reg.SRX_CNT_B i) 16 16 1
  else
    let m0 := packetTick s i p
    let cur : Int := s.tick.media.toNat
    if m0 + count ≤ cur + 1 then s.count (Reg.SRX_CNT_A i) 0 16 1
    else if cur + srxDepth s i < m0 then s.count (Reg.SRX_CNT_A i) 16 16 1
    else
      let s1 := if m0 ≤ cur then s.count (Reg.SRX_CNT_A i) 0 16 1 else s
      let s2 := if s1.fld (Reg.SRX_STATE i) 0 2 = 3 then setSrxState (putSrx s1 i { srxAt s1 i with fade := 0 }) i 2 else s1
      (List.range count).foldl (fun u k => srxKeep u i m0 p.payload k) s2

/-- STREAM_RX_PACKET: the oldest frame that the filters passed to the engine (R342). While the streams wait, a stream keeps
nothing. -/
def srxPacket (s : State) : State :=
  match s.stream.inbox with
  | [] => s
  | fr :: rest =>
    let s1 := { s with stream := { s.stream with inbox := rest } }
    let f := fr.take (fr.length - 4)
    match srxMatch s1 f with
    | none => s1.count Reg.STR_UNMATCHED 0 32 1
    | some i =>
      if streamsWait s1 then s1
      else match streamParse f (strCh s1 (Reg.SRX_CTRL i)) (strBytes s1 (Reg.SRX_CTRL i)) s1.rate with
        | some p => srxPlace s1 i p
        | none => s1

/-- The words of RX stream `i` for the interval that opens, of tick M + 1 (R343, R344). -/
def srxSample (s : State) (i : Nat) : State :=
  let x := srxAt s i
  let zeros := fun (t : State) => (srxStalls s i).foldl (fun u k => portWrite u k 0#36) t
  if !x.on then s
  else if streamsWait s then zeros (setSrxState (putSrx s i { x with buf := [] }) i 3)
  else
    let m := s.tick.media.toNat + 1
    let rest := x.buf.filter fun e => decide (64 * m + 64 ≤ e.1)
    if srxHolds x m then
      let s1 := putSrx s i { x with buf := rest, fade := min 256 (x.fade + 1) }
      (List.range (strCh s (Reg.SRX_CTRL i))).foldl (fun u c =>
        let w := ((x.buf.find? fun e => decide (e.1 = 64 * m + c)).map Prod.snd).getD 0#36
        portWrite u (392 + strBase s (Reg.SRX_CTRL i) + c) (scaleFrac w (min 256 (x.fade + 1)) 256)) s1
    else
      let s1 := putSrx s i { x with buf := rest }
      zeros (s1.count (Reg.SRX_STATE i) 16 16 1)

/-- STREAM_LOSS (R343): the stream loses what it held. -/
def srxLoss (s : State) (i : Nat) : State :=
  if (srxAt s i).on && decide (s.fld (Reg.SRX_STATE i) 0 2 = 2) then setSrxState (putSrx s i { srxAt s i with buf := [] }) i 3 else s

/-- The stream engine in one interval. -/
def streamRx (s : State) : State := (List.range 64).foldl srxSample s
def streamTx (s : State) : State := (List.range 64).foldl stxSample s

/-- At a switch tick the streams wait until the first frame tick after it (R344). -/
def streamWait (s : State) : State := { s with stream := { s.stream with waits := true } }

/-! ### The commands -/

/-- STX_CTRL_WRITE (R340): register `o` of TX or RX stream `i`. -/
def execStxCtrlWrite (rx : Bool) (i : Fin 64) (o : Fin 8) (v : MasterWrite) (s : State) : Out :=
  done (s.asked v.master.val ((if rx then Reg.SRX_CTRL i.val else Reg.STX_CTRL i.val) + 4 * o.val) v.value (streamWrite s rx i.val o.val v.value))

/-- STREAM_TX_PACKET (R341). -/
def execStreamTxPacket (i : Fin 64) (s : State) : Out := done (stxPacket s i.val)

/-- STREAM_RX_PACKET (R342). -/
def execStreamRxPacket (s : State) : Out := done (srxPacket s)

/-- STREAM_LOSS (R343). -/
def execStreamLoss (i : Fin 64) (s : State) : Out := done (srxLoss s i.val)

end Sys2Proof.Machine
end

