-- ==== Sys2Proof/Machine/Mode.lean ====
section
/-! DEFINITION. The supervisor's mode requests and the mode-change sequence (chapter 02, R30 to R38; R293, R361, R511). What the
ticks of a sequence do is in Machine/Tick.lean. -/
namespace Sys2Proof.Machine

/-- Replace the sequence record. -/
def putSeq (s : State) (q : ModeSeq) : State := { s with tick := { s.tick with seq := q } }

/-- SUP_STATE.MODE_BUSY. -/
def setBusy (s : State) (b : Bool) : State := s.setBit Reg.SUP_STATE 15 b

/-- A mode and family as in MODE_SET (Table 15-10). -/
def modeArg (m : BitVec 3) (fam : Bool) : Nat := m.toNat + if fam then 16 else 0

/-! ### The graph after the switch (R32) -/

/-- RUN and LEN of rill role `k` in the graph after the switch: the copy committed and not yet swapped, otherwise the copy in force. -/
def graphRill (s : State) (k : Nat) : Bool × Nat :=
  if (setAt s k).committed then (s.bit (Reg.RILL_CTRL k) 0, s.fld (Reg.RILL_PROG k) 0 16)
  else let e := vget s.rill k RillEngine.zero; (e.runA, e.lenA.toNat)

/-- RUN of basin role `be` in the graph after the switch. -/
def graphBasin (s : State) (be : Nat) : Bool :=
  if (setAt s (16 + be)).committed then s.bit (Reg.BASIN_CTRL be) 0 else (vget s.basin be BasinEngine.zero).runA

/-- The fabric's and the cascade unit's words in the graph after the switch. -/
def graphFabric (s : State) : Cells Word := if (setAt s setFabric).committed then s.fabric.stS else s.fabric.stA
def graphCascade (s : State) : Cells Word := if (setAt s setCascade).committed then s.cascade.stS else s.cascade.stA

/-- The rill roles that mode `m` runs. -/
def rillRoles (m : BitVec 3) : List Nat := if m = modeListen then [0] else List.range 16

/-- LOST of role `k` of FAR_ROLE (R459). -/
def roleLost (s : State) (k : Nat) : Bool := s.bit (Reg.FAR_ROLE k) 8

/-- The LENGTH condition of Table 02-7. -/
def lengthBad (s : State) (m : BitVec 3) : Bool :=
  (rillRoles m).any fun k => (graphRill s k).1 && decide (modeC m - 64 < (graphRill s k).2)

/-- The CAPACITY condition of Table 02-7. -/
def capacityBad (s : State) (m : BitVec 3) : Bool :=
  ((rillRoles m).any fun k => (graphRill s k).1 && roleLost s k)
    || (decide (m ≠ modeListen) &&
      (((List.range 8).any fun be => graphBasin s be && roleLost s (17 + be))
        || ((graphFabric s).any fun e => decide (e.1 < 0x20000) && decide (e.1 % 2 = 0) && e.2.getLsbD 35 && decide (fabricLimitOf m ≤ e.1 / 2))
        || ((chainKeys (graphCascade s)).any fun c =>
            let x := chainOf (graphCascade s) c
            x.en && decide (cascadeLimitOf m ≤ x.first + x.count - 1))))

/-- The reason of the graph tests: 2 LENGTH, 3 CAPACITY, 0 none. -/
def graphReason (s : State) (m : BitVec 3) : Nat := if lengthBad s m then 2 else if capacityBad s m then 3 else 0

/-! ### Requests (R31, R32, R38) -/

/-- The reason that refuses a request for a running mode on its arrival, 0 for none: the first row of Table 02-7 that holds. -/
def modeReason (s : State) (m : BitVec 3) (fam : Bool) (g : BitVec 4) : Nat :=
  if isFollower s then 5
  else if s.tick.seq.phase ≠ .idle ∨ s.tick.pending = true then 4
  else if s.tick.entered = false ∨ isRunMode m = false ∨ (m = modeListen ∧ fam = true) ∨ (m = s.tick.mode ∧ fam = s.tick.family) then 1
  else if g = 0#4 then graphReason s m
  else 0

/-- Whether a change to this mode and family needs acquisition: a family change, or exit from LISTEN (R34). -/
def needsAcquisition (s : State) (m : BitVec 3) (fam : Bool) : Bool :=
  decide (m ≠ modeListen) && (s.listen || decide (fam ≠ s.tick.family))

/-- Accept a request: the sequence waits for its group and a cutoff. -/
def modeAccept (s : State) (m : BitVec 3) (fam : Bool) (g : BitVec 4) : State :=
  setBusy (putSeq s ⟨.accepted, .mode, m, fam, g, needsAcquisition s m fam, 0, false⟩) true

/-- A request whose ramp is over: STANDBY is requested, or SAFE entered. A STANDBY that no wake source permits ramps up again, but for
acquisition, which keeps the outputs muted (R20). -/
def stopNow (s : State) : State :=
  match s.tick.seq.goal with
  | .mode => s
  | .safe => safeNow s 5
  | .standby =>
    let t := standbyWrite s 0x5B#32
    if t.power.phase = .running ∧ t.power.stbyWait = false then
      setBusy { putSeq t ModeSeq.none with tick := { (putSeq t ModeSeq.none).tick with ramp := if acquiring t then .steady else .up } } false
    else t

/-- A request for STANDBY or SAFE: it pre-empts a change, discards its group, and the ramp continues from the gain it finds (R37,
R38). With outputs already at zero it acts at once. -/
def stopRequest (s : State) (goal : SeqGoal) : State :=
  let s0 := { s with tether := { s.tether with change := none } }
  let s1 := if modeHolds s0 s.tick.seq.group then abortGroup s0 s.tick.seq.group else s0
  let s2 := setBusy { s1 with tick := { s1.tick with
    seq := { ModeSeq.none with phase := .rampDown, goal := goal }, pending := false, ramp := .down, outHold := none } } true
  if s.tick.gain = 0 then stopNow s2 else s2

/-- A mode request (R32, R361): `who` and `rule` as in MODE_DECISION, `code` of Table 02-3. The answer is the refusal reason, 0
when the request is accepted. STANDBY and SAFE are entered from a running mode only (R30), and a follower takes them too (DEDUCED, log
entry 101: R31 and R471 speak of changes of the ring's mode). -/
def modeRequest (s : State) (who rule : Nat) (code : BitVec 3) (fam : Bool) (g : BitVec 4) : Nat × State :=
  let action := if code = 1#3 then 4 else if code = 3#3 then 5 else 3
  let note := fun (t : State) (r : Nat) => modeDecision t who rule action (modeArg code fam) r
  if code = 1#3 ∨ code = 3#3 then
    if modeRuns s = false then (1, note s 1)
    else (0, stopRequest (note s 0) (if code = 1#3 then .standby else .safe))
  else if code = 0#3 then (1, note s 1)
  else
    let r := modeReason s code fam g
    if r = 0 then (0, modeAccept (note s 0) code fam g) else (r, note s r)

/-- A refusal after acceptance: the decision on the host's request (only the host names a group), the refusal event (in this order: DESIGN
CHOICE, log entry 125), and the group's sets returned to the uncommitted state (R32, R33). Outputs that a switch tick muted meanwhile go on with their hold. -/
def modeRefuse (s : State) (r : Nat) : State :=
  let q := s.tick.seq
  let s1 := (modeDecision s 0 0 3 (modeArg q.mode q.family) r).event 2 2 r 0 0 0
  let s2 := abortGroup { s1 with tether := { s1.tether with change := none } } q.group
  match s2.tick.outHold with
  | some n =>
    let s3 := putSeq s2 { ModeSeq.none with phase := .hold, heldFrames := n, mode := s2.tick.mode, family := s2.tick.family }
    { s3 with tick := { s3.tick with outHold := none } }
  | none => setBusy (putSeq s2 ModeSeq.none) false

/-- Whether this device leads a ring in which it has a peer (R470). -/
def leadsRing (s : State) : Bool :=
  (tetherEn s 0 || tetherEn s 1) && s.bit Reg.TETH_CFG 2 && (tetherLink s 0 || tetherLink s 1)

/-- The frames by which the leader names D ahead: enough for every follower to receive MODE 2 frames before it (DESIGN CHOICE, log entry
105). -/
def modeLead : BitVec 32 := 4#32

/-- An accepted request that may take this frame tick, number `now`, as D: on a leader MODE goes to every follower first, and D is the
frame tick that it names (R471). -/
def modeTake (s : State) (q : ModeSeq) (now : BitVec 32) : State :=
  let ready := putSeq { s with tether := { s.tether with change := none } } { q with phase := .ready }
  match leadsRing s, s.tether.change with
  | false, _ => ready
  | true, some (_, _, d) => if 0 ≤ (now - d).toInt then ready else s
  | true, none =>
    let d := now + modeLead
    let s1 := msgQueue s (BitVec.ofNat 32 (0x11 + 8 * 256 + 2 ^ 20)) [BitVec.ofNat 32 (modeArg q.mode q.family), d]
    { s1 with tether := { s1.tether with change := some (q.mode, q.family, d) } }

/-- A follower's frame tick, number `now` of the leader's: at the D of a MODE it holds, the sequence of R34 starts (R471). -/
def modeFollow (s : State) (now : BitVec 32) : State :=
  match s.tether.change with
  | some (m, fam, d) =>
    if 0 ≤ (now - d).toInt then
      let s1 := { s with tether := { s.tether with change := none } }
      if s.tick.seq.phase = .idle ∧ s.tick.pending = false then
        setBusy (putSeq s1 ⟨.ready, .mode, m, fam, 0#4, needsAcquisition s m fam, 0, false⟩) true
      else s1
    else s
  | none => s

/-- The cutoff of a frame tick for an accepted request whose group is complete: the late graph tests, then this tick is D (R32,
R34); and for a follower the D that its leader named. -/
def modeCutoff (s : State) : State :=
  let q := s.tick.seq
  let now := leadFrame s + 1#32
  if q.phase = .accepted ∧ groupComplete s q.group = true then
    let r := if q.group = 0#4 then 0 else graphReason s q.mode
    if r = 0 then modeTake s q now else modeRefuse s r
  else if isFollower s then modeFollow s now
  else s

/-- What the supervisor makes of a message delivered (R471): a follower holds a MODE that leaves 2 frames before its D, or refuses it with
BUSY, and answers either; a follower's refusal makes the leader refuse the request it has not begun. -/
def modeMessage (s : State) (h : BitVec 32) (body : List (BitVec 32)) : State :=
  let ty := (h.extractLsb' 0 8).toNat
  let w := (msgBody h body).getD 0 0#32
  let d := (msgBody h body).getD 1 0#32
  let src := (h.extractLsb' 16 2).toNat
  let m := w.extractLsb' 0 3
  let fam := w.getLsbD 4
  if ty = 0x11 ∧ isFollower s = true then
    if isRunMode m = false ∨ (m = modeListen ∧ fam = true) then sendReply s src 0x11 1 0xFFFF
    else if (d - leadFrame s).toInt < 3 ∨ s.tick.seq.phase ≠ .idle ∨ s.tick.pending = true then sendReply s src 0x11 4 0xFFFF
    else sendReply { s with tether := { s.tether with change := some (m, fam, d) } } src 0x11 0 0xFFFF
  else if ty = 0x14 ∧ w.extractLsb' 0 8 = 0x11#8 ∧ w.extractLsb' 8 8 ≠ 0#8 ∧ s.tick.seq.phase = .accepted ∧ s.tether.change.isSome = true then
    modeRefuse s (w.extractLsb' 8 8).toNat
  else s

/-- Arm the switch to a mode and family (R511): acquisitions are counted anew (R288). -/
def armSwitch (s : State) (m : BitVec 3) (fam : Bool) : State :=
  { s with tick := { s.tick with pending := true, pendMode := m, pendFamily := fam }, clock := { s.clock with fails := 0 } }

/-- The outputs start their ramp to zero, for the sequence `q` whose switch is armed (R34). -/
def rampStart (s : State) (q : ModeSeq) : State :=
  let s1 := putSeq s { q with phase := .rampDown }
  { s1 with tick := { s1.tick with ramp := .down, outHold := none } }

/-- MODE_CHANGE_START (R34): at D the switch is armed, unless the control core has armed it, and the outputs start their ramp to zero. -/
def modeChangeStart (s : State) : State :=
  let q := s.tick.seq
  if q.phase = .ready then rampStart (if s.tick.pending then s else armSwitch s q.mode q.family) q else s

/-- OUTPUT_RAMP_UP_START (R34): two frames after S, not during acquisition (R20). Where a mode request waits, only the outputs ramp up. -/
def rampUpStart (s : State) : State :=
  let q := s.tick.seq
  if acquiring s then s
  else if q.phase = .hold ∧ 2 ≤ q.heldFrames then
    let s1 := putSeq s { q with phase := .rampUp }
    { s1 with tick := { s1.tick with ramp := .up } }
  else if (q.phase = .accepted ∨ q.phase = .ready) ∧ s.tick.outHold.any (fun n => decide (2 ≤ n)) = true then
    { s with tick := { s.tick with ramp := .up, outHold := none } }
  else s

/-- MODE_COMPLETE (R34): the ramp up has ended. -/
def modeComplete (s : State) : State :=
  if s.tick.seq.phase = .rampUp ∧ s.tick.gain = 256 then
    (setBusy (putSeq s ModeSeq.none) false).event 2 1 (modeArg s.tick.mode s.tick.family) 0 0 0
  else s

/-- GROUP_TIMEOUT (R33): one second has passed and the group is not complete. -/
def groupTimeout (s : State) : State :=
  let q := s.tick.seq
  if q.phase = .accepted ∧ groupComplete s q.group = false then modeRefuse s 6 else s

/-- MASTER_ERR: a write refused because of its master, or an ignored TICK_SWITCH (R417, R504, R511). -/
def masterErr (s : State) : State := s.raise Reg.SYS_STATUS 16#32

/-- A write of TICK_SWITCH by master `master` (R511): whether the response is an error, and the state. Before the first mode it arms
the first mode; at D, and where no request is in progress, the sequence of R34 starts with it; a request accepted and not yet at D takes
the mode armed. SAFE is left only by reset (R30), so there nothing follows the arming. -/
def tickSwitch (s : State) (v : BitVec 32) (master : Nat) : Bool × State :=
  let m := v.extractLsb' 0 3
  let fam := v.getLsbD 4
  if master ≠ masterCcD then (true, masterErr s)
  else if v.extractLsb' 24 8 ≠ 0xC5#8 ∨ isRunMode m = false ∨ (m = modeListen ∧ fam = true) ∨ s.tick.pending = true then (false, masterErr s)
  else if inSafe s then (false, armSwitch s m fam)
  else if s.tick.entered = false then
    (false, setBusy (putSeq (armSwitch s m fam) ⟨.acquiring, .mode, m, fam, 0#4, decide (m ≠ modeListen), 0, true⟩) true)
  else if s.tick.seq.goal ≠ .mode then (false, armSwitch s m fam)
  else
    let q := { s.tick.seq with mode := m, family := fam, needAcq := needsAcquisition s m fam }
    match q.phase with
    | .ready => (false, rampStart (armSwitch s m fam) q)
    | .accepted => (false, putSeq (armSwitch s m fam) q)
    | _ => (false, setBusy (rampStart (armSwitch s m fam) { q with group := 0#4, heldFrames := 0, first := false }) true)

/-- The supervisor's write of TICK_SWITCH for the first mode it named (R36, R511). -/
def armNamed (s : State) : State :=
  match s.sup.named with
  | some (m, fam) =>
    if s.tick.pending || s.tick.entered || inSafe s then s
    else (tickSwitch s (BitVec.ofNat 32 (0xC5000000 + modeArg m fam)) masterCcD).2
  | none => s

/-! ### The commands -/

/-- TETHER_MESSAGE_RECEIVE (R471, R473). -/
def execTetherMessageReceive (p : Fin 2) (m : TetherMsg) (phase : BitVec 32) (s : State) : Out :=
  let t := tetherReceive s p.val m phase
  done (match m with
    | .firmware h body => if tetherLink s p.val && msgDelivers s h then modeMessage t h body else t
    | _ => t)

/-- MODE_CHANGE_START (R34). -/
def execModeChangeStart (s : State) : Out := done (modeChangeStart s)

/-- OUTPUT_RAMP_UP_START (R34). -/
def execOutputRampUpStart (s : State) : Out := done (rampUpStart s)

/-- MODE_COMPLETE (R34). -/
def execModeComplete (s : State) : Out := done (modeComplete s)

/-- GROUP_TIMEOUT (R33). -/
def execGroupTimeout (s : State) : Out := done (groupTimeout s)

/-- TICK_SWITCH (R511). -/
def execTickSwitch (v : BitVec 32) (master : Fin 18) (s : State) : Out := 
  done (s.asked master.val Reg.TICK_SWITCH v (tickSwitch s v master.val))

end Sys2Proof.Machine
end

