-- ==== Sys2Proof/Machine/Sup.lean ====
section
/-! DEFINITION. The supervisor: monitors, the policy table, evaluation, caps and reports (chapter 19, R441 to R450). -/
namespace Sys2Proof.Machine

/-! ### Monitors (R441) -/

/-- The status, count and width of the counters behind monitor `mon` at index `idx`: (register, lowest bit). -/
def monCounters (mon idx : Nat) : List (Nat × Nat) :=
  let lo := if mon = 6 then 16 else 0
  if mon = 4 then [(Reg.BASIN_MISS idx, 0)]
  else if idx = 0 then [(Reg.MEM_ECC, lo)]
  else if idx = 1 then (List.range 17).map fun k => (Reg.RILL_ECC k, lo)
  else if idx = 2 then (List.range 9).map fun k => (Reg.BASIN_ECC k, lo)
  else [(Reg.RB_ECC, lo), (Reg.FABRIC_ECC, lo), (Reg.CASCADE_ECC, lo)]

/-- How many indexes a monitor has (Table 19-1); 0 for an unknown monitor. -/
def monSize (mon : Nat) : Nat :=
  if mon = 1 then 4 else if mon = 2 then 5 else if mon = 3 ∨ mon = 4 then 8 else if mon = 5 ∨ mon = 6 then 4
  else if mon = 7 ∨ mon = 9 ∨ mon = 11 then 1 else if mon = 8 then 26 else if mon = 10 then 6 else 0

/-- Whether INDEX 0xFF is listed for a monitor. -/
def monHasAll (mon : Nat) : Bool := decide (1 ≤ mon) && (decide (mon ≤ 6) || decide (mon = 8))

/-- The key of a per-second monitor's increments. -/
def monKey (mon idx : Nat) : Nat := 64 * mon + idx

/-- The increment of a 16-bit counter field since the last evaluation. -/
def counterStep (s : State) (c : Nat × Nat) : Nat :=
  let f := fun (w : BitVec 32) => (w.extractLsb' c.2 16).toNat
  (f (s.reg c.1) + 65536 - f (Cells.get s.sup.seen c.1)) % 65536

/-- The increments of this evaluation's period: droops, missed entries, ECC counts and guard-overflow frame ticks. -/
def periodCounts (s : State) : Cells Nat :=
  let put := fun (m : Cells Nat) (k v : Nat) => Cells.write (fun _ => 0) m k v
  let a := (List.range 5).foldl (fun m i => put m (monKey 2 i) (Cells.read (fun _ => 0) s.sup.droops i)) []
  let b := [4, 5, 6].foldl (fun m mon => (List.range (monSize mon)).foldl (fun m i =>
    put m (monKey mon i) ((monCounters mon i).map (counterStep s)).sum) m) a
  (List.range 26).foldl (fun m i => put m (monKey 8 i) (Cells.read (fun _ => 0) s.sup.gov i)) b

/-- The count of a per-second monitor over the last second. -/
def secondCount (s : State) (mon idx : Nat) : Nat := (s.sup.recent.map fun m => Cells.read (fun _ => 0) m.2 (monKey mon idx)).sum

/-- BASIN_LIMIT (Table 06-10). -/
def basinLimit (s : State) : Nat := if s.tick.entered && !s.listen then s.f * s.c - 64 else 0

/-- The number of set bits of a word. -/
def onesOf {w : Nat} (x : BitVec w) : Nat := (List.range w).countP fun k => x.getLsbD k

/-- The value of monitor `mon` at index `idx`. -/
def monAt (s : State) (mon idx : Nat) : Int :=
  if mon = 1 then ((s.reg (Reg.SUP_TEMP idx)).extractLsb' 0 12).toInt / 4
  else if mon = 3 then (if basinLimit s = 0 then 0 else (vget s.basin idx BasinEngine.zero).busyMax.toNat * 100 / basinLimit s : Nat)
  else if mon = 7 then (mpllState s : Nat)
  else if mon = 9 then (((List.range 4).map fun k => onesOf (s.reg (Reg.PDM_STUCK k))).sum : Nat)
  else if mon = 10 then
    ((if idx = kindLane then ((List.range 8).map fun i => sparesLeft s kindLane i).sum
      else if idx = kindTether then sparesLeft s kindTether 0 + sparesLeft s kindTether 1 else sparesLeft s idx 0 : Nat) : Int)
  else if mon = 11 then (if s.tick.entered then s.tick.mode.toNat else 3 : Nat)
  else (secondCount s mon idx : Nat)

/-- The monitor value a rule sees: INDEX 0xFF is the maximum of TEMP and BASIN_LOAD and the sum of the others. -/
def monValue (s : State) (mon idx : Nat) : Int :=
  if idx = 255 then
    let l := (List.range (monSize mon)).map (monAt s mon)
    if mon = 1 ∨ mon = 3 then l.foldl max (l.headD 0) else l.sum
  else monAt s mon idx

/-! ### The policy table (R442 to R444) -/

/-- Whether an enabled rule's ARG lies in Table 19-4. -/
def ruleArgOk (action arg : Nat) : Bool :=
  if action = 1 then decide (arg % 256 ≤ 16)
  else if action = 2 then decide (arg ≤ 48)
  else if action = 3 then isRunMode (BitVec.ofNat 3 arg) && decide (arg / 32 = 0) && decide (arg / 8 % 2 = 0)
  else true

/-- A rule from its 16 bytes. -/
def ruleOf (b : List Byte) : Rule :=
  let n := fun o k => leVal ((b.drop o).take k)
  { mon := n 0 2, index := n 2 1, cmp := n 3 1 % 8, sticky := decide (n 3 1 / 64 % 2 = 1), en := decide (128 ≤ n 3 1),
    thresh := (BitVec.ofNat 32 (n 4 4)).toInt, hold := n 8 2, rel := n 10 2, action := n 12 1, arg := n 14 2 }

/-- The byte offset of the first bad field of a rule. -/
def ruleBad (b : List Byte) : Option Nat :=
  let r := ruleOf b
  let at_ := fun o => (b.getD o 0#8).toNat
  if r.en && decide (monSize r.mon = 0) then some 0
  else if r.en && !(decide (r.index < monSize r.mon) || (decide (r.index = 255) && monHasAll r.mon)) then some 2
  else if at_ 3 / 8 % 8 ≠ 0 ∨ (r.en = true ∧ 6 ≤ r.cmp) then some 3
  else if r.en && decide (5 < r.action) then some 12
  else if at_ 13 ≠ 0 then some 13
  else if r.en && !ruleArgOk r.action r.arg then some 14
  else none

/-- The bytes of rule `k` of a table. -/
def ruleBytes (t : List Byte) (k : Nat) : List Byte := (List.range 16).map fun i => t.getD (16 + 16 * k + i) 0#8

/-- COUNT of a table. -/
def policyCount (t : List Byte) : Nat := leVal ((t.drop 6).take 1)

/-- The byte offset of the first bad field of a table (R444); `none` for a table that is accepted. -/
def policyBad (t : List Byte) : Option Nat :=
  let n := fun o k => leVal ((t.drop o).take k)
  let rules := List.range (policyCount t)
  if n 0 4 ≠ 0x504F4C31 then some 0
  else if n 4 2 ≠ 1 then some 4
  else if 32 < policyCount t ∨ t.length ≠ 16 + 16 * policyCount t then some 6
  else if 1 < n 7 1 then some 7
  else if n 10 1 / 8 % 2 ≠ 0 ∨ n 10 1 / 32 % 4 ≠ 0 then some 10
  else if n 11 1 ≠ 0 then some 11
  else if n 12 4 ≠ (crc32c (t.drop 16)).toNat then some 12
  else rules.findSome? fun k => (ruleBad (ruleBytes t k)).map fun o => 16 + 16 * k + o

/-- The policy that an accepted table holds. PERIOD_MS 0 means 10; a value above 1,000 acts as 1,000. -/
def policyOf (t : List Byte) (persist : Bool) : Policy :=
  let p := leVal ((t.drop 8).take 2)
  { rules := (List.range (policyCount t)).map fun k => ruleOf (ruleBytes t k), period := if p = 0 then 10 else min 1000 p, persist := persist }

/-- POLICY_LOAD (R444): the offset of the first bad field, and the state. An accepted table waits for the next evaluation, and with
PERSIST the journal holds it. -/
def policyLoad (s : State) (t : List Byte) : Option Nat × State :=
  match policyBad t with
  | some o => (some o, s)
  | none =>
    let count := policyCount t
    let persist := decide (leVal ((t.drop 7).take 1) = 1)
    let s1 := if persist then (if count = 0 then journalClear s else journalPolicy s t) else s
    let p := policyOf t (persist && decide (count ≠ 0))
    let s2 := { s1 with sup := { s1.sup with next := some p } }
    (none, (supReport s2 0 1 0 0 count 0).event 0x10 3 count (if persist then 1 else 0) p.period 0)

/-- The mode and family that a stored table's START_MODE names; without VALID the default of Table 02-6a. A code or family that no
mode has also names the default (DESIGN CHOICE, log entry 78: R444 does not reject such a table). -/
def startMode (t : List Byte) : BitVec 3 × Bool :=
  let b := t.getD 10 0#8
  let m := b.extractLsb' 0 3
  if b.getLsbD 7 && isRunMode m && !(decide (m = modeListen) && b.getLsbD 4) then (m, b.getLsbD 4) else (4#3, false)

/-- At the start, before the first mode, the stored policy is loaded: it is the table in force from then on. The first mode is named by
its START_MODE, or is CONFERENCE in the 48 kHz family (R30, R36, R463). -/
def policyStart (s : State) : State :=
  match storedPolicy s with
  | some (_, t) =>
    let p := policyOf t true
    ({ s with sup := { s.sup with
        rules := p.rules, states := p.rules.map fun _ => .armed, period := p.period, named := some (startMode t) } }.setFld
      Reg.SUP_STATE 0 6 p.rules.length).setBit Reg.SUP_STATE 14 true
  | none => { s with sup := { s.sup with named := some (4#3, false) } }

/-! ### Caps (R446, R449) -/

/-- The rules in force with their states. -/
def ruleStates (s : State) : List (Rule × RuleState) := s.sup.rules.zip s.sup.states

/-- Whether a state is FIRED. -/
def isFired (x : RuleState) : Bool := match x with
  | .fired _ => true
  | _ => false

/-- Whether a SHED rule's mask covers engine `be`: a mask of 0 means all. -/
def shedCovers (r : Rule) (be : Nat) : Bool := decide (r.arg / 256 % 256 = 0) || (BitVec.ofNat 8 (r.arg / 256)).getLsbD be

/-- The shedding level of engine `be` and the beam count that the fired rules give. -/
def shedCap (s : State) (be : Nat) : Nat :=
  (ruleStates s).foldl (fun n x => if x.1.en && isFired x.2 && decide (x.1.action = 1) && shedCovers x.1 be then min n (x.1.arg % 32) else n) 16
def beamCap (s : State) : Nat :=
  (ruleStates s).foldl (fun n x => if x.1.en && isFired x.2 && decide (x.1.action = 2) then min n (x.1.arg % 64) else n) 48

/-- The word of beam `j`'s EN bit in a copy of engine `be`'s parameter store (Table 08-7), and its word-space address in unit `n`. -/
def beamWord (s : State) (be j : Nat) : Nat := (s.fld (Reg.SUP_PBLK be) 0 13 + 16 + j) % 8192
def beamAddr (s : State) (be n j : Nat) : Nat := 0xC90000 + n * 0x60000 + beamWord s be j

/-- The beam EN bits of engine `be`'s active copy: an uncorrectable word reads as zero (R148). -/
def beamBits (s : State) (be : Nat) : BitVec 6 :=
  let e := vget s.basin be BasinEngine.zero
  BitVec.ofNat 6 ((List.range 6).foldl (fun n j =>
    if (eccWord (s.mark (beamAddr s be be j)) (Cells.get e.stA (beamWord s be j))).getLsbD 35 then n + 2 ^ j else n) 0)

/-- The ECC events of a read of engine `be`'s beam words, of the active copy or, with `key`, of the shadow. -/
def beamEvents (s : State) (be key : Nat) : State :=
  s.eccEvents (basinSite be) ((List.range 6).map fun j => (s.mark (key + beamAddr s be be j), beamWord s be j + 2 * 2 ^ 18))

/-- Write the EN bits `b` into engine `be`'s shadow, word by word: the words written have fresh ECC. -/
def putBeams (s : State) (be : Nat) (b : BitVec 6) : State :=
  let old := fun (m : Cells Word) (j : Nat) => eccWord (s.mark (shadowKey + beamAddr s be be j)) (Cells.get m (beamWord s be j))
  let put := fun (m : Cells Word) (j : Nat) => Cells.set m (beamWord s be j)
    (if b.getLsbD j then old m j ||| BitVec.ofNat 36 (2 ^ 35) else old m j &&& ~~~(BitVec.ofNat 36 (2 ^ 35)))
  let st := (List.range 6).foldl put (vget s.basin be BasinEngine.zero).stS
  let copy := fun (m : Cells Word) => (List.range 6).foldl (fun m j => Cells.set m (beamWord s be j) (Cells.get st (beamWord s be j))) m
  let t := onBasin (beamEvents s be shadowKey) be fun e => { e with stS := copy e.stS }
  let written := (List.range 6).flatMap fun j => beamAddr s be be j :: (if bexShadows s be then [beamAddr s be 8 j] else [])
  { t with ecc := written.foldl (fun m a => Cells.set m (shadowKey + a) 0#2) t.ecc }

/-- The engines whose beams the cap acts on. -/
def beamEngines (s : State) : List Nat := (List.range 8).filter fun be => s.bit (Reg.SUP_PBLK be) 31

/-- Note the graph's bits of engine `be`: those in force, unless they are the ones the supervisor committed. -/
def noteBeams (s : State) (be : Nat) : State :=
  let x := vget s.sup.beams be ⟨0#6, none⟩
  let now := beamBits s be
  let t := beamEvents s be 0
  if stageBusy s (16 + be) || decide (x.wrote = some now) then t
  else { t with sup := { t.sup with beams := vset t.sup.beams be ⟨now, none⟩ } }

/-- The beams that stay enabled, per engine: the first `cap` of those the graph enables, in global beam order. -/
def beamsKept (s : State) (cap : Nat) : List (Nat × BitVec 6) :=
  ((beamEngines s).foldl (fun (r : Nat × List (Nat × BitVec 6)) be =>
    let g := (vget s.sup.beams be ⟨0#6, none⟩).graph
    let k := (List.range 6).foldl (fun (q : Nat × Nat) j => if g.getLsbD j && decide (q.1 < cap) then (q.1 + 1, q.2 + 2 ^ j) else q) (r.1, 0)
    (k.1, r.2 ++ [(be, BitVec.ofNat 6 k.2)])) (0, [])).2

/-- Commit the beam bits of one engine where they differ from those in force; a busy set is left for the next evaluation. -/
def commitBeams (s : State) (x : Nat × BitVec 6) : State :=
  if stageBusy s (16 + x.1) || decide (beamBits s x.1 = x.2) then s
  else
    let s1 := commitCommand (putBeams s x.1 x.2) (16 + x.1) 0#4
    if (setAt s1 (16 + x.1)).committed then
      { s1 with sup := { s1.sup with beams := vmod s1.sup.beams x.1 fun b => { b with wrote := some x.2 } } }
    else s1

/-- Bring the beam cap into force (R449). -/
def beamsApply (s : State) : State :=
  let cap := s.fld Reg.SUP_STATE 8 6
  let s1 := (beamEngines s).foldl noteBeams s
  (beamsKept s1 cap).foldl commitBeams s1

/-- CAP_APPLY: the shedding levels that changed are written, and the beam cap is brought into force (R446). -/
def capsApply (s : State) : State :=
  let s1 := (List.range 8).foldl (fun t be =>
    let n := shedCap t be
    if n = vget t.sup.levels be 16 then t
    else { t.setFld (Reg.BASIN_SHED be) 0 5 n with sup := { t.sup with levels := vset t.sup.levels be n } }) s
  beamsApply (s1.setFld Reg.SUP_STATE 8 6 (beamCap s1))

/-! ### Evaluation (R445 to R447) -/

/-- Whether a rule's condition holds. -/
def ruleHolds (s : State) (r : Rule) : Bool :=
  let v := monValue s r.mon r.index
  match r.cmp with
  | 0 => decide (r.thresh < v)
  | 1 => decide (r.thresh ≤ v)
  | 2 => decide (v < r.thresh)
  | 3 => decide (v ≤ r.thresh)
  | 4 => decide (v = r.thresh)
  | _ => decide (v ≠ r.thresh)

/-- Whether a rule that has just fired leaves every cap of its action as it stands: its own bound is no lower. -/
def capStays (s : State) (r : Rule) : Bool :=
  if r.action = 1 then ((List.range 8).filter (shedCovers r)).all fun be => decide (shedCap s be = vget s.sup.levels be 16)
  else decide (beamCap s = s.fld Reg.SUP_STATE 8 6)

/-- The result of a rule's action, as RULE_FIRED reports it, before it is made. A cap that stays as it is has no effect (DEDUCED, log entry
122). -/
def fireResult (s : State) (r : Rule) : Nat :=
  if r.action = 1 ∨ r.action = 2 then (if capStays s r then 3 else if s.bit Reg.SUP_STATE 15 then 1 else 0)
  else if r.action = 3 then (if modeReason s (BitVec.ofNat 3 r.arg) (decide (r.arg / 16 % 2 = 1)) 0#4 = 0 then 0 else 2)
  else if r.action = 4 ∨ r.action = 5 then (if modeRuns s then 0 else 2)
  else 0

/-- Record a rule's decision and make its one-time action (R447, R450). -/
def ruleFire (s : State) (k : Nat) (r : Rule) : State :=
  let res := fireResult s r
  let s1 := (supReport s k 0 r.action res r.arg 0).event 0x10 1 k r.action r.arg res
  if r.action = 3 then (modeRequest s1 1 k (BitVec.ofNat 3 r.arg) (decide (r.arg / 16 % 2 = 1)) 0#4).2
  else if r.action = 4 then (modeRequest s1 1 k 1#3 false 0#4).2
  else if r.action = 5 then (modeRequest s1 1 k 3#3 false 0#4).2
  else s1

/-- The cap in force after a rule's release: the lowest level of the engines it covers, or the beam count. While MODE_BUSY is 1 the caps are
held (R446). -/
def capNow (s : State) (r : Rule) : Nat :=
  let held := s.bit Reg.SUP_STATE 15
  if r.action = 1 then
    (((List.range 8).filter (shedCovers r)).map fun be => if held then vget s.sup.levels be 16 else shedCap s be).foldl min 16
  else if r.action = 2 then (if held then s.fld Reg.SUP_STATE 8 6 else beamCap s)
  else 0

/-- Set the state of rule `k`. -/
def setRule (s : State) (k : Nat) (x : RuleState) : State :=
  let s1 := { s with sup := { s.sup with states := s.sup.states.set k x } }
  s1.setBit Reg.SUP_FIRED k (isFired x)

/-- A rule is due to fire: it fires, unless an earlier rule's mode action was taken in this evaluation and it is one itself; a SAFE
rule always fires. The first component says that a mode action was taken. -/
def ruleDue (taken : Bool) (s : State) (k : Nat) (r : Rule) (ms : Nat) : Bool × State :=
  let modal := decide (3 ≤ r.action)
  if modal && taken && decide (r.action ≠ 5) then (taken, setRule s k (.holding ms))
  else (taken || modal, ruleFire (setRule s k (.fired none)) k r)

/-- One rule in one evaluation (R445). -/
def ruleStep (q : Bool × State) (k : Nat) : Bool × State :=
  let s := q.2
  match s.sup.rules[k]?, s.sup.states[k]? with
  | some r, some x =>
    if !r.en || decide (s.power.phase ≠ .running) then q
    else
      let c := ruleHolds s r
      match x with
      | .armed => if c then (if r.hold = 0 then ruleDue q.1 s k r 0 else (q.1, setRule s k (.holding 0))) else q
      | .holding ms =>
        if c then (if r.hold ≤ ms + s.sup.period then ruleDue q.1 s k r (ms + s.sup.period) else (q.1, setRule s k (.holding (ms + s.sup.period))))
        else (q.1, setRule s k .armed)
      | .fired quiet =>
        if c || r.sticky then (q.1, setRule s k (.fired none))
        else
          let ms := match quiet with
            | none => 0
            | some n => n + s.sup.period
          if r.rel ≤ ms then
            let s1 := setRule s k .armed
            (q.1, (supReport s1 k 0 r.action 0 r.arg 0).event 0x10 2 k r.action (capNow s1 r) 0)
          else (q.1, setRule s k (.fired (some ms)))
  | _, _ => q

/-- A waiting table takes the place of the one in force, its rules ARMED (R444). -/
def takePolicy (s : State) : State :=
  match s.sup.next with
  | some p =>
    let s1 := { s with sup := { s.sup with rules := p.rules, states := p.rules.map fun _ => .armed, period := p.period, next := none } }
    ((s1.setFld Reg.SUP_STATE 0 6 p.rules.length).setBit Reg.SUP_STATE 14 p.persist).setReg Reg.SUP_FIRED 0#32
  | none => s

/-- The evaluations that lie within the last second, the newest among them at all events. -/
def lastSecond (l : List (Nat × Cells Nat)) : List (Nat × Cells Nat) :=
  (l.foldl (fun (r : Nat × List (Nat × Cells Nat)) x =>
    if r.2.isEmpty || decide (r.1 + x.1 ≤ 1000) then (r.1 + x.1, r.2 ++ [x]) else (1001, r.2)) (0, [])).2

/-- An evaluation period starts: what it will count stands at nothing. -/
def periodStart (s : State) : State :=
  let regs := (List.range 8).map (Reg.BASIN_MISS ·) ++ (List.range 17).map (Reg.RILL_ECC ·) ++ (List.range 9).map (Reg.BASIN_ECC ·)
    ++ [Reg.MEM_ECC, Reg.RB_ECC, Reg.FABRIC_ECC, Reg.CASCADE_ECC]
  { s with sup := { s.sup with seen := regs.foldl (fun m a => Cells.set m a (s.reg a)) s.sup.seen, gov := [], droops := [] } }

/-- The samples of one evaluation: the temperatures, and the counts of the period that ends. -/
def samplePeriod (s : State) (temps : List (BitVec 12)) : State :=
  let s1 := temps.zipIdx.foldl (fun t x => if x.2 < 4 then t.setReg (Reg.SUP_TEMP x.2) (x.1.zeroExtend 32) else t) s
  periodStart { s1 with sup := { s1.sup with recent := lastSecond ((s1.sup.period, periodCounts s1) :: s1.sup.recent) } }

/-- A write of SUP_CTRL: evaluation that starts anew has no periods behind it, and its first one starts here (R441). -/
def supCtrlWrite (s : State) (v : BitVec 32) : State :=
  let s1 := s.setReg Reg.SUP_CTRL (v &&& 1#32)
  if v.getLsbD 0 && !s.bit Reg.SUP_CTRL 0 then periodStart { s1 with sup := { s1.sup with recent := [] } } else s1

/-- POLICY_EVALUATION: the period has passed (R445 to R447, R449). The samples are of the period that ends, whose length the table in force
gave; a table that waits then takes its place. -/
def evaluate (s : State) (temps : List (BitVec 12)) : State :=
  if s.bit Reg.SUP_CTRL 0 && decide (s.power.phase = .running) && !inSafe s then
    let s1 := takePolicy (samplePeriod s temps)
    let s2 := ((List.range s1.sup.rules.length).foldl ruleStep (false, s1)).2
    if s2.power.phase ≠ .running then s2
    else
      let s3 := { s2 with basin := s2.basin.map fun (e : BasinEngine) => { e with busyMax := 0#24 } }
      if s3.bit Reg.SUP_STATE 15 then { s3 with sup := { s3.sup with late := true } } else capsApply s3
  else s

/-- The supervisor's work at a frame tick: guard-overflow frame ticks are counted, and caps that waited for a mode change to complete
are applied (R441, R446). -/
def supFrame (s : State) : State :=
  let flags := (s.rill.toList.take 16).map RillEngine.govFrame ++ (s.basin.toList.take 8).map BasinEngine.govFrame
    ++ [s.fabric.govFrame, s.cascade.govFrame]
  let gov := flags.zipIdx.foldl (fun m x =>
    if x.1 then Cells.write (fun _ => 0) m x.2 (Cells.read (fun _ => 0) m x.2 + 1) else m) s.sup.gov
  let s1 := { s with
    sup := { s.sup with gov := gov },
    rill := s.rill.map fun (e : RillEngine) => { e with govFrame := false }, basin := s.basin.map fun (e : BasinEngine) => { e with govFrame := false },
    fabric := { s.fabric with govFrame := false }, cascade := { s.cascade with govFrame := false } }
  if s1.sup.late && !s1.bit Reg.SUP_STATE 15 then capsApply { s1 with sup := { s1.sup with late := false } } else s1

/-- A droop of rail `r` (R482). -/
def railDroop (s : State) (r : Nat) : State :=
  let s1 := (s.raise Reg.SUP_RAIL (BitVec.ofNat 32 (2 ^ r))).count Reg.SUP_RAIL_CNT 0 32 1
  { s1 with sup := { s1.sup with droops := Cells.write (fun _ => 0) s1.sup.droops r (Cells.read (fun _ => 0) s1.sup.droops r + 1) } }

/-! ### The commands -/

/-- POLICY_EVALUATION (R445): `temps` are the sensors' readings. -/
def execPolicyEvaluation (temps : List (BitVec 12)) (s : State) : Out := done (evaluate s temps)

/-- RAIL_DROOP (R482). -/
def execRailDroop (r : Fin 5) (s : State) : Out := done (railDroop s r.val)

end Sys2Proof.Machine
end

