-- ==== Sys2Proof/Machine/Farrier.lean ====
section
/-! DEFINITION. The farrier: shadow rotation, comparison, BIST outcomes, lanes, bank migration and start-time retirement
(chapter 19, R451 to R460, R463). Engines are kept by logical role, which a takeover leaves unchanged (R19); `FAR_ROLE` records
the physical unit. -/
namespace Sys2Proof.Machine

/-! ### Shadows (R452 to R454) -/

/-- What differs between the rill and the basin farrier: the kind, the FAR_CTRL enable, the FAR_STATUS parked bit, the FAR_TARGET
fields of the role and the phase, the first FAR_ROLE index and that of the spare, the number of roles, and the retired register. -/
structure FarKind where
  kind : Nat
  parked : Nat
  roleLo : Nat
  roleW : Nat
  phaseLo : Nat
  base : Nat
  spare : Nat
  roles : Nat
  retired : Nat
  deriving DecidableEq, Repr

/-- The rill farrier and the basin farrier. -/
def farRill : FarKind := ⟨0, 8, 0, 4, 4, 0, 16, 16, Reg.FAR_RETIRED_R⟩
def farBasin : FarKind := ⟨1, 9, 8, 3, 12, 17, 25, 8, Reg.FAR_RETIRED_B⟩
def farOf (basin : Bool) : FarKind := if basin then farBasin else farRill

/-- The role under check, the shadow's phase (0 idle, 1 copy, 2 lockstep, 3 BIST), and the physical unit of role index `k`. -/
def farRole (s : State) (x : FarKind) : Nat := s.fld Reg.FAR_TARGET x.roleLo x.roleW
def farPhase (s : State) (x : FarKind) : Nat := s.fld Reg.FAR_TARGET x.phaseLo 2
def farPhys (s : State) (k : Nat) : Nat := s.fld (Reg.FAR_ROLE k) 0 5

/-- Whether the kind's spare is available. -/
def farSpare (s : State) (x : FarKind) : Bool := decide (0 < sparesLeft s x.kind 0)

/-- RUN in force of role `r`. -/
def farRun (s : State) (x : FarKind) (r : Nat) : Bool :=
  if x.kind = 0 then (vget s.rill r RillEngine.zero).runA else (vget s.basin r BasinEngine.zero).runA

/-- Note whether the memories of a role under shadow are copied. -/
def setMem (s : State) (x : FarKind) (b : Bool) : State :=
  { s with far := if x.kind = 0 then { s.far with rillMem := b } else { s.far with basinMem := b } }

/-- Note whether the shadow is ready for lockstep. -/
def setCopied (s : State) (x : FarKind) (b : Bool) : State :=
  { s with far := if x.kind = 0 then { s.far with rillCopied := b } else { s.far with basinCopied := b } }
def farCopied (s : State) (x : FarKind) : Bool := if x.kind = 0 then s.far.rillCopied else s.far.basinCopied

/-- Whether the role in FAR_TARGET has had its turn in the rotation (R452). -/
def farTurn (s : State) (x : FarKind) : Bool := if x.kind = 0 then s.far.rillTurn else s.far.basinTurn

/-- The outcome of a BIST that waits for a frame tick. One that is known only after a deadline point does not act at its frame tick
(R455). -/
def setMove (s : State) (x : FarKind) (m : Option Bool) : State :=
  let late := m.isSome && s.tick.gateSeen.isSome
  { s with far := if x.kind = 0 then { s.far with rillMove := m, rillLate := late } else { s.far with basinMove := m, basinLate := late } }
def farLate (s : State) (x : FarKind) : Bool := if x.kind = 0 then s.far.rillLate else s.far.basinLate
def farMove (s : State) (x : FarKind) : Option Bool := if x.kind = 0 then s.far.rillMove else s.far.basinMove

/-- The spare runs nothing: its RUN in force is 0, and REX's output window is zero (R90). -/
def spareIdle (s : State) (x : FarKind) : State :=
  if x.kind = 0 then { s with rill := vmod s.rill 16 fun e => { e with runA := false, outw := [] } }
  else { s with basin := vmod s.basin 8 fun e => { e with runA := false } }

/-- The spare is parked. Its RUN in force becomes 0, and the rest of its selection stays (DESIGN CHOICE, log entry 107: R108 does not say
what parking does to it). -/
def farPark (s : State) (x : FarKind) : State :=
  setCopied ((spareIdle s x).setFld Reg.FAR_TARGET x.phaseLo 2 0 |>.setBit Reg.FAR_STATUS x.parked true) x false

/-- A shadow of role `r` starts with its copy phase; without a spare its role's unit is put through BIST instead (R459). -/
def farStart (s : State) (x : FarKind) (r : Nat) : State :=
  let s0 := { s with far := if x.kind = 0 then { s.far with rillTurn := true } else { s.far with basinTurn := true } }
  let s1 := setMem (setCopied (s0.setFld Reg.FAR_TARGET x.roleLo x.roleW r) x false) x false
  if farSpare s x then (s1.setFld Reg.FAR_TARGET x.phaseLo 2 1).setBit Reg.FAR_STATUS x.parked false
  else s1.setFld Reg.FAR_TARGET x.phaseLo 2 3

/-- A SKIPPED record: cause 1 never idle, 2 RUN 0, 3 mode. -/
def farSkip (s : State) (x : FarKind) (cause : Nat) : State :=
  ((farPark s x).raise Reg.FAR_STATUS 0x40#32).event 0x11 7 x.kind (farRole s x) cause 0

/-- The next role to check: the first at or after `from_` whose RUN in force is 1. -/
def farNext (s : State) (x : FarKind) (from_ : Nat) : Option Nat :=
  ((List.range x.roles).map fun i => (from_ + i) % x.roles).find? fun r => farRun s x r && !roleLost s (x.base + r)

/-- SHADOW_ROTATE (R452): FAR_PERIOD has passed in lockstep, or no role is shadowed. -/
def shadowRotate (s : State) (x : FarKind) : State :=
  let ph := farPhase s x
  if !s.bit Reg.FAR_CTRL x.kind || !s.tick.entered || s.listen || acquiring s || decide (ph = 1) || decide (ph = 3) then s
  else if s.bit Reg.FAR_CTRL 4 then farPark s x
  else
    match farNext s x (if farTurn s x then farRole s x + 1 else farRole s x) with
    | some r => farStart s x r
    | none => farPark s x

/-- The words of a memory as the farrier copies them: an uncorrectable word is copied as zero. -/
def copiedWords {α : Type} (s : State) (base per : Nat) (m : Cells α) : Cells α :=
  Cells.keep (fun k => (List.range per).all fun i => decide (s.mark (base + per * k + i) ≠ 2#2)) m

/-- The staged registers of unit `n` of a kind (a spare included), with their staged fields (R87, R145). -/
def stagedRegs (x : FarKind) (n : Nat) : List (Nat × BitVec 32) :=
  if x.kind = 0 then [(Reg.RILL_CTRL n, 1#32), (Reg.RILL_PROG n, 0x3FFFF#32), (Reg.RILL_NOISE_SEED n, 0xFFFFFFFF#32), (Reg.RILL_LUT_CFG n, 15#32)]
  else [(Reg.BASIN_CTRL n, 5#32), (Reg.BASIN_NOISE_SEED n, 0xFFFFFFFF#32)]

/-- Copy the staged registers of role `r` into the spare's. -/
def copyStagedRegs (s : State) (x : FarKind) (r : Nat) : State :=
  ((stagedRegs x r).zip (stagedRegs x x.roles)).foldl (fun t p =>
    t.setReg p.2.1 ((t.reg p.2.1 &&& ~~~p.2.2) ||| (t.reg p.1.1 &&& p.1.2))) s

/-- REX with the memories of role `r` as they are copied (R453), word by word; its registers and output window stay. -/
def rillCopy (s : State) (r : Nat) : RillEngine :=
  let e := vget s.rill r RillEngine.zero
  let w := rillWin r
  { vget s.rill 16 RillEngine.zero with
    cistern := copiedWords s w 1 e.cistern, prog := copiedWords s (w + 0x20000) 2 e.prog, stA := copiedWords s (w + 0x38000) 1 e.stA,
    stS := copiedWords s (shadowKey + w + 0x38000) 1 e.stS }

/-- Basin engine `o` with the memories of role `r` as they are copied (R454). -/
def basinCopy (s : State) (r : Nat) (o : BasinEngine) : BasinEngine :=
  let e := vget s.basin r BasinEngine.zero
  let w := basinWin r
  { o with
    ls := copiedWords s w 1 e.ls, code := copiedWords s (w + 0x40000) 1 e.code, stA := copiedWords s (w + 0x50000) 1 e.stA,
    stS := copiedWords s (shadowKey + w + 0x50000) 1 e.stS }

/-- The ECC marks of the `n` words from `a`, and of the shadow words above them, are cleared: the words are stored anew. -/
def freshWindow (s : State) (a n : Nat) : State :=
  { s with ecc := Cells.keep (fun k => !(decide (a ≤ k) && decide (k < a + n)) &&
      !(decide (shadowKey + a ≤ k) && decide (k < shadowKey + a + n))) s.ecc }

/-- RILL_ERRADDR's location of the word at offset `o` of a rill window, and BASIN_ERRADDR's of a basin window. -/
def rillLocAt (o : Nat) : Nat :=
  if o < 0x20000 then rillLoc 0 o else if o < 0x38000 then rillLoc 1 ((o - 0x20000) / 2) else rillLoc 2 (o - 0x38000)
def basinLocAt (o : Nat) : Nat :=
  if o < 0x40000 then o else if o < 0x50000 then (o - 0x40000) + 2 ^ 18
  else if o < 0x52000 then (o - 0x50000) + 2 * 2 ^ 18 else (o - 0x52000) + 3 * 2 ^ 18

/-- The ECC events that reading every word of the `n` words from `a`, and of the shadow words above them, meets (R104, R148). -/
def windowEvents (s : State) (site : EccSite) (a n : Nat) (loc : Nat → Nat) : State :=
  (s.ecc.filter fun e => (decide (a ≤ e.1) && decide (e.1 < a + n))
    || (decide (shadowKey + a ≤ e.1) && decide (e.1 < shadowKey + a + n))).foldl (fun t e =>
      t.eccEvent site e.2 (loc (if shadowKey ≤ e.1 then e.1 - shadowKey - a else e.1 - a))) s

/-- The farrier's copy of every memory and of both copies of the staged set of role `r` into the spare, whose words have fresh ECC. -/
def copyMemories (s : State) (x : FarKind) (r : Nat) : State :=
  let t :=
    if x.kind = 0 then
      freshWindow { windowEvents s (rillSite r) (rillWin r) 0x40000 rillLocAt with rill := vset s.rill 16 (rillCopy s r) } (rillWin 16) 0x40000
    else
      freshWindow { windowEvents s (basinSite r) (basinWin r) 0x60000 basinLocAt with
        basin := vset s.basin 8 (basinCopy s r (vget s.basin 8 BasinEngine.zero)) } (basinWin 8) 0x60000
  copyStagedRegs t x r

/-- SHADOW_COPY_END (R453, R454): every memory is copied, once, and from then on writes are repeated. The shadow is then ready for
lockstep, in which its registers too take the target's values; a basin target must be idle for that. -/
def shadowCopyEnd (s : State) (x : FarKind) : State :=
  if farPhase s x = 1 then
    let s1 := if (if x.kind = 0 then s.far.rillMem else s.far.basinMem) then s else setMem (copyMemories s x (farRole s x)) x true
    if x.kind = 0 ∨ basinIdle s (farRole s x) = true then setCopied s1 x true else s1
  else s

/-- SKIPPED (R454): the basin target was never idle for one FAR_PERIOD. -/
def basinSkipped (s : State) : State := if farPhase s farBasin = 1 ∧ farCopied s farBasin = false then farSkip s farBasin 1 else s

/-- The target's registers and output window on the spare's copied memories, as lockstep starts (R453, R454). -/
def lockstepStart (s : State) (x : FarKind) : State :=
  let r := farRole s x
  let s1 :=
    if x.kind = 0 then
      let e := vget s.rill 16 RillEngine.zero
      { s with rill := vset s.rill 16 { vget s.rill r RillEngine.zero with cistern := e.cistern, prog := e.prog, stA := e.stA, stS := e.stS } }
    else
      let e := vget s.basin 8 BasinEngine.zero
      { s with basin := vset s.basin 8 { vget s.basin r BasinEngine.zero with ls := e.ls, code := e.code, stA := e.stA, stS := e.stS, sig := [] } }
  setCopied (s1.setFld Reg.FAR_TARGET x.phaseLo 2 2) x false

/-! ### Mismatch and BIST (R455, R459) -/

/-- A mismatch in lockstep: comparison stops and BIST starts on both engines. `what` is the interval or the entry. -/
def farMismatch (s : State) (x : FarKind) (what : Nat) : State :=
  let r := farRole s x
  let s1 := ((s.raise Reg.FAR_STATUS 1#32).count Reg.FAR_COUNTS 0 16 1).setFld Reg.FAR_TARGET x.phaseLo 2 3
  s1.event 0x11 1 x.kind r (farPhys s (x.base + r)) what

/-- A difference that a comparison finds: in lockstep it is a mismatch, and during BIST it is counted only (Table 19-8). -/
def farDiffer (s : State) (x : FarKind) (what : Nat) : State :=
  if farPhase s x = 2 then farMismatch s x what
  else if farPhase s x = 3 ∧ farSpare s x = true ∧ farMove s x = none then s.count Reg.FAR_COUNTS 0 16 1
  else s

/-- FARRIER_COMPARE (R453): REX's 256 output words against the target's, at B - 48. -/
def farCompare (s : State) : State :=
  if (vget s.rill (farRole s farRill) RillEngine.zero).outw ≠ (vget s.rill 16 RillEngine.zero).outw then
    farDiffer s farRill (s.tick.sampleCnt.toNat % 2 ^ 32)
  else s

/-- The signature of entry `i` in engine `n`: the frame DMA writes it made, in order (R454). -/
def entrySig (s : State) (n i : Nat) : List (Nat × Nat × Word) :=
  (vget s.basin n BasinEngine.zero).sig.filter fun x => decide (x.1 = i)

/-- BASIN_SIGNATURE_COMPARE (R454): both engines have completed entry `i`. -/
def sigCompare (s : State) (i : Nat) : State :=
  if entryStatus s (farRole s farBasin) i = .completed ∧ entryStatus s 8 i = .completed ∧
      entrySig s (farRole s farBasin) i ≠ entrySig s 8 i then
    farDiffer s farBasin i
  else s

/-- Set the retired bit of physical unit `p`. -/
def farRetire (s : State) (x : FarKind) (p logical : Nat) : State :=
  retireUnit (s.raise x.retired (BitVec.ofNat 32 (2 ^ p))) x.kind p logical 1 0

/-- Retire a unit that is not the spare when no spare is left to count. -/
def farRetireActive (s : State) (x : FarKind) (p logical : Nat) : State :=
  journalRetire (retiredRecord (s.raise x.retired (BitVec.ofNat 32 (2 ^ p))) x.kind p 1) x.kind p logical 1

/-- The record of a BIST of unit `a` and spare `b` of a kind: FAR_BIST, BIST_FAIL and the event. -/
def bistNote (s : State) (kind a b : Nat) (act spare : Bool) : State :=
  let bits := (if act then 1 else 0) + if spare then 2 else 0
  ((s.setReg Reg.FAR_BIST (BitVec.ofNat 32 (kind + a * 16 + bits * 65536))).raiseIf (!act || !spare) Reg.FAR_STATUS 2#32).event
    0x11 2 kind a b bits

/-- The record of a BIST of the role under check (R455). -/
def bistRecord (s : State) (x : FarKind) (act spare : Bool) : State :=
  bistNote s x.kind (farPhys s (x.base + farRole s x)) (farPhys s x.spare) act spare

/-- BIST_END (R455, Table 19-7a; R459 without a spare): `act` and `spare` say which engine passed. -/
def bistEnd (s : State) (x : FarKind) (act spare : Bool) : State :=
  if farPhase s x ≠ 3 ∨ (farMove s x).isSome = true then s
  else
    let r := farRole s x
    if farSpare s x then
      let s1 := bistRecord s x act spare
      match act, spare with
      | false, true => setMove s1 x (some true)
      | true, false => farPark (farRetire s1 x (farPhys s x.spare) x.roles) x
      | false, false => setMove (farRetire s1 x (farPhys s x.spare) x.roles) x (some false)
      | true, true =>
        farStart ((s1.count Reg.FAR_COUNTS 16 16 1).event 0x11 8 x.kind r (farPhys s (x.base + r)) (farPhys s x.spare)) x r
    else
      let s1 := bistRecord s x act true
      if act then farPark s1 x else setMove s1 x (some false)

/-- Both copies' ECC marks of the `n` words from `a` become those of the `n` words from `b`. -/
def moveWindow (s : State) (a b n : Nat) : State := moveMarks (moveMarks s a b n true) (shadowKey + a) (shadowKey + b) n true

/-- Rill role `r` on REX, which has run in step with it: REX's memories and registers, with their ECC, and the role's own count. -/
def rillTakes (s : State) (r : Nat) : State :=
  let e := { vget s.rill 16 RillEngine.zero with govFrame := (vget s.rill r RillEngine.zero).govFrame }
  { moveWindow s (rillWin 16) (rillWin r) 0x40000 with rill := vset (vset s.rill r e) 16 RillEngine.zero }

/-- Basin role `r` on BEX: BEX's memories and registers where it has run in step with the role, and else the role's own as they are
copied, with fresh ECC (R19, R456). -/
def basinTakes (s : State) (r : Nat) (inStep : Bool) : State :=
  let o := vget s.basin r BasinEngine.zero
  if inStep then
    let e := { vget s.basin 8 BasinEngine.zero with govFrame := o.govFrame, busy := o.busy, busyMax := o.busyMax }
    { moveWindow s (basinWin 8) (basinWin r) 0x60000 with basin := vset (vset s.basin r e) 8 BasinEngine.zero }
  else
    let t := freshWindow (freshWindow (windowEvents s (basinSite r) (basinWin r) 0x60000 basinLocAt) (basinWin r) 0x60000) (basinWin 8) 0x60000
    { t with basin := vset (vset s.basin r { basinCopy s r (vget s.basin r BasinEngine.zero) with sig := [] }) 8 BasinEngine.zero }

/-- The role moves to the spare (R18, R19, R455): the retired unit answers no window, and the spare's role stays empty. -/
def farTakeover (s : State) (x : FarKind) (r : Nat) : State :=
  let a := farPhys s (x.base + r)
  let b := farPhys s x.spare
  let s1 := (s.setFld (Reg.FAR_ROLE (x.base + r)) 0 5 b).raise Reg.FAR_STATUS 4#32
  let s2 := farRetire (s1.event 0x11 3 x.kind r a b) x a r
  let inStep := decide (farRole s x = r) && decide (2 ≤ farPhase s x)
  let s3 := if x.kind = 0 then rillTakes s2 r else basinTakes s2 r inStep
  farPark (setMove s3 x none) x

/-- The role is lost (R459): the unit is retired and RUN in force becomes 0, as at a swap of its set (R90, R137). -/
def farLose (s : State) (x : FarKind) (r : Nat) : State :=
  let a := farPhys s (x.base + r)
  let s1 := farRetireActive (s.setBit (Reg.FAR_ROLE (x.base + r)) 8 true) x a r
  let s2 := if x.kind = 0 then { s1 with rill := vmod s1.rill r fun e => { e with runA := false, outw := [] } }
    else { s1 with basin := vmod s1.basin r fun e => { e with runA := false } }
  farPark (setMove ((s2.raise Reg.FAR_STATUS 0x10#32).event 0x11 6 x.kind r a 0) x none) x

/-! ### Lanes (R456) -/

/-- The number of a basin lane's physical unit: eight per engine. -/
def lanePhysical (be lane : Nat) : Nat := 8 * be + lane

/-- Whether the spare lane of engine `be` serves a lane, or is about to: it shadows none then. -/
def laneTaken (s : State) (be : Nat) : Bool :=
  s.bit (Reg.FAR_LANE_MAP be) 3 || s.far.laneMove.any fun m => decide (m.1 = be)

/-- Engine `be`'s spare lane moves on to the next lane. -/
def laneNext (s : State) (be : Nat) : State :=
  let lane := (vget s.far.lanes be 0#3).toNat
  let s1 := { s with far := { s.far with lanes := vset s.far.lanes be (BitVec.ofNat 3 (lane + 1)) } }
  (s1.setFld Reg.FAR_TARGET 16 3 be).setFld Reg.FAR_TARGET 19 3 ((lane + 1) % 8)

/-- A lane of engine `be` differs from the spare lane, and goes through its BIST, which it passes or not. The record of the lane's BIST is
FAR_BIST's and Table 19-5's (DEDUCED, log entry 97). -/
def laneDiffers (s : State) (be : Nat) (pass : Bool) : State :=
  let lane := (vget s.far.lanes be 0#3).toNat
  let s1 := ((s.raise Reg.FAR_STATUS 1#32).count Reg.FAR_COUNTS 0 16 1).event 0x11 1 kindLane be (farPhys s (17 + be)) lane
  bistNote s1 kindLane (lanePhysical be lane) 8 pass true

/-- LANE_SHADOW (R456): FAR_PERIOD has passed for engine `be`'s spare lane. It moves on, unless the lane's BIST has failed: the lane is then
remapped at the next frame tick. Once it serves a lane it shadows none, and a further lane failure is one of the engine. -/
def laneShadow (s : State) (be : Nat) (check : LaneCheck) : State :=
  if !s.bit Reg.FAR_CTRL 2 then s
  else
    match check with
    | .same => if laneTaken s be then s else laneNext s be
    | .transient => if laneTaken s be then s else laneNext (laneDiffers s be true) be
    | .fails =>
      let s1 := laneDiffers s be false
      if !laneTaken s be && decide (0 < sparesLeft s kindLane be) then
        { s1 with far := { s1.far with laneMove := s1.far.laneMove ++ [(be, (vget s.far.lanes be 0#3).toNat)] } }
      else if s.far.engineMove.contains be then s1
      else { s1 with far := { s1.far with engineMove := s1.far.engineMove ++ [be] } }

/-- A lane remap at a frame tick. -/
def laneRemap (s : State) (m : Nat × Nat) : State :=
  retireUnit (s.setFld (Reg.FAR_LANE_MAP m.1) 0 4 (m.2 + 8)) kindLane (lanePhysical m.1 m.2) m.1 1 m.1

/-! ### Yard banks (R457, R459) -/

/-- Whether a migration runs. -/
def migrating (s : State) : Bool := (List.range 32).any fun b => s.bit (Reg.MEM_BANK_MAP b) 6

/-- The lowest spare bank not yet used. -/
def spareBank (s : State) : Nat := 36 - sparesLeft s kindBank 0

/-- Where the ECC marks of physical bank `p` stand while no logical bank is in it. -/
def spareKey (p : Nat) : Nat := 0x8000000 + 0x40000 * p

/-- The log without the events of bank `b`. -/
def bankForget (s : State) (b : Nat) : State :=
  { s with far := { s.far with bankLog := s.far.bankLog.filter fun e => decide (e.1 ≠ b) } }

/-- Whether bank `b` needs a migration for `cause` (R457): 0 more corrected errors within 1 s than CE_LIMIT, 1 an uncorrectable error, 2
FAR_BANK_REQ. -/
def bankNeeds (s : State) (b cause : Nat) : Bool :=
  if cause = 0 then decide (s.fld Reg.FAR_BANK_CFG 0 16
    < s.far.bankLog.countP fun e => decide (e.1 = b) && !e.2.2 && decide (s.time.cyc < e.2.1 + utilSecond))
  else if cause = 1 then s.far.bankLog.any fun e => decide (e.1 = b) && e.2.2
  else true

/-- Bank `b`, which needs a migration, has its turn. With no spare left it is reported, and its next uncorrectable error enters SAFE, a
duty that no enable turns off (R448, R459); while another bank migrates it waits, but FAR_BANK_REQ is ignored then (R460). -/
def bankTurn (s : State) (b cause : Nat) : State :=
  if sparesLeft s kindBank 0 = 0 then
    if cause = 2 then s
    else if s.far.worn.getLsbD b then (if cause = 1 then dutySafe (bankForget s b) 8 else bankForget s b)
    else
      let s1 := (((bankForget s b).raise Reg.FAR_STATUS 1#32).count Reg.FAR_COUNTS 0 16 1).event 0x11 1 kindBank b
        (s.fld (Reg.MEM_BANK_MAP b) 0 6) 0
      { s1 with far := { s1.far with worn := s1.far.worn ||| BitVec.ofNat 32 (2 ^ b) } }
  else if !s.bit Reg.FAR_CTRL 3 then s
  else if migrating s then
    if cause = 2 ∨ s.bit (Reg.MEM_BANK_MAP b) 6 = true ∨ (s.far.bankQueue.any fun e => decide (e.1 = b)) = true then s
    else { s with far := { s.far with bankQueue := s.far.bankQueue ++ [(b, cause)] } }
  else (bankForget s b).setBit (Reg.MEM_BANK_MAP b) 6 true

/-- BANK_MIGRATION_START (R457). -/
def bankMigrate (s : State) (b cause : Nat) : State := if bankNeeds s b cause then bankTurn s b cause else s

/-- The banks that waited for the end of a migration have their turns. -/
def bankTurns (s : State) : State :=
  s.far.bankQueue.foldl (fun t e => bankTurn t e.1 e.2) { s with far := { s.far with bankQueue := [] } }

/-- A write of FAR_BANK_REQ. -/
def bankRequest (s : State) (v : BitVec 32) : State :=
  let s1 := s.setFld Reg.FAR_BANK_REQ 0 5 (v.extractLsb' 0 5).toNat
  if v.getLsbD 31 then bankMigrate s1 (v.extractLsb' 0 5).toNat 2 else s1

/-- The words of bank `b` as its rows were copied: an uncorrectable word becomes zero and is reported; every word has fresh ECC. -/
def bankCopied (s : State) (b : Nat) : State :=
  (s.ecc.filter fun e => decide (0x40000 * b ≤ e.1) && decide (e.1 < 0x40000 * (b + 1))).foldl (fun t e =>
    let t1 := yardEcc t e.2 e.1
    yardPut t1 e.1 (eccWord e.2 (Cells.get t1.yard e.1))) s

/-- The logical bank takes the spare, whose words the copy has written, and the old physical bank is retired. The banks that waited follow. -/
def bankRemap (s : State) (b : Nat) : State :=
  let old := s.fld (Reg.MEM_BANK_MAP b) 0 6
  let p := spareBank s
  let s1 := retireUnit (s.setReg (Reg.MEM_BANK_MAP b) (BitVec.ofNat 32 p)) kindBank old b 2 0
  let log := s1.far.bankLog.filter fun e => decide (e.1 ≠ b)
  bankTurns { s1 with
    far := { s1.far with bankMove := none, bankLog := log }
    ecc := Cells.keep (fun k => !(decide (spareKey p ≤ k) && decide (k < spareKey (p + 1)))) s1.ecc }

/-- BANK_REMAP (R457): the last row is copied. The map changes at the next frame tick, or at once when no frame ticks are raised. -/
def bankCopyEnd (s : State) (b : Nat) : State :=
  if s.bit (Reg.MEM_BANK_MAP b) 6 then
    let s1 := bankCopied s b
    if s1.tick.entered then { s1 with far := { s1.far with bankMove := some b } } else bankRemap s1 b
  else s

/-! ### Frame ticks -/

/-- The shadow of one kind at a frame tick: it ends when its enable is cleared, when its role's RUN in force is 0 or when LISTEN is
entered; after its copy lockstep starts, unless the media PLL acquires (`hold`), when the rotation is suspended (R452). A BIST under way
completes. -/
def shadowFrame (s : State) (x : FarKind) (hold : Bool) : State :=
  let ph := farPhase s x
  if ph ≠ 1 ∧ ph ≠ 2 then s
  else if !s.bit Reg.FAR_CTRL x.kind then farPark s x
  else if s.listen then farSkip s x 3
  else if !farRun s x (farRole s x) then farSkip s x 2
  else if decide (ph = 1) && farCopied s x && !hold then lockstepStart s x
  else s

/-- The outcome that acts at this frame tick: not one whose B - 64 fell before the end of the BIST (R455), and no takeover while the media
PLL acquires (R38, R460). -/
def moveDue (s : State) (x : FarKind) (hold : Bool) : Option Bool :=
  if farLate s x || (hold && decide (farMove s x = some true)) then none else farMove s x

/-- A takeover or a lost role that waited for this frame tick. -/
def moveFrame (s : State) (x : FarKind) (hold : Bool) : State :=
  match moveDue s x hold with
  | some true => farTakeover s x (farRole s x)
  | some false => farLose s x (farRole s x)
  | none => s

/-- One engine that a further lane failure has failed: it goes to BEX, unless the media PLL acquires, or loses its role (R456). -/
def engineMoveOne (hold : Bool) (s : State) (be : Nat) : State :=
  if !farSpare s farBasin then farLose s farBasin be
  else if hold then { s with far := { s.far with engineMove := s.far.engineMove ++ [be] } }
  else farTakeover s farBasin be

/-- The engines that a further lane failure has failed have their turns (R460); while a BIST of basin engines runs they wait for its
outcome (DESIGN CHOICE, log entry 74). An engine whose role the same frame tick has moved is no longer in use. -/
def engineMoves (s : State) (moved : Option Nat) (hold : Bool) : State :=
  if farPhase s farBasin = 3 then s
  else
    (s.far.engineMove.filter fun be => decide (some be ≠ moved) && !roleLost s (17 + be)).foldl (engineMoveOne hold)
      { s with far := { s.far with engineMove := [] } }

/-- The farrier at B - 8 of a frame tick (R455 to R457). While the media PLL acquires, only takeovers wait (R38, R460). -/
def farFrame (s : State) : State :=
  let hold := acquiring s
  let moved := (moveDue s farBasin hold).map fun _ => farRole s farBasin
  let s0 := engineMoves (moveFrame (moveFrame s farRill hold) farBasin hold) moved hold
  let s1 := { s0 with far := { s0.far with rillLate := false, basinLate := false } }
  let s2 := s1.far.laneMove.foldl laneRemap s1
  let s3 := { s2 with far := { s2.far with laneMove := [] } }
  let s4 := match s3.far.bankMove with
    | some b => bankRemap s3 b
    | none => s3
  shadowFrame (shadowFrame s4 farRill hold) farBasin hold

/-! ### Start-time retirement (R463) -/

/-- Retire engine `u` of a kind at the start: the role it holds goes to the spare, or is lost when none is left or when `u` is the spare
itself; a spare that holds no role is gone. -/
def initEngine (s : State) (x : FarKind) (u : Nat) : State :=
  if x.roles < u ∨ s.bit x.retired u = true then s
  else
    let s1 := s.raise x.retired (BitVec.ofNat 32 (2 ^ u))
    match (List.range x.roles).find? fun k => decide (farPhys s (x.base + k) = u) with
    | none => useSpare s1 x.kind 0
    | some k =>
      if farSpare s x && decide (u ≠ x.roles) then useSpare (s1.setFld (Reg.FAR_ROLE (x.base + k)) 0 5 x.roles) x.kind 0
      else s1.setBit (Reg.FAR_ROLE (x.base + k)) 8 true

/-- Map a retired tether lane to its port's spare of the same direction, before the port is enabled. A UNIT that Table 19-11 does not
give does nothing (DEDUCED, log entry 97). -/
def initLane (s : State) (u : Nat) : State :=
  let p := u / 16 % 2
  let x := tetherAt s p
  let rx := decide (u / 8 % 2 = 1)
  let l := some (BitVec.ofNat 2 u)
  let b := BitVec.ofNat 4 (2 ^ (u % 8))
  if 4 ≤ u % 8 ∨ 32 ≤ u ∨ (if rx then x.rxOnSpare else x.txOnSpare) = l then s
  else if (if rx then x.rxOnSpare else x.txOnSpare).isSome = true then
    putTether s p (if rx then { x with fails := x.fails ||| b, rxGone := x.rxGone ||| b } else { x with txFails := x.txFails ||| b })
  else useSpare (putTether s p (if rx then { x with rxOnSpare := l } else { x with txOnSpare := l })) kindTether p

/-- Apply the retirement of unit `u` of a kind (R463). -/
def initUnit (s : State) (kind u : Nat) : State :=
  if kind = kindRill then initEngine s farRill u
  else if kind = kindBasin then initEngine s farBasin u
  else if kind = kindLane then
    if sparesLeft s kindLane (u / 8) = 0 then s
    else useSpare (s.setFld (Reg.FAR_LANE_MAP (u / 8)) 0 4 (u % 8 + 8)) kindLane (u / 8)
  else if kind = kindBank then
    if 32 ≤ u ∨ sparesLeft s kindBank 0 = 0 then s
    else useSpare (s.setReg (Reg.MEM_BANK_MAP u) (BitVec.ofNat 32 (let n := s.fld (Reg.MEM_BANK_MAP u) 0 6
      if n < 32 then spareBank s else max n (spareBank s)))) kindBank 0
  else if kind = kindFlash then useSpare s kindFlash 0
  else if kind = kindTether then initLane s u
  else s

/-- APPLY (R463): a write of FAR_INIT with APPLY, accepted while INIT_OPEN is 1. -/
def farInit (s : State) (v : BitVec 32) : State :=
  if !v.getLsbD 31 || !s.bit Reg.FAR_STATUS 10 then s
  else initUnit { s with far := { s.far with inited := true } } (v.extractLsb' 0 3).toNat (v.extractLsb' 4 6).toNat

/-- A record put in its place in a list that is in SEQ order. -/
def inSeqOrder (l : List JournalRecord) (r : JournalRecord) : List JournalRecord :=
  l.takeWhile (fun a => decide (a.seq ≤ r.seq)) ++ r :: l.dropWhile fun a => decide (a.seq ≤ r.seq)

/-- The retirements that the journal records, in their order: kind and UNIT of FAR_INIT, each physical unit once (R461 to R463). -/
def journalRetired (s : State) : List (Nat × Nat) :=
  let o := (((journalRecords s).filter fun r => decide (r.type = jRetire)).foldl inSeqOrder []).map fun r => (leVal (r.pa.take 1), leVal ((r.pa.drop 1).take 1), leVal ((r.pa.drop 2).take 1))
  o.eraseDups.map fun e => (e.1, if e.1 = kindBank then e.2.2 else e.2.1)

/-- The supervisor at the start of an image, before the first mode, once: it applies the journal's retirements, unless FAR_INIT was written
(DESIGN CHOICE, log entry 79: the supervisor's own writes need not be sent as commands), and loads the stored policy (R463). -/
def policyOnce (s : State) : State :=
  if s.boot.slot.isSome && s.bit Reg.FAR_STATUS 10 && s.sup.named.isNone then
    policyStart (if s.far.inited then s else (journalRetired s).foldl (fun t e => initUnit t e.1 e.2) s)
  else s

/-- STARTED (R426), with the journal applied and the stored policy loaded before the first mode (R463). -/
def startedWrite (s : State) : State := policyOnce (bootStart s)

/-! ### The commands -/

/-- STARTED (R426). -/
def execBootStarted (s : State) : Out := done (startedWrite s)

/-- SHADOW_ROTATE (R452). -/
def execShadowRotate (basin : Bool) (s : State) : Out := done (shadowRotate s (farOf basin))

/-- SHADOW_COPY_END (R453, R454). -/
def execShadowCopyEnd (basin : Bool) (s : State) : Out := done (shadowCopyEnd s (farOf basin))

/-- SKIPPED (R454). -/
def execSkipped (s : State) : Out := done (basinSkipped s)

/-- BIST_END (R455). -/
def execBistEnd (basin activePass sparePass : Bool) (s : State) : Out := done (bistEnd s (farOf basin) activePass sparePass)

/-- LANE_SHADOW (R456). -/
def execLaneShadow (be : Fin 8) (check : LaneCheck) (s : State) : Out := done (laneShadow s be.val check)

/-- BANK_MIGRATION_START (R457). -/
def execBankMigrationStart (b : Fin 32) (cause : Fin 3) (s : State) : Out := done (bankMigrate s b.val cause.val)

/-- BANK_REMAP (R457). -/
def execBankRemap (b : Fin 32) (s : State) : Out := done (bankCopyEnd s b.val)

/-- APPLY (R463). -/
def execFarApply (v : BitVec 32) (s : State) : Out := done (farInit s v)

end Sys2Proof.Machine
end

