-- ==== Sys2Proof/Machine/RegFile.lean ====
section
/-! DEFINITION. The register blocks: what a register reads, and what a write of it does (Table 00-5, R503 to R506). -/
namespace Sys2Proof.Machine

/-! ### Registers that show other state -/

/-- The engine number of a RILL register (16 is REX), and of a BASIN register (8 is BEX). -/
def rillOf (a : Nat) : Nat := (a - Reg.RILL_CTRL 0) / 0x1000
def basinOf (a : Nat) : Nat := (a - Reg.BASIN_CTRL 0) / 0x1000

/-- COMMIT and STAGE_BUSY beside the GROUP of set `k` (Table 04-13). -/
def commitView (s : State) (k : Nat) : BitVec 32 :=
  (s.reg (commitReg k) &&& 0xF0#32) ||| BitVec.ofNat 32 ((if commitReads s k then 1 else 0) + if stageBusy s k then 256 else 0)

/-- Whether the farrier holds a spare parked (R452). -/
def rexParked (s : State) : Bool := decide (farPhase s farRill = 0) || !farSpare s farRill
def bexParked (s : State) : Bool := decide (farPhase s farBasin = 0) || !farSpare s farBasin

/-- LIMIT and PENDING (Table 04-16). -/
def rillLimit (s : State) : BitVec 32 :=
  let now := s.c - 64
  BitVec.ofNat 32 (now + (match pendingMode s with | some m => modeC m - 64 | none => now) * 65536)

/-- A RILL register at offset `o` of engine `n` as read. -/
def rillView (s : State) (n o : Nat) : BitVec 32 :=
  let e := vget s.rill n RillEngine.zero
  let v := s.reg (Reg.RILL_CTRL n + o)
  if o = 8 then
    if n < 16 then commitView s n else if rexParked s then v &&& 0xF0#32 else commitView s (farRole s farRill)
  else if o = 0xC then
    let shadowed := if n < 16 then !rexParked s && decide (farRole s farRill = n) else !rexParked s
    let runs := if n < 16 then rillRunning s n e else !rexParked s && rillRunning s (farRole s farRill) e
    v ||| BitVec.ofNat 32 ((if runs then 256 else 0) + if shadowed then 512 else 0)
  else if o = 0x10 then BitVec.ofNat 32 (e.lenA.toNat + e.pageA.toNat * 65536 + if e.runA then 262144 else 0)
  else if o = 0x14 then rillLimit s
  else if o = 0x20 then s.tick.ptr.setWidth 32
  else v

/-- A BASIN register at offset `o` of engine `n` as read. -/
def basinView (s : State) (n o : Nat) : BitVec 32 :=
  let e := vget s.basin n BasinEngine.zero
  let v := s.reg (Reg.BASIN_CTRL n + o)
  if o = 4 then
    if n < 8 then commitView s (16 + n) else if bexParked s then v &&& 0xF0#32 else commitView s (16 + farRole s farBasin)
  else if o = 8 then
    let shadowed := if n < 8 then !bexParked s && decide (farRole s farBasin = n) else !bexParked s
    let runs := if n < 8 then basinRuns s n else !bexParked s && basinRuns s (farRole s farBasin)
    v ||| BitVec.ofNat 32 ((if runs then 1024 else 0) + (if shadowed then 2048 else 0) + if s.tick.entered && basinIdle s n then 4096 else 0)
  else if o = 0xC then BitVec.ofNat 32 ((if e.runA then 1 else 0) + if e.halfA then 4 else 0)
  else if o = 0x20 then BitVec.ofNat 32 (basinLimit s)
  else v

/-- Whether a mode change holds a group (R33). -/
def holdsGroup (s : State) : Bool := modeHolds s s.tick.seq.group

/-- A bitmap of the sets whose commits are pending, from set `lo`. -/
def pendBits (s : State) (lo : Nat) : BitVec 32 :=
  BitVec.ofNat 32 ((List.range 32).foldl (fun n i => if decide (lo + i < 29) && commitReads s (lo + i) then n + 2 ^ i else n) 0)

/-- LOCKED and CLK_PRESENT of TDM port `p`. -/
def tdmLocked (s : State) (p : Nat) : Bool := if tdmAsync s p then asrcLocked s p else tdmRuns s p && !(tdmAt s p).lost
def tdmClock (s : State) (p : Nat) : Bool := if tdmMaster s p then tdmRuns s p else (tdmRx s p || tdmTx s p) && (tdmAt s p).seen && !(tdmAt s p).lost

/-- GPIO_CFG(i) as read: IN and HOLDER. -/
def gpioView (s : State) (i : Nat) : BitVec 32 :=
  s.reg (Reg.GPIO_CFG i) ||| BitVec.ofNat 32 ((if pinLevel s i then 8 else 0) + resHolder s 0 i * 65536)

/-- What the register at listed address `a` reads, before what the read itself does. -/
def regView (s : State) (a : Nat) : BitVec 32 :=
  let v := s.reg a
  match a / 0x10000 with
  | 0x4000 =>
    if a = Reg.SYS_IRQ_RAW then irqRaw s else if a = Reg.SYS_IRQ_PEND_CC then irqPendCc s
    else if a = Reg.SYS_IRQ_PEND_HOST then irqPendHost s else v
  | 0x4001 => if a = Reg.CLK_STATUS then v ||| (if lfRuns s then 0x100#32 else 0#32) else v
  | 0x4002 => if a = Reg.PWR_RTC_SEC then s.power.rtc.extractLsb' 15 32 else v
  | 0x4004 => if a = Reg.MEM_STATUS then v ||| (if s.power.tamperLow then 0#32 else 0x400#32) else v
  | 0x4005 =>
    let t := s.tick
    if a = Reg.TICK_MODE then
      BitVec.ofNat 32 ((if t.entered then t.mode.toNat else 3) + (if t.entered then 8 else 0) + (if t.family then 16 else 0)
        + if t.pending then 256 + t.pendMode.toNat * 65536 + (if t.pendFamily then 2 ^ 20 else 0) else 0)
    else if a = Reg.TICK_TIMING then BitVec.ofNat 32 (s.c % 65536 + s.f * 65536)
    else if a = Reg.TICK_SAMPLE_LO then t.sampleCnt.setWidth 32
    else if a = Reg.TICK_FRAME_LO then t.frameCnt.setWidth 32
    else if a = Reg.TICK_POS then BitVec.ofNat 32 t.j
    else v
  | 0x4010 | 0x4011 => rillView s (rillOf a) (a % 0x1000)
  | 0x4020 =>
    if a = Reg.CC_STATUS then v ||| BitVec.ofNat 32 ((if s.cc.waiting then 2 else 0) + if s.cc.exl then 4 else 0)
    else if a < Reg.CC_STATUS then basinView s (basinOf a) (a % 0x1000) else v
  | 0x4030 =>
    if a = Reg.FABRIC_COMMIT then commitView s setFabric
    else if a = Reg.FABRIC_STATUS then v ||| (if s.fabric.xp.any fun e => e.2.fade.isSome then 0x100#32 else 0#32)
    else if a = Reg.FABRIC_LIMIT then BitVec.ofNat 32 s.fabricLimit
    else v
  | 0x4031 =>
    if a = Reg.CASCADE_COMMIT then commitView s setCascade
    else if a = Reg.CASCADE_LIMIT then BitVec.ofNat 32 s.cascadeLimit
    else if a = Reg.SL_STATUS then v ||| (if holdsGroup s then BitVec.ofNat 32 (65536 + s.tick.seq.group.toNat * 131072) else 0#32)
    else if a = Reg.SL_PEND_LO then pendBits s 0
    else if a = Reg.SL_PEND_HI then pendBits s 32
    else v
  | 0x4032 => if a = Reg.RB_COMMIT then commitView s setBus else v
  | 0x4041 => if a = Reg.ANA_STATUS then v ||| (if s.ports.muteN then 0x10000#32 else 0#32) else v
  | 0x4042 =>
    let p := (a - Reg.TDM_CTRL 0) / 0x1000
    if a % 0x1000 = 0x18 then v ||| BitVec.ofNat 32 ((if tdmLocked s p then 256 else 0) + if tdmClock s p then 512 else 0) else v
  | 0x4043 =>
    if a ≤ Reg.ASRC_USED 3 then
      let i := (a - Reg.ASRC_USED 0) / 4
      BitVec.ofNat 32 ((List.range 32).foldl (fun n j => if resHolder s 4 (32 * i + j) ≠ 0 then n + 2 ^ j else n) 0)
    else v
  | 0x4052 =>
    if a = Reg.T1S_ASTATUS then
      v ||| BitVec.ofNat 32 ((if plcaActive s then 1 else 0) + if plcaCoord s then 2 else 0)
    else v
  | 0x4053 =>
    if Reg.SRX_CTRL 0 ≤ a ∧ a % 0x20 = 0x1C ∧ v &&& 3#32 ≠ 0#32 ∧ streamsWait s = true then (v &&& ~~~3#32) ||| 1#32 else v
  | 0x4054 =>
    if a = Reg.TIME_NS then BitVec.ofNat 32 (timeNs s.time.t)
    else if a = Reg.TIME_STATUS then v ||| (if streamsWait s then 16#32 else 0#32)
    else v
  | 0x4060 =>
    if Reg.RING_STATE 4 ≤ a ∧ a ≤ Reg.RING_STATE 19 ∧ a % 16 = 12 ∧ audWaits s = true then v ||| 0x40000#32 else v
  | 0x4061 =>
    if a = Reg.CSP_STATUS then v ||| (if cspSelected s then 65536#32 else 0#32)
    else if a = Reg.CSP_M_STATUS then cspMasterStatus s
    else v
  | 0x4080 => if a = Reg.TETH_COMMIT 0 then commitView s (setTether 0) else if a = Reg.TETH_COMMIT 1 then commitView s (setTether 1) else v
  | 0x4090 =>
    if a < Reg.GPIO_IN 0 then gpioView s ((a - Reg.GPIO_CFG 0) / 4)
    else if a < Reg.GPIO_SET 0 then gpioIn s ((a - Reg.GPIO_IN 0) / 4)
    else v
  | _ => v

/-! ### Reads -/

/-- The read of the register at listed address `a`: its value, and the state with what the read latches or takes. The reads of host memory
in flight at that moment are a free value that PEAK bounds (R354, log entry 29). -/
def regRead (s : State) (a : Nat) : BitVec 32 × State :=
  let v := regView s a
  match a / 0x10000 with
  | 0x4002 => if a = Reg.PWR_RTC_SEC then (v, s.setReg Reg.PWR_RTC_SUB ((s.power.rtc.extractLsb' 0 15).setWidth 32)) else (v, s)
  | 0x4005 =>
    if a = Reg.TICK_SAMPLE_LO then (v, s.setReg Reg.TICK_SAMPLE_HI (s.tick.sampleCnt.extractLsb' 32 32))
    else if a = Reg.TICK_FRAME_LO then (v, s.setReg Reg.TICK_FRAME_HI (s.tick.frameCnt.extractLsb' 32 32))
    else (v, s)
  | 0x4010 | 0x4011 =>
    if a % 0x1000 = 0x20 then (v, s.setReg (a + 4) ((s.tick.ptr.extractLsb' 32 16).zeroExtend 32)) else (v, s)
  | 0x4054 =>
    if a = Reg.TIME_NS then
      (v, (s.setReg Reg.TIME_SEC_LO (BitVec.ofNat 32 (timeSec s.time.t))).setReg Reg.TIME_SEC_HI (BitVec.ofNat 32 (timeSec s.time.t / 2 ^ 32)))
    else
      match (List.range 4).find? fun c => decide (a = Reg.TIME_CAP_NS c) with
      | some c => (v, { s with time := { s.time with unread := s.time.unread &&& ~~~(BitVec.ofNat 4 (2 ^ c)) } })
      | none => (v, s)
  | 0x4060 =>
    if a = Reg.HOST_TAGS ∧ anyRingEn s ∧ hostLocal s = false then
      let f := s.takeFree
      (v ||| BitVec.ofNat 32 (Config.freeTags f.1 % (s.fld Reg.HOST_TAGS 16 9 + 1)), f.2)
    else (v, s)
  | 0x4061 => if a = Reg.CSP_M_FIFO then cspPop s else (v, s)
  | 0x4070 =>
    if a = Reg.SUP_REPORT0 then
      (v, ((s.setReg Reg.SUP_REPORT1 s.sup.report[0]).setReg Reg.SUP_REPORT2 s.sup.report[1]).setReg Reg.SUP_REPORT3 s.sup.report[2])
    else (v, s)
  | 0x4080 => if a = Reg.TETH_MSG_RX then msgRxRead s else (v, s)
  | _ => (v, s)

/-! ### Writes -/

/-- A write under the plain field types: RW fields take the value, W1C flags written 1 clear, and the rest keeps (Table 00-5). -/
def plainWrite (s : State) (d : RegDesc) (a : Nat) (v : BitVec 32) : State :=
  let old := s.reg a
  s.setReg a (((old &&& ~~~d.rw) ||| (v &&& d.rw)) &&& ~~~(v &&& d.w1c))

/-- A performed write without an error response. -/
def ok (s : State) : Bool × State := (false, s)

/-- A write of a register with ST fields `d.st` of set `k`; `twin` is the spare's register while the farrier repeats writes to it
(R244, R453). -/
def stagedWrite (s : State) (d : RegDesc) (a : Nat) (v : BitVec 32) (k : Nat) (twin : Option Nat) : Bool × State :=
  let s1 := plainWrite s d a v
  if stageBusy s k then
    if d.rw = 0#32 ∨ (v ^^^ s.reg a) &&& d.st ≠ 0#32 then (true, stageReject s1 k) else ok s1
  else
    let put := fun (t : State) (b : Nat) => t.setReg b ((t.reg b &&& ~~~d.st) ||| (v &&& d.st))
    ok (match twin with
      | some b => put (put s1 a) b
      | none => put s1 a)

/-- Note that the noise seed of set `k` was written in the shadow (R88). -/
def seedWritten (s : State) (k : Nat) : State := putSet s k { setAt s k with seed := true }

/-- A write of a commit register of set `k` (R245). -/
def commitRegWrite (s : State) (k : Nat) (v : BitVec 32) : State :=
  let s1 := s.setFld (commitReg k) 4 4 (v.extractLsb' 4 4).toNat
  if v.getLsbD 0 then commitWrite s1 k (v.extractLsb' 4 4) false else s1

/-- PEAK_CLR of engine `n`. -/
def peakClear (s : State) (n : Nat) : State := s.setReg (Reg.BASIN_PEAK n) 0#32

/-- A write of a RILL register of engine `n` at offset `o` (R89, R103, R243). -/
def rillRegWrite (s : State) (d : RegDesc) (n o : Nat) (v : BitVec 32) : Bool × State :=
  let a := Reg.RILL_CTRL n + o
  if n = 16 then
    if !rexParked s then (true, s.raise (Reg.RILL_STATUS 16) 8#32)
    else
      let s1 := plainWrite s d a v
      ok (s1.setReg a ((s1.reg a &&& ~~~d.st) ||| (v &&& d.st)))
  else if o = 8 then ok (commitRegWrite s n v)
  else if d.st = 0#32 then ok (plainWrite s d a v)
  else
    let r := stagedWrite s d a v n (if rexShadows s n then some (Reg.RILL_CTRL 16 + o) else none)
    if o = 0x18 ∧ r.1 = false then ok (seedWritten r.2 n) else r

/-- A write of a BASIN register of engine `n` at offset `o`. -/
def basinRegWrite (s : State) (d : RegDesc) (n o : Nat) (v : BitVec 32) : Bool × State :=
  let a := Reg.BASIN_CTRL n + o
  if n = 8 ∧ bexParked s = false then (true, s.raise (Reg.BASIN_STATUS 8) 0x40#32)
  else
    let s0 := if o = 0 ∧ v.getLsbD 3 = true then peakClear s n else s
    if n = 8 then
      let s1 := plainWrite s0 d a v
      ok (s1.setReg a ((s1.reg a &&& ~~~d.st) ||| (v &&& d.st)))
    else if o = 4 then ok (commitRegWrite s0 (16 + n) v)
    else if d.st = 0#32 then ok (plainWrite s0 d a v)
    else
      let r := stagedWrite s0 d a v (16 + n) (if bexShadows s n then some (Reg.BASIN_CTRL 8 + o) else none)
      if o = 0x24 ∧ r.1 = false then ok (seedWritten r.2 (16 + n)) else r

/-- An access that waits, noted as accepted before a handover of bank `b` from owner `cur` where it is one of that owner's. -/
def acceptHeld (b cur : Nat) (h : HeldAccess) : HeldAccess :=
  if ownerCode h.master = cur ∧ h.access.banks.contains b = true ∧ h.accepted.contains b = false then { h with accepted := b :: h.accepted } else h

/-- A write of MEM_BANK_OWNER(b) (R385): the accesses of the old owner that wait were accepted before it. -/
def bankOwnerWrite (s : State) (b : Nat) (v : BitVec 32) : Bool × State :=
  let code := (v.extractLsb' 0 5).toNat
  if 17 ≤ code ∨ bankPending s b = true then (true, s.raise Reg.MEM_STATUS 8#32)
  else
    let s1 := s.setFld (Reg.MEM_BANK_OWNER b) 0 5 code
    ok (if code = bankCur s b then s1
      else { s1.setBit (Reg.MEM_BANK_OWNER b) 8 true with heldAcc := s1.heldAcc.map (acceptHeld b (bankCur s b)) })

/-- A write of BOOT_OTP_CMD (R439). PROG_HASH and REVOKE are requests that end with the write, and read 0 after it (DESIGN CHOICE, log
entry 114: their type LC returns the value, and no rule says whether a request clears itself). -/
def otpCommand (s : State) (v : BitVec 32) : State :=
  let k := (v.extractLsb' 0 2).toNat
  let s1 := if v.getLsbD 2 then progHash s k else s
  if v.getLsbD 3 then revokeKey s1 k else s1

/-- A write of a BOOT register by master `m` (R9, R417). -/
def bootRegWrite (s : State) (d : RegDesc) (a : Nat) (v : BitVec 32) (m : Nat) : Bool × State :=
  if a = Reg.BOOT_CTRL then
    let s1 := if v.getLsbD 0 then startedWrite s else s
    ok (if v.getLsbD 1 then bootConfirm s1 else s1)
  else if a = Reg.BOOT_SAFE_REQ then ok (bootSafeReq s v)
  else if a = Reg.BOOT_WDT then ok (if lifeCycle s ≤ 1 then s.setReg a (v &&& 0xFF#32) else lcReject s)
  else if a = Reg.BOOT_LC_REQ then ok (bootLcReq s v)
  else if a = Reg.BOOT_OTP_CMD then ok (otpCommand s v)
  else if a = Reg.BOOT_RUN then ok (bootRun s (v.extractLsb' 0 25) (v.getLsbD 31))
  else if Reg.FL_ADDR ≤ a ∧ a ≤ Reg.FL_DATA 3 then
    if m ≠ masterCcD then (true, masterErr s)
    else if a = Reg.FL_CMD then
      if v.extractLsb' 0 2 = 1#2 then flashCommand s m false else if v.extractLsb' 0 2 = 2#2 then flashCommand s m true else ok s
    else ok (plainWrite s d a v)
  else if a = Reg.DBG_CTL then ok (dbgCtlWrite s (v.extractLsb' 0 2) (v.getLsbD 2))
  else ok (plainWrite s d a v)

/-- A write of a TIME register. -/
def timeRegWrite (s : State) (d : RegDesc) (a : Nat) (v : BitVec 32) : State :=
  if a = Reg.TIME_SET_CMD then timeSetCmd s v
  else if a = Reg.TIME_MEDIA_LO ∨ a = Reg.TIME_MEDIA_HI then
    let m := s.tick.mediaLoad.getD s.tick.media
    let w := if a = Reg.TIME_MEDIA_LO then m.extractLsb' 32 32 ++ v else v ++ m.extractLsb' 0 32
    { s with tick := { s.tick with mediaLoad := some w } }
  else if a < Reg.TIME_CAP_CFG 0 then plainWrite s d a v
  else if a < Reg.TIME_CMP_CFG 0 then
    if a % 16 = 0 then timeCapWrite s ((a - Reg.TIME_CAP_CFG 0) / 16) v else plainWrite s d a v
  else
    let k := (a - Reg.TIME_CMP_CFG 0) / 16
    if a % 16 = 0 then timeCmpWrite s k v else if a % 16 = 12 then plainWrite s d a v else cmpTimeWrite s k a v

/-- A write of an Ethernet register of port `p`. -/
def ethRegWrite (s : State) (d : RegDesc) (p a : Nat) (v : BitVec 32) : Bool × State :=
  let o := a % 0x10000
  if o = 0 then ethCtrlWrite s p v
  else if o = 0x10 ∨ (0x40 ≤ o ∧ o < 0x80) then ethCfgWrite s p a d.rw v
  else if 0x20 ≤ o ∧ o < 0x30 ∧ p < 2 then ok (cbsWrite s p a d.rw v)
  else if o = 0x38 then ok (mdioWrite s p v)
  else if 0x100 ≤ o ∧ o < 0x300 ∧ o % 16 = 8 then ok (filtWrite s p ((o - 0x108) / 16) v)
  else if o = 0x300 then ok (if v.getLsbD 8 then stampPop s p else s)
  else ok (plainWrite s d a v)

/-- A write of a HOST register (R353, R373). -/
def hostRegWrite (s : State) (d : RegDesc) (a : Nat) (v : BitVec 32) : Bool × State :=
  if a = Reg.HOST_CTRL then hostCtrlWrite s v
  else if a < Reg.RING_BASE_LO 0 then ok (plainWrite s d a v)
  else if a < Reg.RING_AUD 0 then
    let r := (a - Reg.RING_BASE_LO 0) / 16
    if a % 16 = 8 then ringCfgWrite s r v
    else if a % 16 < 8 ∧ ringEn s r = true then (true, cfgReject s)
    else ok (plainWrite s d a v)
  else if a < Reg.RING_AUDCNT 0 then
    if ringEn s (4 + (a - Reg.RING_AUD 0) / 4) then (true, cfgReject s) else ok (plainWrite s d a v)
  else if a < Reg.HOST_DOORBELL 0 then ok (plainWrite s d a v)
  else ok (doorbellRing s ((a - Reg.HOST_DOORBELL 0) / 4) v true [])

/-- A write of TETH_CFG: a port whose enable clears goes down, and authority is evaluated again (R465, R475). -/
def tethCfgWrite (s : State) (v : BitVec 32) : State :=
  let down := fun (t : State) (p : Nat) => if v.getLsbD (4 + p) then t else tetherPortDown t p
  tetherAuth (([0, 1].foldl down s).setReg Reg.TETH_CFG (v &&& 0xFF0F3F#32))

/-- A write of a TETHER register. -/
def tetherRegWrite (s : State) (d : RegDesc) (a : Nat) (v : BitVec 32) : Bool × State :=
  if a = Reg.TETH_CFG then ok (tethCfgWrite s v)
  else if a = Reg.TETH_WITNESS then ok (witnessWrite s v)
  else if a = Reg.TETH_SYNC_CTL then ok (syncCtlWrite s v)
  else if a = Reg.TETH_MSG_TX then ok (msgTxWrite s s.tether.push.isEmpty v)
  else if a = Reg.TETH_COMMIT 0 then ok (commitRegWrite s 27 v)
  else if a = Reg.TETH_COMMIT 1 then ok (commitRegWrite s 28 v)
  else if Reg.TETH_TXE 0 0 ≤ a then stagedWrite s d a v (27 + (a - Reg.TETH_TXE 0 0) / 0x1000) none
  else ok (plainWrite s d a v)

/-- A write of a GPIO register. -/
def gpioRegWrite (s : State) (d : RegDesc) (a : Nat) (v : BitVec 32) : State :=
  if a < Reg.GPIO_IN 0 then gpioCfgWrite s ((a - Reg.GPIO_CFG 0) / 4) v
  else if a < Reg.GPIO_SET 0 then s
  else if a < Reg.GPIO_CLR 0 then gpioOut s ((a - Reg.GPIO_SET 0) / 4) v true
  else if a < Reg.GPIO_IRQ 0 then gpioOut s ((a - Reg.GPIO_CLR 0) / 4) v false
  else plainWrite s d a v

/-- A write of ANA_ADC_CFG(i): BIAS_EN written 0 lets a bias that a short switched off come on again (R259). -/
def adcCfgWrite (s : State) (d : RegDesc) (i a : Nat) (v : BitVec 32) : State :=
  let s1 := plainWrite s d a v
  if v.getLsbD 8 then s1 else { s1 with ports := { s1.ports with biasTrip := s1.ports.biasTrip &&& ~~~(BitVec.ofNat 4 (2 ^ i)) } }

/-- A write of ANA_CTRL: MUTE_FORCE takes MUTE_N low within the interval (R261). -/
def anaCtrlWrite (s : State) (d : RegDesc) (a : Nat) (v : BitVec 32) : State :=
  if v.getLsbD 9 then muteLow (plainWrite s d a v) else plainWrite s d a v

/-- A write of CC_CACHE: INV starts an invalidation (R153). -/
def cacheWrite (s : State) (v : BitVec 32) : State :=
  let s1 := s.setBit Reg.CC_CACHE 0 (v.getLsbD 0)
  if v.getLsbD 1 then { s1.raise Reg.CC_CACHE 4#32 with cc := { s1.cc with cache := [] } } else s1

/-- A 32-bit write of the register at listed address `a`, of row `d`, by master `m`; `slave` marks one that the CSP slave makes.
The answer is whether the response is an error. -/
def regWrite (s : State) (d : RegDesc) (a : Nat) (v : BitVec 32) (m : Nat) (slave : Bool) : Bool × State :=
  match a / 0x10000 with
  | 0x4000 => ok (if a = Reg.SYS_IRQ_HOST_ACK then (if v.getLsbD 0 then irqAck s else s) else plainWrite s d a v)
  | 0x4001 =>
    if Reg.MPLL_CFG ≤ a ∧ a ≤ Reg.MPLL_SEED then ok (mpllConfigWrite s ((a - Reg.MPLL_CFG) / 4) v)
    else if a = Reg.MNCO_FW_HI then ok (mncoFwWrite s v)
    else if a = Reg.MNCO_ADJ then mncoAdjWrite s v
    else if a = Reg.CLKOUT_CTRL then ok (clkOutWrite s v)
    else if Reg.MPLL_BAND 0 ≤ a ∧ a < Reg.MNCO_FW_LO then ok (mpllBandWrite s ((a - Reg.MPLL_BAND 0) / 4 % 16) (plainWrite s d a v))
    else ok (plainWrite s d a v)
  | 0x4002 =>
    ok (if a = Reg.PWR_STBY then standbyWrite s v else if a = Reg.PWR_RTC_SEC then rtcWrite s v
      else faultPin (plainWrite s d a v))
  | 0x4003 => bootRegWrite s d a v m
  | 0x4004 =>
    if a = Reg.TACK_CTRL then ok (s.raiseIf (v.getLsbD 0) a 1#32)
    else if Reg.MEM_BANK_OWNER 0 ≤ a ∧ a ≤ Reg.MEM_BANK_OWNER 31 then bankOwnerWrite s ((a - Reg.MEM_BANK_OWNER 0) / 4) v
    else ok (plainWrite s d a v)
  | 0x4005 => if a = Reg.TICK_SWITCH then tickSwitch s v m else ok (plainWrite s d a v)
  | 0x4010 | 0x4011 => rillRegWrite s d (rillOf a) (a % 0x1000) v
  | 0x4020 =>
    if a = Reg.CC_CACHE then ok (cacheWrite s v)
    else if a < Reg.CC_STATUS then basinRegWrite s d (basinOf a) (a % 0x1000) v
    else ok (plainWrite s d a v)
  | 0x4030 => ok (if a = Reg.FABRIC_COMMIT then commitRegWrite s setFabric v else plainWrite s d a v)
  | 0x4031 =>
    if a = Reg.CASCADE_COMMIT then ok (commitRegWrite s setCascade v)
    else if a = Reg.CASCADE_NOISE_SEED then
      let r := stagedWrite s d a v setCascade none
      if r.1 then r else ok (seedWritten r.2 setCascade)
    else if a = Reg.SL_ABORT then ok (abortGroup s (v.extractLsb' 0 4))
    else ok (plainWrite s d a v)
  | 0x4032 => ok (if a = Reg.RB_COMMIT then commitRegWrite s setBus v else plainWrite s d a v)
  | 0x4040 => ok (if a = Reg.PDM_CLK_EN then pdmClkWrite s v else plainWrite s d a v)
  | 0x4041 =>
    ok (if a = Reg.ANA_CTRL then anaCtrlWrite s d a v else if Reg.ANA_ADC_CFG 0 ≤ a ∧ a ≤ Reg.ANA_ADC_CFG 3 then adcCfgWrite s d ((a - Reg.ANA_ADC_CFG 0) / 4) a v else plainWrite s d a v)
  | 0x4042 =>
    let p := (a - Reg.TDM_CTRL 0) / 0x1000
    if a % 0x1000 = 0 then (let r := tdmCtrlWrite s p v; (r.1, mpllRecheck r.2)) else if a % 0x1000 = 4 then tdmFrameWrite s p v else ok (plainWrite s d a v)
  | 0x4050 => ethRegWrite s d 0 a v
  | 0x4051 => ethRegWrite s d 1 a v
  | 0x4052 => ethRegWrite s d 2 a v
  | 0x4053 =>
    if a = Reg.STR_NOISE_SEED then ok (let t := plainWrite s d a v; { t with stream := { t.stream with lfsr := lfsrSeed v } })
    else if Reg.STX_CTRL 0 ≤ a ∧ a < Reg.SRX_CTRL 0 then streamWrite s false ((a - Reg.STX_CTRL 0) / 32) (a % 32 / 4) v
    else if Reg.SRX_CTRL 0 ≤ a then streamWrite s true ((a - Reg.SRX_CTRL 0) / 32) (a % 32 / 4) v
    else ok (plainWrite s d a v)
  | 0x4054 => ok (timeRegWrite s d a v)
  | 0x4060 => hostRegWrite s d a v
  | 0x4061 =>
    ok (cspMoved s (if a = Reg.CSP_CTRL then cspCtrlWrite s v slave else if a = Reg.CSP_M_LEN then cspLenWrite s v
      else if a = Reg.CSP_M_FIFO then cspPush s v else if a = Reg.CSP_SL_CFG then cspSlCfgWrite s v else plainWrite s d a v))
  | 0x4070 => ok (if a = Reg.SUP_CTRL then supCtrlWrite s v else plainWrite s d a v)
  | 0x4071 =>
    ok (if a = Reg.FAR_BANK_REQ then bankRequest s v else if a = Reg.FAR_INIT then farInit s v else plainWrite s d a v)
  | 0x4080 => tetherRegWrite s d a v
  | 0x4090 => ok (gpioRegWrite s d a v)
  | _ => ok (plainWrite s d a v)

/-! ### Decode (R503, R504) -/

/-- Whether address `a` lies in a window that answers no longer: that of a lost role or of a spare used up (R18, R459). -/
def regClosed (s : State) (a : Nat) : Bool :=
  if Reg.RILL_CTRL 0 ≤ a ∧ a < Reg.RILL_CTRL 17 then
    (if rillOf a = 16 then !farSpare s farRill else roleLost s (rillOf a))
  else if Reg.BASIN_CTRL 0 ≤ a ∧ a < Reg.CC_STATUS then
    (if basinOf a = 8 then !farSpare s farBasin else roleLost s (17 + basinOf a))
  else false

/-- SIZE_ERR. -/
def sizeErr (s : State) : State := s.raise Reg.SYS_STATUS 8#32

/-- Record an access to an unassigned offset. -/
def unmapped (s : State) (a m : Nat) (write : Bool) : State :=
  (s.raise Reg.SYS_STATUS 4#32).setReg Reg.SYS_UNMAPPED (BitVec.ofNat 32 (a % 2 ^ 24 + m * 2 ^ 24 + if write then 2 ^ 29 else 0))

/-- Whether `n` bytes from `a` cross a register boundary. -/
def regCrosses (a n : Nat) : Bool := decide (4 < a % 4 + n)

/-- A read of `n` bytes (1, 2 or 4) at `a` inside a block's range by master `m` (Table 22-4). -/
def regReadBytes (s : State) (a n m : Nat) : List Byte × Bool × State :=
  let r := a / 4 * 4
  if regClosed s r then (List.replicate n 0#8, true, s)
  else if regCrosses a n then (List.replicate n 0#8, true, sizeErr s)
  else if (regFind r).isNone then (List.replicate n 0#8, false, unmapped s a m false)
  else
    let x := regRead s r
    (((leBytes x.1 4).drop (a % 4)).take n, false, x.2)

/-- A write of bytes at `a` inside a block's range by master `m` (Table 22-4). -/
def regWriteBytes (s : State) (a : Nat) (bs : List Byte) (m : Nat) (slave : Bool) : Bool × State :=
  let r := a / 4 * 4
  if regClosed s r then (true, s)
  else if regCrosses a bs.length then (true, sizeErr s)
  else
    match regFind r with
    | none => (false, unmapped s a m true)
    | some d => if bs.length = 4 then regWrite s d a (leWord bs) m slave else (true, sizeErr s)

end Sys2Proof.Machine
end

