-- ==== Sys2Proof/Machine/Windows.lean ====
section
/-! DEFINITION. Word-space windows: the engines' memories and the tables of the fabric, the rill bus and the cascade unit (R85, R89,
R101 to R104, R146 to R148, R229, R241). -/
namespace Sys2Proof.Machine

/-! ### What a window access answers -/

/-- A word read through the ECC of the word at address `a`, its event recorded at `site` (R104). -/
def windowRead (s : State) (a : Nat) (site : EccSite) (field : Nat) (w : Word) : Word × Bool × State :=
  (eccWord (s.mark a) w, false, s.eccEvent site (s.mark a) field)

/-- A refused window write: an error response, and the flag `m` of the status register `st`. -/
def windowError (s : State) (st : Nat) (m : BitVec 32) : Bool × State := (true, s.raise st m)

/-- A performed window write: the words written, at the addresses `l`, have fresh ECC. -/
def windowStored (s : State) (l : List Nat) : Bool × State := (false, { s with ecc := l.foldl (fun c a => Cells.set c a 0#2) s.ecc })

/-- A word at offset `o` of rill role `n`'s window, and the same word of REX while it shadows the role. -/
def rillTwin (s : State) (n o : Nat) : List Nat := (rillWin n + o) :: (if rexShadows s n then [rillWin 16 + o] else [])

/-- A word at offset `o` of basin role `n`'s window, and the same word of BEX while it shadows the role. -/
def basinTwin (s : State) (n o : Nat) : List Nat := (basinWin n + o) :: (if bexShadows s n then [basinWin 8 + o] else [])

/-! ### Rill engines (Table 04-5) -/

/-- A word of program store word `k`: the low or the high half of a step. -/
def progWord (p : Cells (BitVec 64)) (k : Nat) : Word := ((Cells.get p (k / 2)).extractLsb' (32 * (k % 2)) 32).zeroExtend 36

/-- The program store with word `k` written. -/
def progPut (p : Cells (BitVec 64)) (k : Nat) (w : Word) : Cells (BitVec 64) :=
  let old := Cells.get p (k / 2)
  let x := w.extractLsb' 0 32
  Cells.set p (k / 2) (if k % 2 = 0 then old.extractLsb' 32 32 ++ x else x ++ old.extractLsb' 0 32)

/-- Whether a selection covers page `k` (R72). -/
def pageCovered (page len k : Nat) : Bool := decide (page ≤ k) && decide (k < page + (len + 16383) / 16384)

/-- Whether program page `k` of role `n` is in use (R74). -/
def pageInUse (s : State) (n k : Nat) : Bool :=
  let e := vget s.rill n RillEngine.zero
  (e.runA && pageCovered e.pageA.toNat e.lenA.toNat k)
    || (decide (n < 16) && (setAt s n).committed && s.bit (Reg.RILL_CTRL n) 0
        && pageCovered (s.fld (Reg.RILL_PROG n) 16 2) (s.fld (Reg.RILL_PROG n) 0 16) k)

/-- Whether the window of rill role `n` answers no longer. -/
def rillClosed (s : State) (n : Nat) : Bool := regClosed s (Reg.RILL_CTRL n)

/-- A read at offset `o` of the window of rill role `n`. -/
def rillWinRead (s : State) (n o : Nat) : Word × Bool × State :=
  let e := vget s.rill n RillEngine.zero
  let a := rillWin n + o
  if rillClosed s n then (0#36, true, s)
  else if o < 0x20000 then windowRead s a (rillSite n) (rillLoc 0 o) (Cells.get e.cistern o)
  else if o < 0x38000 then windowRead s a (rillSite n) (rillLoc 1 ((o - 0x20000) / 2)) (progWord e.prog (o - 0x20000))
  else if o < 0x3D300 then
    if s.bit (Reg.RILL_CTRL n) 1 then windowRead s a (rillSite n) (rillLoc 2 (o - 0x38000)) (Cells.get e.stA (o - 0x38000))
    else windowRead s (shadowKey + a) (rillSite n) (rillLoc 2 (o - 0x38000)) (Cells.get e.stS (o - 0x38000))
  else (0#36, false, s)

/-- A write at offset `o` of the window of rill role `n`. The spare's windows take writes only while it is parked (R103). Every word of
a staged memory is stored whole: the reserved bits of Tables 04-4 and 04-6 read back as written (DESIGN CHOICE, log entry 62: the tables
say only that they are written 0). -/
def rillWinWrite (s : State) (n o : Nat) (w : Word) : Bool × State :=
  let st := Reg.RILL_STATUS n
  if rillClosed s n then (true, s)
  else if n = 16 ∧ rexParked s = false then windowError s st 8#32
  else if o < 0x20000 then
    windowStored (onRill s n fun (e : RillEngine) => { e with cistern := Cells.set e.cistern o w }) (rillTwin s n o)
  else if o < 0x38000 then
    if pageInUse s n ((o - 0x20000) / 0x8000) then windowError s st 0x10#32
    else windowStored (onRill s n fun (e : RillEngine) => { e with prog := progPut e.prog (o - 0x20000) w }) (rillTwin s n o)
  else if o < 0x3D300 then
    if s.bit (Reg.RILL_CTRL n) 1 then windowError s st 8#32
    else if n ≠ 16 ∧ stageBusy s n = true then (true, stageReject s n)
    else windowStored (onRill s n fun (e : RillEngine) => { e with stS := Cells.set e.stS (o - 0x38000) w })
      ((rillTwin s n o).map (shadowKey + ·))
  else windowError s st 8#32

/-! ### Basin engines (Table 06-5) -/

/-- ADDR and MEM of BASIN_ERRADDR. -/
def basinLoc (mem addr : Nat) : Nat := addr + mem * 2 ^ 18

/-- Whether half `h` of the code store of role `n` is in use (R146). -/
def halfInUse (s : State) (n : Nat) (h : Bool) : Bool :=
  let e := vget s.basin n BasinEngine.zero
  (e.runA && e.halfA == h)
    || (decide (n < 8) && (setAt s (16 + n)).committed && s.bit (Reg.BASIN_CTRL n) 0 && s.bit (Reg.BASIN_CTRL n) 2 == h)

/-- Whether the window of basin role `n` answers no longer. -/
def basinClosed (s : State) (n : Nat) : Bool := regClosed s (Reg.BASIN_CTRL n)

/-- A read at offset `o` of the window of basin role `n`. -/
def basinWinRead (s : State) (n o : Nat) : Word × Bool × State :=
  let e := vget s.basin n BasinEngine.zero
  let a := basinWin n + o
  if basinClosed s n then (0#36, true, s)
  else if o < 0x40000 then windowRead s a (basinSite n) (basinLoc 0 o) (Cells.get e.ls o)
  else if o < 0x50000 then
    windowRead s a (basinSite n) (basinLoc 1 (o - 0x40000)) ((Cells.get e.code (o - 0x40000)).zeroExtend 36)
  else if o < 0x52100 then
    let loc := if o < 0x52000 then basinLoc 2 (o - 0x50000) else basinLoc 3 (o - 0x52000)
    if s.bit (Reg.BASIN_CTRL n) 1 then windowRead s a (basinSite n) loc (Cells.get e.stA (o - 0x50000))
    else windowRead s (shadowKey + a) (basinSite n) loc (Cells.get e.stS (o - 0x50000))
  else (0#36, false, s)

/-- A write at offset `o` of the window of basin role `n`. Staged words are stored whole: reserved bits of Table 06-3 read back as written
(DESIGN CHOICE, log entry 62). -/
def basinWinWrite (s : State) (n o : Nat) (w : Word) : Bool × State :=
  let st := Reg.BASIN_STATUS n
  if basinClosed s n then (true, s)
  else if n = 8 ∧ bexParked s = false then windowError s st 0x40#32
  else if o < 0x40000 then
    windowStored (onBasin s n fun (e : BasinEngine) => { e with ls := Cells.set e.ls o w }) (basinTwin s n o)
  else if o < 0x50000 then
    if halfInUse s n (decide (0x48000 ≤ o)) then windowError s st 0x80#32
    else windowStored (onBasin s n fun (e : BasinEngine) => { e with code := Cells.set e.code (o - 0x40000) (w.extractLsb' 0 32) })
      (basinTwin s n o)
  else if o < 0x52100 then
    if s.bit (Reg.BASIN_CTRL n) 1 then windowError s st 0x40#32
    else if n ≠ 8 ∧ stageBusy s (16 + n) = true then (true, stageReject s (16 + n))
    else windowStored (onBasin s n fun (e : BasinEngine) => { e with stS := Cells.set e.stS (o - 0x50000) w })
      ((basinTwin s n o).map (shadowKey + ·))
  else windowError s st 0x40#32

/-! ### Fabric, rill bus and cascade tables (Tables 09-10 and 10-4) -/

/-- A read of word-space address `a` in 0xFA0000 to 0xFEFFFF. -/
def fabricWinRead (s : State) (a : Nat) : Word × Bool × State :=
  if a < 0xFD1800 then
    if s.bit Reg.FABRIC_CTRL 0 then windowRead s a fabricSite (a - 0xFA0000) (Cells.get s.fabric.stA (a - 0xFA0000))
    else windowRead s (shadowKey + a) fabricSite (a - 0xFA0000) (Cells.get s.fabric.stS (a - 0xFA0000))
  else if a < 0xFD2000 then
    if s.bit Reg.RB_CTRL 0 then windowRead s a busSite (a - 0xFD1800 + 4096) (Cells.get s.bus.stA (a - 0xFD1800))
    else windowRead s (shadowKey + a) busSite (a - 0xFD1800 + 4096) (Cells.get s.bus.stS (a - 0xFD1800))
  else if a < 0xFD2800 then (stallClaim s (a - 0xFD2000), false, s)
  else if a < 0xFD2C00 then (troughStateWord s (a - 0xFD2800), false, s)
  else if 0xFE0000 ≤ a then (weirLevelWord s (a - 0xFE0000), false, s)
  else (0#36, false, s)

/-- A write of word-space address `a` in 0xFA0000 to 0xFEFFFF. Table words are stored whole: reserved bits of Tables 09-3, 09-6, 09-8 and
09-9 read back as written (DESIGN CHOICE, log entry 62). -/
def fabricWinWrite (s : State) (a : Nat) (w : Word) : Bool × State :=
  if a < 0xFD1800 then
    if s.bit Reg.FABRIC_CTRL 0 then windowError s Reg.FABRIC_STATUS 0x80#32
    else if stageBusy s setFabric then (true, stageReject s setFabric)
    else windowStored { s with fabric := { s.fabric with stS := Cells.set s.fabric.stS (a - 0xFA0000) w } } [shadowKey + a]
  else if a < 0xFD2000 then
    if s.bit Reg.RB_CTRL 0 then windowError s Reg.RB_STATUS 0x20#32
    else if stageBusy s setBus then (true, stageReject s setBus)
    else windowStored { s with bus := { s.bus with stS := Cells.set s.bus.stS (a - 0xFD1800) w } } [shadowKey + a]
  else if a < 0xFD2C00 then windowError s Reg.RB_STATUS 0x20#32
  else windowError s Reg.FABRIC_STATUS 0x80#32

/-- A read of word-space address `a` in 0xFF0000 to 0xFFFFFF. -/
def cascadeWinRead (s : State) (a : Nat) : Word × Bool × State :=
  let o := a - 0xFF0000
  if o < 0x8400 then
    if s.bit Reg.CASCADE_CTRL 0 then windowRead s a cascadeSite o (Cells.get s.cascade.stA o)
    else windowRead s (shadowKey + a) cascadeSite o (Cells.get s.cascade.stS o)
  else if o < 0xC000 then (0#36, true, s.raise Reg.CASCADE_STATUS 0x80#32)
  else windowRead s a cascadeSite o (Cells.get s.cascade.hist (o - 0xC000))

/-- A write of word-space address `a` in 0xFF0000 to 0xFFFFFF. Table words are stored whole: reserved bits of Tables 10-2 and 10-3 read
back as written (DESIGN CHOICE, log entry 62). -/
def cascadeWinWrite (s : State) (a : Nat) (w : Word) : Bool × State :=
  let o := a - 0xFF0000
  if o < 0x8400 ∧ s.bit Reg.CASCADE_CTRL 0 = false then
    if stageBusy s setCascade then (true, stageReject s setCascade)
    else windowStored { s with cascade := { s.cascade with stS := Cells.set s.cascade.stS o w } } [shadowKey + a]
  else windowError s Reg.CASCADE_STATUS 0x80#32

/-! ### Word space above the yard (Table 22-2) -/

/-- A read of word-space address `a`, 0x800000 or above: the word, whether the response is an error, and the state. -/
def winRead (s : State) (a : Nat) : Word × Bool × State :=
  if a < 0xC40000 then rillWinRead s ((a - 0x800000) / 0x40000) ((a - 0x800000) % 0x40000)
  else if a < 0xFA0000 then basinWinRead s ((a - 0xC40000) / 0x60000) ((a - 0xC40000) % 0x60000)
  else if a < 0xFF0000 then fabricWinRead s a
  else cascadeWinRead s a

/-- A write of word-space address `a`, 0x800000 or above: whether the response is an error, and the state. -/
def winWrite (s : State) (a : Nat) (w : Word) : Bool × State :=
  if a < 0xC40000 then rillWinWrite s ((a - 0x800000) / 0x40000) ((a - 0x800000) % 0x40000) w
  else if a < 0xFA0000 then basinWinWrite s ((a - 0xC40000) / 0x60000) ((a - 0xC40000) % 0x60000) w
  else if a < 0xFF0000 then fabricWinWrite s a w
  else cascadeWinWrite s a w

end Sys2Proof.Machine
end

