-- ==== Sys2Proof/Machine/Crossbar.lean ====
section
/-! DEFINITION. The crossbar: which master reaches which target, the execute-in-place cache, the tack room, accesses that wait, and the
accesses of every master (chapter 16, R153, R348, R501 to R505, R514). -/
namespace Sys2Proof.Machine

/-! ### Flash and the execute-in-place cache (R153, R416) -/

/-- EN of the cache; INV_BUSY. -/
def cacheOn (s : State) : Bool := s.bit Reg.CC_CACHE 0 && !s.bit Reg.CC_CACHE 2

/-- The bytes of 64-byte flash line `l`. -/
def flashLine (s : State) (l : Nat) : List Byte := (List.range 64).map fun i => flashByte s (64 * l + i)

/-- The set of a line: one of 128. -/
def cacheSet (l : Nat) : Nat := l % 128

/-- Put line `l` into the cache: into the first free way of its set, or over the line of a way the spec does not name. -/
def cacheInsert (s : State) (l : Nat) : State :=
  let mine := s.cc.cache.filter fun e => decide (cacheSet e.line = cacheSet l)
  let free := (List.range 4).find? fun w => !(mine.any fun e => decide (e.way = w))
  let t := match free with
    | some w => (w, s)
    | none => let f := s.takeFree; ((Config.freeWay f.1).toNat, f.2)
  let kept := s.cc.cache.filter fun e => !(decide (cacheSet e.line = cacheSet l) && decide (e.way = t.1))
  { t.2 with cc := { t.2.cc with cache := kept ++ [⟨t.1, l, flashLine s l⟩] } }

/-- Line `l` as the control core gets it: from the cache, which does not follow flash programming, or by one line fill. -/
def cacheLine (s : State) (l : Nat) : List Byte × State :=
  let s1 := s.count Reg.CC_CACHE_MISS 0 32 1
  if cacheOn s then
    match s.cc.cache.find? fun e => decide (e.line = l) with
    | some e => (e.bytes, s)
    | none => (flashLine s l, cacheInsert s1 l)
  else (flashLine s l, s1)

/-- `n` bytes of flash from `a` as the control core reads them. -/
def cacheRead (s : State) (a n : Nat) : List Byte × State :=
  let lines := (List.range (((a + n - 1) / 64) - a / 64 + 1)).map fun i => a / 64 + i
  let r := lines.foldl (fun (p : List Byte × State) l => let q := cacheLine p.2 l; (p.1 ++ q.1, q.2)) ([], s)
  (((r.1.drop (a % 64)).take n), r.2)

/-- A flash read by master `m`: the control core reads through the cache. -/
def flashRead (s : State) (m a n : Nat) : List Byte × State :=
  if m ≤ 1 then cacheRead s a n else ((List.range n).map fun i => flashByte s (a + i), s)

/-! ### The tack room (R390 to R392) -/

/-- The ECC mark of tack-room word `w`. -/
def tackMark (s : State) (w : Nat) : BitVec 2 := Cells.get s.boot.tackEcc w

/-- Record the ECC event of tack-room word `w`; a corrected word is written back (R380). -/
def tackEvent (s : State) (w : Nat) : State :=
  let s1 := s.eccEvent memSite (tackMark s w) (w + 2 ^ 24)
  if tackMark s w = 1#2 then { s1 with boot := { s1.boot with tackEcc := Cells.set s1.boot.tackEcc w 0#2 } } else s1

/-- Tack-room word `w` as read. -/
def tackWord (s : State) (w : Nat) : BitVec 32 := eccWord (tackMark s w) (Cells.get s.boot.tack w)

/-- A tack-room read of `n` bytes at offset `o`. -/
def tackRead (s : State) (o n : Nat) : List Byte × Bool × State :=
  if tackShut s then (List.replicate n 0#8, true, tackReject s)
  else
    let ws := byteWords o n
    let s1 := ws.foldl tackEvent s
    if ws.any fun w => decide (tackMark s w = 2#2) then (List.replicate n 0#8, true, s1)
    else ((List.range n).map fun i => (tackWord s ((o + i) / 4)).extractLsb' (8 * ((o + i) % 4)) 8, false, s1)

/-- Store one byte of the tack room: a read-modify-write of its word. -/
def tackPut (s : State) (o : Nat) (b : Byte) : State :=
  let s1 := tackEvent s (o / 4)
  { s1 with boot := { s1.boot with tack := Cells.set s1.boot.tack (o / 4) (putByte (tackWord s (o / 4)) (o % 4) b),
                                   tackEcc := Cells.set s1.boot.tackEcc (o / 4) 0#2 } }

/-- Store enabled bytes from offset `o` with `put`. -/
def putEnabled (put : State → Nat → Byte → State) (s : State) (o : Nat) : List (Option Byte) → State
  | [] => s
  | none :: t => putEnabled put s (o + 1) t
  | some b :: t => putEnabled put (put s o b) (o + 1) t

/-- A tack-room write at offset `o`. -/
def tackWrite (s : State) (o : Nat) (bs : List (Option Byte)) : Bool × State :=
  if tackShut s || s.bit Reg.TACK_CTRL 0 then (true, tackReject s) else (false, putEnabled tackPut s o bs)

/-! ### Targets (Table 16-5, Tables 22-1 and 22-2) -/

/-- The targets of byte space. -/
inductive ByteTarget where
  | flash
  | yard
  | tack
  | regs
  | none
  deriving DecidableEq, Repr

/-- The target that byte address `a` names. -/
def byteTarget (a : Nat) : ByteTarget :=
  if a < 0x800000 then .flash
  else if 0x10000000 ≤ a ∧ a < 0x12000000 then .yard
  else if 0x20000000 ≤ a ∧ a < 0x20004000 then .tack
  else if 0x40000000 ≤ a ∧ a < 0x41000000 ∧ inRegBlock a = true then .regs
  else .none

/-- Whether the debug master is admitted to the crossbar (R437). -/
def debugOn (s : State) (m : Nat) : Bool := decide (m = masterDebug) && debugOpen s

/-- Whether `a` is a register that the MAILBOX instruction reaches while the debug port is closed (R437). -/
def mailbox (a : Nat) : Bool :=
  decide (a / 4 * 4 = Reg.DBG_CTL) || (decide (Reg.DBG_RESP 0 ≤ a) && decide (a < Reg.DBG_RESP 32))

/-- Whether Table 16-5 gives master `m` the target `t`. -/
def byteReach (s : State) (m a : Nat) (t : ByteTarget) (write : Bool) : Bool :=
  match t with
  | .flash => !write && (decide (m = masterCcD) || decide (m = masterHost) || debugOn s m)
  | .yard => decide (m ≠ masterCcI) && decide (m ≠ masterDebug ∨ debugOpen s = true)
  | .tack => decide (m = masterCcD) || (debugOn s m && decide (lifeCycle s ≤ 1))
  | .regs => decide (m = masterCcD) || decide (m = masterHost) || debugOn s m || (decide (m = masterDebug) && mailbox a)
  | .none => false

/-- The target of an access of `n` bytes at `a` by master `m`; an access that leaves its target's range has none (R378, R394, R504). -/
def byteRoute (s : State) (m a n : Nat) (write : Bool) : ByteTarget :=
  let t := byteTarget a
  if byteReach s m a t write && (decide (t = .regs) || decide (n = 0) || decide (byteTarget (a + n - 1) = t)) then t else .none

/-- Whether master `m` reaches word-space address `a`. -/
def wordReach (s : State) (m a : Nat) : Bool :=
  if a < 0x800000 then decide (m ≠ masterCcI) && decide (m ≠ masterDebug ∨ debugOpen s = true)
  else decide (m = masterCcD) || decide (m = masterHost) || decide (m = masterFarrier) || debugOn s m

/-! ### Accesses -/

/-- A word-space read: the word, whether the response is an error, and the state. -/
def xReadWord (s : State) (m a : Nat) : Word × Bool × State :=
  if !wordReach s m a then (0#36, true, defaultTarget s m a true false)
  else if a < 0x800000 then yardRead s m a
  else winRead s a

/-- A word-space write: whether the response is an error, and the state. -/
def xWriteWord (s : State) (m a : Nat) (w : Word) : Bool × State :=
  if !wordReach s m a then (true, defaultTarget s m a true true)
  else if a < 0x800000 then yardWrite s m a w
  else winWrite s a w

/-- A byte-space read of `n` bytes at `a`. -/
def xReadBytes (s : State) (m a n : Nat) : List Byte × Bool × State :=
  match byteRoute s m a n false with
  | .flash => let r := flashRead s m a n; (r.1, false, r.2)
  | .yard => yardReadBytes s m (a - 0x10000000) n
  | .tack => tackRead s (a - 0x20000000) n
  | .regs => regReadBytes s a n m
  | .none => (List.replicate n 0#8, true, defaultTarget s m a false false)

/-- Store one byte of the byte view (R377). -/
def yardPutByte (s : State) (o : Nat) (b : Byte) : State := yardPutBytes s o [b]

/-- The first enabled byte's place in a write, and the enabled bytes. -/
def enabledFrom (bs : List (Option Byte)) : Nat × List Byte := ((bs.takeWhile Option.isNone).length, bs.filterMap id)

/-- A byte-space write at `a`; `slave` marks a write that arrives over the CSP slave. Disabled bytes are not written. -/
def xWriteBytes (s : State) (m a : Nat) (bs : List (Option Byte)) (slave : Bool) : Bool × State :=
  match byteRoute s m a bs.length true with
  | .yard =>
    let o := a - 0x10000000
    if yardAdmitsBytes s m o bs.length then (false, putEnabled yardPutByte s o bs)
    else (true, ownErr s m (yardRefusedWord s m o bs.length) true)
  | .tack => tackWrite s (a - 0x20000000) bs
  | .regs =>
    let e := enabledFrom bs
    if e.2.isEmpty then (false, s) else regWriteBytes s (a + e.1) e.2 m slave
  | .flash | .none => (true, defaultTarget s m a false true)

/-! ### Accesses that wait (R385, R389, R416) -/

/-- Whether word-space address `a` lies in an engine window while the clear runs, which clears the engines' memories too (R105, R149;
DEDUCED, log entry 108: CLEARING is the one sign of a clear that the spec gives). -/
def engineClearing (s : State) (a : Nat) : Bool := memClearing s && decide (a < 0xFA0000)

/-- Whether the access waits for the clear, for a handover, for a trough writer's row or for a flash operation. -/
def accessWaits (s : State) (m : Nat) (x : Access) : Bool :=
  let bytes := fun (a n : Nat) (write : Bool) =>
    match byteRoute s m a n write with
    | .flash => s.bit Reg.FL_STATUS 0
    | .yard => (byteWords (a - 0x10000000) n).any (if write then yardHolds s m else yardReadHolds s m)
    | .tack => memClearing s
    | _ => false
  match x with
  | .readWord a => wordReach s m a.toNat && (if a.toNat < 0x800000 then yardReadHolds s m a.toNat else engineClearing s a.toNat)
  | .writeWord a _ => wordReach s m a.toNat && (if a.toNat < 0x800000 then yardHolds s m a.toNat else engineClearing s a.toNat)
  | .readBytes a n => bytes a.toNat n false
  | .writeBytes a bs => bytes a.toNat bs.length true

/-- Record a failed or discarded inbound write (R348). -/
def inbErr (s : State) (bar off : Nat) : State :=
  (s.raise Reg.HOST_STATUS 0x400#32).setReg Reg.HOST_INB_ERRADDR (BitVec.ofNat 32 (off % 2 ^ 25 + bar * 2 ^ 25))

/-- The response to an access and the state after it; `slave` marks an access of the CSP slave. -/
def accessRun (s : State) (m : Nat) (x : Access) (slave : Bool := false) : Response × State :=
  match x with
  | .readWord a => let r := xReadWord s m a.toNat; (⟨r.1, [], r.2.1⟩, r.2.2)
  | .writeWord a w => let r := xWriteWord s m a.toNat w; (⟨0#36, [], r.1⟩, r.2)
  | .readBytes a n => let r := xReadBytes s m a.toNat n; (⟨0#36, r.1, r.2.1⟩, r.2.2)
  | .writeBytes a bs => let r := xWriteBytes s m a.toNat bs slave; (⟨0#36, [], r.1⟩, r.2)

/-- PENDING of the banks whose handover follows an access: such an access was accepted before it, and meets the old owner (R385). -/
def acceptedPending (h : HeldAccess) (b : Bool) (s : State) : State := h.accepted.foldl (fun t k => t.setBit (Reg.MEM_BANK_OWNER k) 8 b) s

/-- Whether an access is a write that its target discards without an error: of an offset that no register has (Table 22-4). -/
def writeLost (s : State) (m : Nat) (x : Access) : Bool :=
  match x with
  | .writeBytes a bs => decide (byteRoute s m a.toNat bs.length true = .regs) && bs.any Option.isSome && (regFind (a.toNat / 4 * 4)).isNone
  | _ => false

/-- An access of the CSP slave that waited ends: an error response is recorded, in the trailer of its transaction too while that is open
(R409). -/
def slaveEnds (s : State) (mine err : Bool) : State :=
  if err then
    let s1 := s.raise Reg.CSP_STATUS 16#32
    if mine then { s1 with csp := { s1.csp with txn := s1.csp.txn.map fun t => { t with erred := true } } } else s1
  else s

/-- The response of an access reaches its master, or the CSP slave. -/
def respond (s : State) (h : HeldAccess) (r : Response) : State :=
  match h.slave with
  | some mine => slaveEnds s mine r.err
  | none => if h.quiet then s else { s with resp := vset s.resp h.master r }

/-- Perform an access: the master receives its response, a completer abort is reported to the host, and an inbound write that gets an error
or is discarded is recorded (R346, R348). -/
def accessDo (s : State) (h : HeldAccess) : State :=
  let r := accessRun (acceptedPending h false s) h.master h.access h.slave.isSome
  let s2 := respond (acceptedPending h true r.2) h r.1
  match h.bar with
  | some b => if r.1.err || writeLost s h.master h.access then inbErr s2 b.1 b.2 else s2
  | none => s2

/-- An access arrives: it is performed, or waits in its master's issue order. -/
def access (s : State) (h : HeldAccess) : State :=
  if masterWaits s h.master || accessWaits (acceptedPending h false s) h.master h.access then s.hold h else accessDo s h

/-- Whether master `m` is of the processor class (Table 16-3). -/
def isProcessor (m : Nat) : Bool := decide (m ≤ 1) || decide (m = masterDebug)

/-- Accesses in round-robin order of their masters, each master's in its issue order. -/
def roundRobin (l : List HeldAccess) : List HeldAccess :=
  let n := l.zipIdx.map fun x => (x.1, (l.take x.2).countP fun h => decide (h.master = x.1.master))
  (List.range l.length).flatMap fun r => (n.filter fun x => decide (x.2 = r)).map Prod.fst

/-- The accesses that wait, in the order in which a target grants them: the processor class before the DMA class, and within a class the
masters in turn, from the one that has waited longest (R384, R393; DESIGN CHOICE, log entry 116: the arbiter's position is not given). -/
def serveOrder (l : List HeldAccess) : List HeldAccess :=
  roundRobin (l.filter fun h => isProcessor h.master) ++ roundRobin (l.filter fun h => !isProcessor h.master)

/-- Serve the accesses that no longer wait. -/
def serveHeld (s : State) : State := (serveOrder s.heldAcc).foldl access { s with heldAcc := [] }

/-- A master's access that is no inbound request. -/
def masterAccess (s : State) (m : Nat) (x : Access) : State := access s { master := m, access := x }

/-! ### Handover, clear and wipe -/

/-- Whether an access that the old owner of bank `b` was accepted for is outstanding. -/
def bankDrains (s : State) (b : Nat) : Bool := s.heldAcc.any fun h => h.accepted.contains b

/-- HANDOVER_COMPLETE (R385): once every access accepted for the old owner has completed, CUR takes the new code, PENDING clears, and held
requests are served. -/
def handoverComplete (s : State) (b : Nat) : State :=
  if bankPending s b && !bankDrains s b then
    serveHeld ((s.setFld (Reg.MEM_BANK_OWNER b) 16 5 (s.fld (Reg.MEM_BANK_OWNER b) 0 5)).setBit (Reg.MEM_BANK_OWNER b) 8 false)
  else s

/-- WAKE_CLEAR_END (R389): held accesses are performed, and stage 0 reads the image of a BOOT_RUN that waited. -/
def clearEnd (s : State) : State :=
  if memClearing s then
    let s1 := serveHeld (s.lower Reg.MEM_STATUS 0x100#32)
    if s1.boot.goWait then bootGo { s1 with boot := { s1.boot with goWait := false } } else s1
  else s

/-- TAMPER (R392): the filtered falling edge of TAMPER_N wipes the tack room and raises an event to the supervisor. -/
def tamper (s : State) : State :=
  let s1 := (s.raise Reg.MEM_STATUS 0x240#32).supEvent .tamper
  { s1 with boot := { s1.boot with tack := [], tackEcc := [] }, power := { s1.power with tamperLow := true } }

/-- TACK_WIPE_END (R392): the wipe completes and WLOCK clears. -/
def wipeEnd (s : State) : State :=
  if s.bit Reg.MEM_STATUS 9 then tackWipe (s.lower Reg.MEM_STATUS 0x200#32) else s

/-- An error of a spare bank's word: counted and recorded, a corrected word written back (R380, R381). -/
def spareEcc (s : State) (mark : BitVec 2) (k : Nat) : State :=
  let f := s.takeFree
  let s1 := f.2.eccEvent memSite mark (Config.freeSpareAddr f.1 % 2 ^ 23)
  if mark = 1#2 then { s1 with ecc := Cells.set s1.ecc k 0#2 } else s1

/-- SCRUB_ROW (R381): row `r` of every bank is read, those of spares that hold no logical bank too; errors act as on a read (R380). -/
def scrubRow (s : State) (r : Nat) : State :=
  if s.bit Reg.MEM_CTRL 0 then
    let bad := s.ecc.filter fun e => decide (e.1 % 0x40000 / 4 = r)
    let s1 := (bad.filter fun e => decide (e.1 < 0x800000)).foldl (fun t e => yardEcc t e.2 e.1) s
    (bad.filter fun e => decide (spareKey (spareBank s) ≤ e.1) && decide (e.1 < spareKey 36)).foldl (fun t e => spareEcc t e.2 e.1) s1
  else s

/-- CORRECTED_WORD_WRITE_BACK of yard word `w` (R380). -/
def writeBack (s : State) (w : Nat) : State :=
  if Cells.read (fun _ => false) s.wb w then
    let s1 := { s with wb := Cells.write (fun _ => false) s.wb w false }
    if s.mark w = 1#2 then { s1 with ecc := Cells.set s1.ecc w 0#2 } else s1
  else s

/-! ### Inbound PCIe requests (R347, R348) -/

/-- DWORD `k` of BAR2: the doorbell page, the MSI-X table and the pending bits. -/
def bar2Word (s : State) (k : Nat) : BitVec 32 :=
  if k < 64 then BitVec.ofNat 32 (ringPi s k)
  else if 0x400 ≤ k ∧ k < 0x480 then msixWord s (k - 0x400)
  else if k = 0x600 then s.host.pba
  else 0#32

/-- Store one byte of BAR2: only the MSI-X table takes it. -/
def bar2Put (s : State) (o : Nat) (b : Byte) : State :=
  let k := o / 4
  if 0x400 ≤ k ∧ k < 0x480 then
    let x := putByte (msixWord s (k - 0x400)) (o % 4) b
    { s with host := { s.host with msix := Cells.write msixReset s.host.msix (k - 0x400) (if k % 4 = 3 then x &&& 1#32 else x) } }
  else s

/-- The response of a request that the function answers itself. -/
def hostAnswer (s : State) (bs : List Byte) (err : Bool) : State := { s with resp := vset s.resp masterHost ⟨0#36, bs, err⟩ }

/-- A read that ends in a Completer Abort (R348). -/
def hostAbort (s : State) (n : Nat) : State := aerError (hostAnswer s (List.replicate n 0#8) true) 15

/-- An inbound read that enters the crossbar: an error response becomes a Completer Abort (R348). -/
def hostRead (s : State) (a n : Nat) : State :=
  let t := access s { master := masterHost, access := .readBytes (BitVec.ofNat 32 a) n }
  if t.heldAcc.length ≤ s.heldAcc.length ∧ (vget t.resp masterHost ⟨0#36, [], false⟩).err = true then aerError t 15 else t

/-- An inbound read of `n` bytes at offset `o` of BAR `b` (0, 2 or 4). -/
def barRead (s : State) (b o n : Nat) : State :=
  if b = 2 then hostAnswer s ((List.range n).map fun i => (bar2Word s ((o + i) / 4)).extractLsb' (8 * ((o + i) % 4)) 8) false
  else if b = 4 then
    if s.bit Reg.HOST_CTRL 1 then hostRead s (0x10000000 + o) n else hostAbort s n
  else if 4 < o % 4 + n then hostAbort s n
  else hostRead s (0x40000000 + o) n

/-- The doorbells that a write at offset `o` of BAR2 rings: each whole DWORD of the doorbell page, with its value; shorter writes are ignored
(R348). -/
def barDoorbells (o : Nat) (bs : List (Option Byte)) : List (Nat × BitVec 32) :=
  (List.range 64).filterMap fun r =>
    let d := (List.range 4).filterMap fun i => if o ≤ 4 * r + i then (bs[4 * r + i - o]?).join else none
    if d.length = 4 then some (r, leWord d) else none

/-- An inbound write at offset `o` of BAR `b`. -/
def barWrite (s : State) (b o : Nat) (bs : List (Option Byte)) : State :=
  if b = 2 then
    (barDoorbells o bs).foldl (fun t d => doorbellRing t d.1 d.2 false []) (msixUnmask (putEnabled bar2Put s o bs))
  else if b = 4 then
    if s.bit Reg.HOST_CTRL 1 then
      access s { master := masterHost, access := .writeBytes (BitVec.ofNat 32 (0x10000000 + o)) bs, bar := some (2, o) }
    else inbErr s 2 o
  else if 4 < o % 4 + bs.length then inbErr s 0 o
  else access s { master := masterHost, access := .writeBytes (BitVec.ofNat 32 (0x40000000 + o)) bs, bar := some (0, o) }

/-- A read of `n` bytes at offset `o` of configuration space. -/
def configRead (s : State) (o n : Nat) : State :=
  let r := (List.range n).foldl (fun (p : List Byte × State) i =>
    let w := configWord p.2 ((o + i) / 4)
    (p.1 ++ [w.1.extractLsb' (8 * ((o + i) % 4)) 8], w.2)) ([], s)
  hostAnswer r.2 r.1 false

/-- A request to a function in D3hot, which answers configuration requests alone: it is unsupported, and a write is discarded (PRESUMED,
log entry 115). -/
def d3Request (s : State) (b o : Nat) (req : BarRequest) : State :=
  let t := aerError s 20
  match req with
  | .read n => hostAnswer t (List.replicate n 0#8) true
  | .write _ => if b = 2 then t else inbErr t (b / 2) o

/-! ### The commands -/

/-- The word-space access that reads `a`, or writes it. -/
def wordAccess (a : Nat) (wr : Option Word) : Access :=
  match wr with
  | some w => .writeWord (BitVec.ofNat 24 a) w
  | none => .readWord (BitVec.ofNat 24 a)

/-- PROGRAM_STORE_WRITE (R74): word `word` of the program store of rill role `re` (16 the spare). -/
def execProgramStoreWrite (master : Fin 18) (re : Fin 17) (word : Fin 98304) (data : BitVec 36) (s : State) : Out :=
  done (masterAccess s master.val (wordAccess (rillWin re.val + 0x20000 + word.val) (some data)))

/-- CODE_STORE_WRITE (R146): word `word` of the code store of basin role `be` (8 the spare). -/
def execCodeStoreWrite (master : Fin 18) (be : Fin 9) (word : BitVec 16) (data : BitVec 36) (s : State) : Out :=
  done (masterAccess s master.val (wordAccess (basinWin be.val + 0x40000 + word.toNat) (some data)))

/-- ENGINE_WINDOW_WRITE (R85, R89, R101 to R103, R147, R229, R241): the word at 0x800000 + `off`. -/
def execEngineWindowWrite (master : Fin 18) (off : BitVec 23) (data : BitVec 36) (s : State) : Out :=
  done (masterAccess s master.val (wordAccess (0x800000 + off.toNat) (some data)))

/-- YARD_WORD_ACCESS (R379, R380, R382, R383): a read of yard word `w`, or a write. -/
def execYardWordAccess (master : Fin 18) (w : BitVec 23) (wr : Option (BitVec 36)) (s : State) : Out :=
  done (masterAccess s master.val (wordAccess w.toNat wr))

/-- YARD_BYTE_WRITE (R376 to R378): bytes written from byte `o` of the byte view. -/
def execYardByteWrite (master : Fin 18) (o : BitVec 25) (data : List Byte) (s : State) : Out :=
  done (masterAccess s master.val (.writeBytes (BitVec.ofNat 32 (0x10000000 + o.toNat)) (data.map some)))

/-- CORRECTED_WORD_WRITE_BACK (R380). -/
def execCorrectedWordWriteBack (w : BitVec 23) (s : State) : Out := done (writeBack s w.toNat)

/-- SCRUB_ROW (R381). -/
def execScrubRow (row : BitVec 16) (s : State) : Out := done (scrubRow s row.toNat)

/-- TACK_ROOM_ACCESS (R390, R391): 1, 2 or 4 bytes at offset `o`. -/
def execTackRoomAccess (master : Fin 18) (o : BitVec 14) (size : Fin 3) (wr : Option (BitVec 32)) (s : State) : Out :=
  let a := BitVec.ofNat 32 (0x20000000 + o.toNat)
  done (masterAccess s master.val (match wr with
    | some v => .writeBytes a ((leBytes v (2 ^ size.val)).map some)
    | none => .readBytes a (2 ^ size.val)))

/-- WLOCK (R391): a write of TACK_CTRL. -/
def execWlock (v : BitVec 32) (s : State) : Out := done (s.raiseIf (v.getLsbD 0) Reg.TACK_CTRL 1#32)

/-- TAMPER (R392). -/
def execTamper (s : State) : Out := done (tamper s)

/-- TAMPER_RELEASE (R392). -/
def execTamperRelease (s : State) : Out := done { s with power := { s.power with tamperLow := false } }

/-- TACK_WIPE_END (R392). -/
def execTackWipeEnd (s : State) : Out := done (wipeEnd s)

/-- Whether an access by master `m` has no target that Table 16-5 gives it (R394). -/
def noTarget (s : State) (m a : Nat) (word write : Bool) : Bool :=
  if word then !wordReach s m (a % 2 ^ 24) else decide (byteRoute s m a 1 write = .none)

/-- DEFAULT_TARGET_ACCESS (R394, R501): an access with no target; with a target it is no such access. -/
def execDefaultTargetAccess (master : Fin 18) (addr : BitVec 32) (word write : Bool) (s : State) : Out :=
  let a := if word then addr.toNat % 2 ^ 24 else addr.toNat
  done (if noTarget s master.val a word write then
    masterAccess s master.val (if word then wordAccess a (if write then some 0#36 else none)
      else if write then .writeBytes addr [some 0#8] else .readBytes addr 1)
  else s)

/-- MEM_BANK_OWNER_WRITE (R385): a 32-bit write of MEM_BANK_OWNER(b). -/
def execMemBankOwnerWrite (master : Fin 18) (b : Fin 32) (v : BitVec 32) (s : State) : Out :=
  done (masterAccess s master.val (.writeBytes (BitVec.ofNat 32 (Reg.MEM_BANK_OWNER b.val)) ((leBytes v 4).map some)))

/-- HANDOVER_COMPLETE (R385). -/
def execHandoverComplete (b : Fin 32) (s : State) : Out := done (handoverComplete s b.val)

/-- WAKE_CLEAR_END (R389). -/
def execWakeClearEnd (s : State) : Out := done (clearEnd s)

/-- BAR_REQUEST (R346 to R348): a request to BAR0 (0), BAR2 (1), BAR4 (2) or configuration space (3), whose writes are HOST_LINK_UP's. A
doorbell whose ring delivers frames to slots of host memory is DOORBELL's, which gives their descriptors. -/
def execBarRequest (bar : Fin 4) (off : BitVec 25) (req : BarRequest) (s : State) : Out :=
  let o := if bar.val = 0 then off.toNat % 2 ^ 24 else if bar.val = 1 then off.toNat % 2 ^ 13 else off.toNat
  done (if bar.val = 3 then (match req with
      | .read n => configRead s (off.toNat % 4096) n
      | .write _ => s)
    else if s.host.d3 then d3Request s (2 * bar.val) o req
    else match req with
      | .read n => barRead s (2 * bar.val) o n
      | .write data => barWrite s (2 * bar.val) o data)

/-- The TAP instruction that acts where `what` is shifted in: a closed port answers BYPASS, IDCODE and MAILBOX, and any other acts as
BYPASS (R437). -/
def tapActs (s : State) (what : TapInstr) : TapInstr :=
  if debugOpen s then what
  else match what with
    | .idcode => .idcode
    | .mailbox => .mailbox
    | _ => .bypass

/-- The result of the debug master's last access as the bridge's data register gives it: bit 0 set where the response was an error
(R514). -/
def bridgeResult (s : State) (word : Bool) : BitVec 32 :=
  let r := vget s.resp masterDebug ⟨0#36, [], false⟩
  (if word then r.word.setWidth 32 else leWord r.bytes) ||| (if r.err then 1#32 else 0#32)

/-- An access through the bridge: its data register returns the result of the access before, and the 32-bit word is read or written. A
word-space write of it writes 0 to bits [35:32] (DEDUCED, log entry 118). -/
def bridgeAccess (s : State) (x : Access) : State :=
  let r := vget s.resp masterDebug ⟨0#36, [], false⟩
  masterAccess { s with boot := { s.boot with bridge := bridgeResult s r.bytes.isEmpty } } masterDebug x

/-- The access of an aligned 32-bit word of byte space. -/
def bridgeBytes (a : BitVec 32) (wr : Option (BitVec 32)) : Access :=
  match wr with
  | some w => .writeBytes (BitVec.ofNat 32 (a.toNat / 4 * 4)) ((leBytes w 4).map some)
  | none => .readBytes (BitVec.ofNat 32 (a.toNat / 4 * 4)) 4

/-- A TAP instruction acts (R437, R514): one aligned 32-bit word in word space or byte space while the debug port is open, or of the DBG_RESP
and DBG_CTL registers through MAILBOX. -/
def tapRun (s : State) (addr : BitVec 32) (wr : Option (BitVec 32)) : TapInstr → State
  | .wordSpace => bridgeAccess s (wordAccess (addr.toNat % 2 ^ 24) (wr.map (BitVec.setWidth 36)))
  | .byteSpace => bridgeAccess s (bridgeBytes addr wr)
  | .mailbox => if mailbox addr.toNat then bridgeAccess s (bridgeBytes addr wr) else s
  | .bypass | .idcode | .other => s

/-- DEBUG_BRIDGE_ACCESS (R437, R514): a TAP instruction is shifted in and acts. -/
def execDebugBridgeAccess (what : TapInstr) (addr : BitVec 32) (wr : Option (BitVec 32)) (s : State) : Out :=
  let i := tapActs s what
  done (tapRun { s with boot := { s.boot with tap := i } } addr wr i)

/-- REGISTER_WRITE (R4, R5, R504 to R506): a write of 1, 2 or 4 bytes at byte-space offset `off` from 0x4000_0000. -/
def execRegisterWrite (master : Fin 18) (off : BitVec 24) (size : Fin 3) (v : BitVec 32) (s : State) : Out :=
  done (masterAccess s master.val (.writeBytes (BitVec.ofNat 32 (0x40000000 + off.toNat)) ((leBytes v (2 ^ size.val)).map some)))

/-- COMMIT (R245): a write of 1 to COMMIT of set `set` with GROUP `group`. -/
def execCommit (set : Fin 29) (group : BitVec 4) (s : State) : Out := done (commitCommand s set.val group)

/-- SL_ABORT (R248). -/
def execSlAbort (group : BitVec 4) (s : State) : Out := done (abortGroup s group)

/-- PEAK_CLR (R160): a write of BASIN_CTRL.PEAK_CLR; the spare's windows take writes only while it is parked (R147). -/
def execPeakClr (be : Fin 9) (s : State) : Out :=
  done (if be.val = 8 ∧ bexParked s = false then s.raise (Reg.BASIN_STATUS 8) 0x40#32 else peakClear s be.val)

/-- CC_CACHE_INV (R153): a write of CC_CACHE. -/
def execCcCacheInv (v : BitVec 32) (s : State) : Out := done (cacheWrite s v)

/-- CACHE_INVALIDATION_END (R153). -/
def execCacheInvalidationEnd (s : State) : Out := done (s.lower Reg.CC_CACHE 4#32)

/-- COPY_BACK_COMPLETE (R93, R145, R218, R242). -/
def execCopyBackComplete (set : Fin 29) (s : State) : Out := done (copyBackComplete s set.val)

/-- FLASH_OPERATION_DONE (R416, R458): accesses of flash that waited are served. -/
def execFlashOperationDone (failed : Bool) (s : State) : Out := done (serveHeld (flashOperationDone s failed))

end Sys2Proof.Machine
end

