-- ==== Sys2Proof/Machine/Bundle.lean ====
section
/-! DEFINITION. Bundles of a basin engine and of the control core: names, landing, branches, kernel faults, exceptions, and the issue
of one slot (R139, R151 to R158, R161 to R166, R170 to R173, R185). -/
namespace Sys2Proof.Machine

/-! ### Cores, names and registers -/

/-- Core `n`: basin engines 0 to 7, BEX 8, the control core 9. -/
def coreOf (s : State) (n : Nat) : BasinEngine := vget s.basin n BasinEngine.zero

/-- Replace core `n`. -/
def putCore (s : State) (n : Nat) (e : BasinEngine) : State := { s with basin := vset s.basin n e }

/-- The control core's number. -/
def ccCore : Nat := 9

/-- The physical predicate and vector register that a name means now (R165). -/
def predPhys (e : BasinEngine) (r : Nat) : Nat := if r < 8 then r else 8 + (r - 8 + e.rrbp.toNat) % 8
def vecPhys (e : BasinEngine) (r : Nat) : Nat := if r < 32 then r else 32 + (r - 32 + e.rrbv.toNat) % 32

/-- Scalar register `i`, predicate `r` by name (P0 reads 1), lane mask `i` (M0 reads 0xFF) and lane `i` of the vector register
named `r` (Table 06-1). -/
def sReg (e : BasinEngine) (i : Nat) : Word := vget e.s i 0#36
def predRead (e : BasinEngine) (r : Nat) : Bool := r = 0 || vget e.p (predPhys e r) false
def maskRead (e : BasinEngine) (i : Nat) : BitVec 8 := if i = 0 then 0xFF#8 else vget e.m i 0#8
def vLane (e : BasinEngine) (r i : Nat) : Word := Cells.get e.v (8 * vecPhys e r + i)

/-! ### Results in flight (R163, R164) -/

/-- Put a result in flight from the slot of rank `rank`, read by the bundle `lat` bundles later. Results of one bundle stand in the
order S, M, V, so that the later one is held (R164). -/
def BasinEngine.fly (e : BasinEngine) (rank lat : Nat) (t : BasinTarget) : BasinEngine :=
  let after := fun (x : BasinFlight) => decide (x.issue = e.bundle) && decide (rank < x.rank)
  { e with flights := (e.flights.filter fun x => !after x) ++ [⟨e.bundle + lat, e.bundle, rank, t⟩] ++ e.flights.filter after }

/-- Land one result in its core; writes to P0 and M0 are ignored. -/
def BasinEngine.land (e : BasinEngine) : BasinTarget → BasinEngine
  | .s i w => { e with s := vset e.s i w }
  | .v i lane w => { e with v := Cells.set e.v (8 * i + lane) w }
  | .p i b => if i = 0 then e else { e with p := vset e.p i b }
  | .m i x => if i = 0 then e else { e with m := vset e.m i x }
  | .view i lane a => { e with vaView := Cells.set e.vaView (8 * i + lane) a }
  | .lcnt w => { e with lcnt := w }
  | .ecnt w => { e with ecnt := w }
  | .epc _ | .estat _ | .vbar _ | .scratch _ _ => e

/-- Land one result in the control registers (Table 07-3). -/
def CcState.land (c : CcState) : BasinTarget → CcState
  | .epc x => { c with epc := x }
  | .estat x => { c with ie := x.getLsbD 0, pie := x.getLsbD 1, exl := x.getLsbD 2 }
  | .vbar x => { c with vbar := x }
  | .scratch i w => { c with scratch := vset c.scratch i w }
  | .s _ _ | .v _ _ _ | .p _ _ | .m _ _ | .view _ _ _ | .lcnt _ | .ecnt _ => c

/-- Land the results of core `n` that bundle `k` reads. -/
def landDue (s : State) (n k : Nat) : State :=
  let e := coreOf s n
  let due := e.flights.filter fun x => decide (x.due ≤ k)
  let e1 := due.foldl (fun t x => t.land x.tgt) { e with flights := e.flights.filter fun x => !decide (x.due ≤ k) }
  putCore { s with cc := if n = ccCore then due.foldl (fun c x => c.land x.tgt) s.cc else s.cc } n e1

/-- Land every result in flight, each in its own turn: no latency is longer than 6. -/
def landAll (s : State) (n : Nat) : State := (List.range 7).foldl (fun t k => landDue t n ((coreOf s n).bundle + k)) s

/-- A core without the results of the bundle being issued. -/
def dropOwn (e : BasinEngine) : BasinEngine := { e with flights := e.flights.filter fun x => !decide (x.issue = e.bundle) }

/-! ### Program flow (R170 to R173) -/

/-- The address after `pc`, and the target of a branch by OFF bundles: byte addresses on the control core, otherwise bundle offsets
that wrap in the code half. -/
def pcAdd (n : Nat) (pc : BitVec 32) (off : Int) : BitVec 32 :=
  if n = ccCore then pc + BitVec.ofInt 32 (16 * off) else BitVec.ofInt 32 ((pc.toNat + off) % 8192)

/-- Whether the bundle being issued stands in a delay slot. -/
def inDelay (e : BasinEngine) : Bool := match e.branch with
  | some b => decide (b.left < 3)
  | none => false

/-- BRT's update (R171, R172): counts, rotation and the new P8 together; the control core rotates predicates only. -/
def brtApply (n : Nat) (e : BasinEngine) (b : BrtUpdate) : BasinEngine :=
  let e1 := { e with lcnt := b.lcnt.getD e.lcnt, ecnt := b.ecnt.getD e.ecnt, rrbv := if n = ccCore then e.rrbv else e.rrbv - 1#5,
                     rrbp := e.rrbp - 1#3 }
  { e1 with p := vset e1.p (predPhys e1 8) b.p8 }

/-- The boundary after a branch's second delay slot: BRT's update over what has landed, and the next address. -/
def branchLand (n : Nat) (e : BasinEngine) (b : BranchState) : BasinEngine :=
  let e1 := match b.rotate with
    | some u => brtApply n e u
    | none => e
  { e1 with pc := b.target.getD (pcAdd n e.pc 1), branch := none }

/-- RFE's effect after its delay slots (R173). -/
def rfeLand (c : CcState) (b : BranchState) : CcState := match b.rfe with
  | some pie => { c with ie := pie, exl := false }
  | none => c

/-- The next address of core `n` at the boundary after a bundle. -/
def flowNext (s : State) (n : Nat) : State :=
  let e := coreOf s n
  match e.branch with
  | none => putCore s n { e with pc := pcAdd n e.pc 1 }
  | some b =>
    if b.left ≤ 1 then putCore { s with cc := if n = ccCore then rfeLand s.cc b else s.cc } n (branchLand n e b)
    else putCore s n { e with pc := pcAdd n e.pc 1, branch := some { b with left := b.left - 1 } }

/-! ### Exceptions of the control core (R157, R173) -/

/-- Enter a handler: EPC, ESTAT, CAUSE and the vector. -/
def ccEnter (s : State) (cause : Nat) (epc : BitVec 32) : State :=
  putCore { s with cc := { s.cc with epc := epc, pie := s.cc.ie, ie := false, exl := true, cause := BitVec.ofNat 4 cause,
                                     waiting := false, trap := false } } ccCore
    { coreOf s ccCore with pc := s.cc.vbar + BitVec.ofNat 32 (64 * cause), branch := none, begun := false }

/-- A synchronous exception at the address `epc`, all results in flight landed: a double fault while EXL is set. -/
def ccException (s : State) (cause : Nat) (epc : BitVec 32) : State :=
  let s1 := landAll s ccCore
  if s1.cc.exl then warmReset s1 rstDoubleFault else ccEnter s1 cause epc

/-- The address that an exception in the bundle being issued saves: in a delay slot, the branch's. -/
def faultPc (e : BasinEngine) : BitVec 32 := match e.branch with
  | some b => if b.left < 3 then b.origin else e.pc
  | none => e.pc

/-! ### Kernel faults and misses (R39, R40, R139) -/

/-- Count a missed entry of engine `n` (cause 0 deadline, 1 fault) and report it; the spare reports nothing. -/
def missEntry (s : State) (n i cause : Nat) : State :=
  let s1 := ((((s.count (Reg.BASIN_MISS n) 0 16 1).setFld (Reg.BASIN_MISS n) 16 6 i).setFld (Reg.BASIN_MISS n) 22 2 cause).raise
    (Reg.BASIN_STATUS n) 4#32)
  if n < 8 then s1.event 3 1 n i cause 0 else s1

/-- Release the claim on DMA channel `ch` of engine `n` (Table 21-10). -/
def dmaRelease (s : State) (n ch : Nat) : State := if n < 8 then resRelease s 5 (4 * n + ch) (fnBasin n) else s

/-- An entry that has stopped and waits for a transfer of channel `c`, which is cancelled, never completes (R39). -/
def cutEntry (e : BasinEngine) (c : DmaChannel) : BasinEngine :=
  if c.busy && decide (Cells.read (fun _ => EntryStatus.notRun) e.entries c.entry = .stopped) then setEntryStatus e c.entry .cut else e

/-- Cancel the four channels of engine `n` (R40, R139). -/
def dmaCancel (s : State) (n : Nat) : State :=
  let e := coreOf s n
  (List.range 4).foldl (fun t ch => dmaRelease t n ch)
    (putCore s n { e.dma.toList.foldl cutEntry e with dma := e.dma.map fun (c : DmaChannel) => { c with busy := false } })

/-- The engine issues nothing more for its entry, which ends as `st`: results in flight land, a branch is abandoned (R135). -/
def entryEnd (s : State) (n : Nat) (st : EntryStatus) : State :=
  match (coreOf s n).current with
  | none => s
  | some i =>
    let s1 := landAll s n
    putCore s1 n (setEntryStatus { coreOf s1 n with branch := none, begun := false, current := none, nextEntry := i + 1 } i st)

/-- A kernel fault with BASIN_FAULT.CAUSE `cause`: the bundle at fault writes no result (R139). -/
def kernelFault (s : State) (n cause : Nat) : State :=
  let e := coreOf s n
  match e.current with
  | none => s
  | some i =>
    let s1 := dmaCancel (entryEnd (putCore s n (dropOwn e)) n .faulted) n
    let s2 := (s1.setReg (Reg.BASIN_FAULT n) (BitVec.ofNat 32 (e.pc.toNat % 8192 + i * 8192 + cause * 524288))).raise
      (Reg.BASIN_STATUS n) 8#32
    missEntry s2 n i 1

/-- What can be wrong with a bundle (R139, Table 06-6). -/
inductive SlotFault where
  | encoding
  | address
  | fetch
  | data
  | breakpoint
  deriving DecidableEq, Repr

/-- BASIN_FAULT.CAUSE and the control core's cause. -/
def SlotFault.basin : SlotFault → Nat
  | .encoding | .breakpoint => 1
  | .address | .data => 2
  | .fetch => 3
def SlotFault.control : SlotFault → Nat
  | .encoding => 2
  | .fetch => 3
  | .address | .data => 4
  | .breakpoint => 5

/-- A fault of the bundle being issued: a kernel fault, or an exception whose bundle writes no result. -/
def slotFault (s : State) (n : Nat) (f : SlotFault) : State :=
  if n = ccCore then
    let e := coreOf s n
    ccException { putCore s n (dropOwn e) with cc := { s.cc with trap := false } } f.control (faultPc e)
  else kernelFault s n f.basin

/-! ### The start and the end of a bundle -/

/-- The outcome of a bundle's start: it issues, it faults, or it cannot issue now. -/
inductive BundleStart where
  | go
  | fault (f : SlotFault)
  | wait
  deriving DecidableEq, Repr

/-- The fetch of a basin bundle: the ECC of its four code words (R148). -/
def codeFetch (s : State) (n : Nat) : BundleStart × State :=
  let e := coreOf s n
  let w := (if e.halfA then 32768 else 0) + 4 * (e.pc.toNat % 8192)
  let marks := (List.range 4).map fun k => (s.mark (basinWin n + 0x40000 + w + k), basinLoc 1 (w + k))
  (if marks.any fun m => decide (m.1 = 2#2) then .fault .fetch else .go, s.eccEvents (basinSite n) marks)

/-- The breakpoints that the bundle at `pc` meets (R515). -/
def breakpointHits (s : State) (pc : BitVec 32) : List Nat :=
  if debugOpen s then
    (List.range 4).filter fun k => s.bit (Reg.DBG_BP k) 0 && decide ((s.reg (Reg.DBG_BP k)).extractLsb' 4 28 = pc.extractLsb' 4 28)
  else []

/-- The fetch of a control-core bundle at byte `o` of the yard, which a bank may hold (R385, R389). -/
def ccYardFetch (s : State) (o : Nat) : BundleStart × State :=
  if (byteWords o 16).any (yardReadHolds s masterCcI) then (.wait, s)
  else
    let r := yardReadBytes s masterCcI o 16
    (if r.2.1 then .fault .fetch else .go, r.2.2)

/-- The fetch of a control-core bundle from flash at byte `a`, which a flash operation or an invalidation holds (R153, R416). -/
def ccFlashFetch (s : State) (a : Nat) : BundleStart × State :=
  if s.bit Reg.FL_STATUS 0 || s.bit Reg.CC_CACHE 2 then (.wait, s) else (.go, (cacheLine s (a / 64)).2)

/-- The fetch of a control-core bundle at address `a` (R152, R153). -/
def ccFetchAt (s : State) (a : Nat) : BundleStart × State :=
  if a % 16 ≠ 0 then (.fault .fetch, s)
  else if a < 0x800000 then ccFlashFetch s a
  else if 0x10000000 ≤ a ∧ a < 0x12000000 then ccYardFetch s (a - 0x10000000)
  else (.fault .fetch, defaultTarget s masterCcI a false false)

/-- The fetch of the control core's next bundle. -/
def ccFetch (s : State) : BundleStart × State := ccFetchAt s (coreOf s ccCore).pc.toNat

/-- The start of a control-core bundle: a breakpoint, the fetch, then the length of its ATOMIC run (R156). -/
def ccStartBundle (s : State) (atomic : Bool) : BundleStart × State :=
  let hits := breakpointHits s (coreOf s ccCore).pc
  if hits ≠ [] then (.fault .breakpoint, hits.foldl (fun t k => t.raise Reg.DBG_HIT (BitVec.ofNat 32 (2 ^ k))) s)
  else
    let r := ccFetch { s with cc := { s.cc with waiting := false } }
    (r.1, r.2.raiseIf (atomic && decide (s.cc.atomicRun = 8)) Reg.CC_STATUS 1#32)

/-- The start of core `n`'s bundle, unless it has started; a reserved header bit is an undefined encoding (R161). -/
def bundleStart (s : State) (n : Nat) (atomic : Bool) (rsv : BitVec 2) : BundleStart × State :=
  if (coreOf s n).begun then (if rsv = 0#2 then .go else .fault .encoding, s)
  else
    let r := if n = ccCore then ccStartBundle s atomic else codeFetch s n
    if r.1 = .go then
      (if rsv = 0#2 then .go else .fault .encoding, putCore r.2 n { coreOf r.2 n with begun := true })
    else r

/-- The end of a bundle: the next bundle's results land and flow goes on; a TRAP of the bundle raises cause 6 (R173). -/
def bundleEnd (s : State) (n : Nat) (atomic : Bool) : State :=
  let e := coreOf s n
  let s1 := flowNext (landDue (putCore s n { e with bundle := e.bundle + 1, begun := false }) n (e.bundle + 1)) n
  if n = ccCore then
    let s2 := { s1 with cc := { s1.cc with trap := false, atomicRun := if atomic then min 8 (s1.cc.atomicRun + 1) else 0 } }
    if s1.cc.trap then ccException s2 6 (coreOf s2 n).pc else s2
  else s1

/-! ### One slot -/

/-- Whether the control core issues: out of reset, and not halted on a stop bundle that an interrupt must end (R158). -/
def ccIssues (s : State) : Bool :=
  decide (s.power.phase = .running) && !s.cc.held &&
    (!s.cc.waiting || (decide (irqPendCc s ≠ 0#32) && (!s.cc.ie || (coreOf s ccCore).branch.isSome)))

/-- Whether core `n` issues bundles now. -/
def coreIssues (s : State) (n : Nat) : Bool := if n = ccCore then ccIssues s else (coreOf s n).current.isSome

/-- What an operation whose guard holds does: the state, a fault, or whether its memory access cannot complete now (R154). -/
structure SlotOut where
  s : State
  fault : Option SlotFault
  wait : Bool

/-- The next step of a bundle after one of its slots. -/
def slotNext (n : Nat) (h : SlotHead) (s : State) : State := if h.last then bundleEnd s n h.atomic else s

/-- One slot on core `n`: an undefined encoding faults whatever the guard holds (R185); an operation whose guard does not hold does
nothing (R162). A control-core operation that must wait has no effect until it is presented again. -/
def slotRun (n : Nat) (h : SlotHead) (bad : BasinEngine → Bool) (body : State → Nat → SlotOut) (s : State) : State :=
  if coreIssues s n then
    match bundleStart s n h.atomic h.rsv with
    | (.wait, _) => s
    | (.fault f, s1) => slotFault s1 n f
    | (.go, s1) =>
      let e := coreOf s1 n
      if bad e then slotFault s1 n .encoding
      else if predRead e h.g.toNat != h.gn then
        let r := body s1 n
        if r.wait then s
        else match r.fault with
          | some f => slotFault r.s n f
          | none => if r.s.power.phase = .held then r.s else slotNext n h r.s
      else slotNext n h s1
  else s

/-- Whether BEX runs in step with role `be`: lockstep, or BIST after a mismatch (R454, R455). -/
def bexFollows (s : State) (be : Nat) : Bool :=
  decide (be < 8) && decide (s.fld Reg.FAR_TARGET 8 3 = be) && decide (2 ≤ s.fld Reg.FAR_TARGET 12 2)

/-- A command on core `be` (9 the control core), and the same on BEX while it shadows that role. BEX takes no command of its own. -/
def coreRun (be : Nat) (f : Nat → State → State) (s : State) : State :=
  if be = 8 then s
  else
    let s1 := f be s
    if bexFollows s be then f 8 s1 else s1

/-- One slot command. -/
def slot (be : Fin 10) (h : SlotHead) (bad : Nat → BasinEngine → Bool) (body : State → Nat → SlotOut) (s : State) : State :=
  coreRun be.val (fun n t => slotRun n h (bad n) body t) s

/-- What an operation on registers does: the core, saturation, guard overflow, and a use of the noise LFSR. -/
structure BasinFx where
  e : BasinEngine
  sat : Bool
  gov : Bool
  noise : Bool
  deriving DecidableEq, Repr

/-- An operation that changes nothing. -/
def BasinFx.none (e : BasinEngine) : BasinFx := ⟨e, false, false, false⟩

/-- Put a result in flight. -/
def BasinFx.fly (x : BasinFx) (rank lat : Nat) (t : BasinTarget) : BasinFx := { x with e := x.e.fly rank lat t }

/-- Put an operation's effect into core `n`; the control core records no SAT and no GOV (R150, R169). -/
def fxApply (s : State) (n : Nat) (x : BasinFx) : State :=
  let e := if x.noise then { x.e with lfsr := lfsrNext x.e.lfsr } else x.e
  let s1 := putCore s n { e with govFrame := e.govFrame || (x.gov && decide (n ≠ ccCore)) }
  if n = ccCore then s1 else (s1.raiseIf x.gov (Reg.BASIN_STATUS n) 1#32).raiseIf x.sat (Reg.BASIN_STATUS n) 2#32

/-- The body of an operation on registers. -/
def regBody (f : Nat → BasinEngine → BasinFx) (s : State) (n : Nat) : SlotOut := ⟨fxApply s n (f n (coreOf s n)), none, false⟩

/-- An encoding that is defined on every core. -/
def neverBad (_ : Nat) (_ : BasinEngine) : Bool := false

/-- An encoding that is defined only where `p` holds: opcode 0 of a slot, of all that no table assigns. -/
def unassigned (p : Prop) [Decidable p] (_ : Nat) (_ : BasinEngine) : Bool := !decide p

/-! ### The stored bundle -/

/-- The bytes from which the control core fetches the bundle at address `a` (R152, R153). -/
def ccFetchBytes (s : State) (a : Nat) : List Byte :=
  if a < 0x800000 then (cacheRead s a 16).1 else (yardReadBytes s masterCcI (a - 0x10000000) 16).1

/-- The 128 bits of the bundle at core `n`'s program address: four words of the code store (Table 06-5), or 16 bytes of byte space,
little-endian (R376). -/
def bundleWord (s : State) (n : Nat) : BitVec 128 :=
  let e := coreOf s n
  if n = ccCore then BitVec.ofNat 128 (leVal (ccFetchBytes s e.pc.toNat))
  else
    let w := (if e.halfA then 32768 else 0) + 4 * (e.pc.toNat % 8192)
    Cells.get e.code (w + 3) ++ Cells.get e.code (w + 2) ++ Cells.get e.code (w + 1) ++ Cells.get e.code w

/-- The commands that core `be` issues next: those of the bundle stored at its program address (R161). -/
def bundleNext (s : State) (be : Fin 10) : List Instr := decodeBundle be (bundleWord s be.val)

end Sys2Proof.Machine
end

