-- ==== Sys2Proof/Machine/BasinM.lean ====
section
/-! DEFINITION. The M slot of the basin instruction set: the engine address space, the start of frame DMA, and the control core's data
accesses (R129, R130, R142, R154, R174 to R176, Tables 06-2, 07-6 and 07-7). -/
namespace Sys2Proof.Machine

/-! ### The engine address space (Table 06-2) -/

/-- What an engine address names. -/
inductive EnginePlace where
  | store (a : Nat)
  | param (o : Nat)
  | status (ch : Nat)
  | start (ch : Nat)
  | frame
  | nothing
  deriving DecidableEq, Repr

/-- The place that engine address `a` names. -/
def enginePlace (a : Nat) : EnginePlace :=
  if a < 0x40000 then .store a
  else if a < 0x42000 then .param (a - 0x40000)
  else if a < 0x42004 then .status (a - 0x42000)
  else if a < 0x42008 then .start (a - 0x42004)
  else if a = 0x42008 then .frame
  else .nothing

/-- Whether an engine address may be read, or written (R130). -/
def engineReads (a : Nat) : Bool := match enginePlace a with
  | .store _ | .param _ | .status _ | .frame => true
  | .start _ | .nothing => false
def engineWrites (a : Nat) : Bool := match enginePlace a with
  | .store _ | .start _ => true
  | .param _ | .status _ | .frame | .nothing => false

/-- The frame word: the frame-tick counter and F. -/
def frameWord (s : State) : Word := s.tick.frameCnt.extractLsb' 0 24 ++ BitVec.ofNat 12 s.f

/-- A DMA channel of engine `n`, and its status word (R142). -/
def dmaAt (s : State) (n ch : Nat) : DmaChannel := vget (coreOf s n).dma ch ⟨false, false, 0#16, 0#18, 0⟩
def dmaStatus (c : DmaChannel) : Word := (if c.busy then 1#1 else 0#1) ++ (if c.err then 1#1 else 0#1) ++ c.count ++ c.addr

/-- Replace a DMA channel. -/
def putDma (s : State) (n ch : Nat) (c : DmaChannel) : State :=
  putCore s n { coreOf s n with dma := vset (coreOf s n).dma ch c }

/-- A write of a start word (R142): the chain starts at an 8-word-aligned descriptor, or, on a busy channel, the write is not performed.
A start clears ERR of the channel's status word (DESIGN CHOICE, log entry 68). -/
def dmaStart (s : State) (n ch : Nat) (w : Word) : State :=
  let c := dmaAt s n ch
  if c.busy then
    let s1 := s.raise (Reg.BASIN_STATUS n) 0x20#32
    if n < 8 then claimRefused s1 5 (4 * n + ch) (resHolder s1 5 (4 * n + ch)) (fnBasin n) else s1
  else
    let s1 := if n < 8 then resTake s 5 (4 * n + ch) (fnBasin n) else s
    putDma s1 n ch { c with busy := true, err := false, addr := w.extractLsb' 3 15 ++ 0#3, entry := (coreOf s n).current.getD 0 }

/-- The word of engine address `a` as read, with its ECC mark and location. -/
def engineRead (s : State) (n a : Nat) : Word × (BitVec 2 × Nat) :=
  match enginePlace a with
  | .store a =>
    let m := s.mark (basinWin n + a)
    (eccWord m (Cells.get (coreOf s n).ls a), (m, basinLoc 0 a))
  | .param o => let r := basinStaged s n o; (r.1, (r.2, basinLoc 2 o))
  | .status ch => (dmaStatus (dmaAt s n ch), (0#2, 0))
  | .frame => (frameWord s, (0#2, 0))
  | .start _ | .nothing => (0#36, (0#2, 0))

/-- Store a local-store word with fresh ECC. -/
def localPut (s : State) (n a : Nat) (w : Word) : State :=
  let s1 := putCore s n { coreOf s n with ls := Cells.set (coreOf s n).ls a w }
  { s1 with ecc := Cells.set s1.ecc (basinWin n + a) 0#2 }

/-- A write of engine address `a`. -/
def engineWrite (s : State) (n a : Nat) (w : Word) : State :=
  match enginePlace a with
  | .store a => localPut s n a w
  | .start ch => dmaStart s n ch w
  | .param _ | .status _ | .frame | .nothing => s

/-! ### Accesses (R174 to R176) -/

/-- What an M-slot access does. -/
inductive MKind where
  | loadS
  | storeS
  | loadV
  | storeV
  | broadcast
  | loadBV
  | storeBV
  | loadB8
  | storeB8
  deriving DecidableEq, Repr

/-- Whether the access moves a vector; whether it stores. -/
def MKind.vector (k : MKind) : Bool := k = .loadV || k = .storeV
def MKind.stores (k : MKind) : Bool := k = .storeS || k = .storeV || k = .storeBV || k = .storeB8

/-- An access: what it does, its address before it is wrapped, and its data register. -/
structure MAccess where
  kind : MKind
  addr : Word
  dr : Nat
  deriving DecidableEq, Repr

/-- The accesses of an operation, and the updates of its base registers in order. -/
structure MPlan where
  accs : List MAccess
  updates : List (Nat × Word)
  deriving DecidableEq, Repr

/-- The single form. -/
def singlePlan (k : MKind) (f : MSingle) (e : BasinEngine) : MPlan :=
  let base := sReg e f.a.toNat
  let sum := base + f.off.signExtend 36
  if f.pi then ⟨[⟨k, base, f.dr.toNat⟩], [(f.a.toNat, sum)]⟩ else ⟨[⟨k, sum, f.dr.toNat⟩], []⟩

/-- INC in words: units of 8 for vector accesses. -/
def pairInc (k : MKind) (x : MPair) : Word := if k.vector then x.inc.signExtend 36 * 8#36 else x.inc.signExtend 36

/-- The pair form: the second address includes the first INC when it names the same base. -/
def pairPlan (k1 k2 : MKind) (x1 x2 : MPair) (e : BasinEngine) : MPlan :=
  let a1 := sReg e x1.a.toNat
  let u1 := a1 + pairInc k1 x1
  let a2 := if x2.a = x1.a then u1 else sReg e x2.a.toNat
  ⟨[⟨k1, a1, x1.dr.toNat⟩, ⟨k2, a2, x2.dr.toNat⟩], [(x1.a.toNat, u1), (x2.a.toNat, a2 + pairInc k2 x2)]⟩

/-- Put the base-register updates in flight. -/
def planUpdates (p : MPlan) (e : BasinEngine) : BasinEngine := p.updates.foldl (fun t u => t.fly 1 1 (.s u.1 u.2)) e

/-! ### Basin engines -/

/-- The engine addresses an access touches: one, or an aligned row of 8 (R129). -/
def accessAddrs (x : MAccess) : List Nat :=
  let a := x.addr.toNat % 0x80000
  if x.kind.vector then (List.range 8).map fun i => a / 8 * 8 + i else [a]

/-- Whether the engine address space admits an access; a vector store reaches the local store only. -/
def accessAdmitted (x : MAccess) : Bool :=
  (accessAddrs x).all fun a => if x.kind.stores then engineWrites a && (!x.kind.vector || decide (a < 0x40000)) else engineReads a

/-- Perform a store from the values read at issue. -/
def engineStore (e : BasinEngine) (n : Nat) (s : State) (x : MAccess) : State :=
  if x.kind = .storeV then
    (accessAddrs x).zipIdx.foldl (fun t p => engineWrite t n p.1 (vLane e x.dr p.2)) s
  else if x.kind = .storeS then
    (accessAddrs x).foldl (fun t a => engineWrite t n a (sReg e (x.dr % 32))) s
  else s

/-- The results of a load: lane by lane, one word in every lane, or one scalar. -/
def loadResults (e : BasinEngine) (x : MAccess) (ws : List Word) : List (Nat × BasinTarget) :=
  if x.kind = .loadV then ws.zipIdx.map fun p => (4, .v (vecPhys e x.dr) p.2 p.1)
  else if x.kind = .broadcast then (List.range 8).map fun i => (4, .v (vecPhys e x.dr) i (ws.headD 0#36))
  else if x.kind = .loadS then [(3, .s (x.dr % 32) (ws.headD 0#36))]
  else []

/-- Perform a load: its results go in flight, and its ECC events are recorded. -/
def engineLoad (n : Nat) (s : State) (x : MAccess) : State :=
  if x.kind.stores then s
  else
    let rs := (accessAddrs x).map (engineRead s n)
    let e := (loadResults (coreOf s n) x (rs.map Prod.fst)).foldl (fun t r => t.fly 1 r.1 r.2) (coreOf s n)
    (putCore s n e).eccEvents (basinSite n) (rs.map Prod.snd)

/-- An M-slot operation of a basin engine: a bad address faults before anything is done; stores come before loads, which read what
is written in the same cycle (R129, R176). Where both loads of a pair name one register, the second access's result is held (DESIGN
CHOICE, log entry 64). -/
def engineBody (plan : BasinEngine → MPlan) (s : State) (n : Nat) : SlotOut :=
  let e := coreOf s n
  let p := plan e
  if p.accs.all accessAdmitted then
    let s1 := p.accs.foldl (engineStore e n) s
    let s2 := p.accs.foldl (engineLoad n) s1
    ⟨putCore s2 n (planUpdates p (coreOf s2 n)), none, false⟩
  else ⟨s, some .address, false⟩

/-! ### The control core (R154, R175) -/

/-- The crossbar access of an operation: word forms in word space, byte forms in byte space. -/
def ccAccess (e : BasinEngine) (x : MAccess) : Access :=
  let w := sReg e (x.dr % 32)
  match x.kind with
  | .loadS | .loadV | .broadcast => .readWord (x.addr.extractLsb' 0 24)
  | .storeS | .storeV => .writeWord (x.addr.extractLsb' 0 24) w
  | .loadBV => .readBytes (x.addr.extractLsb' 0 32) 4
  | .storeBV => .writeBytes (x.addr.extractLsb' 0 32) ((leBytes (w.extractLsb' 0 32) 4).map some)
  | .loadB8 => .readBytes (x.addr.extractLsb' 0 32) 1
  | .storeB8 => .writeBytes (x.addr.extractLsb' 0 32) [some (w.extractLsb' 0 8)]

/-- Whether a word-space read of a window shows the copy in force of a staged memory, or a memory that is not staged. -/
def windowActive (s : State) (a : Nat) : Bool :=
  if a < 0xC40000 then decide ((a - 0x800000) % 0x40000 < 0x38000) || s.bit (Reg.RILL_CTRL ((a - 0x800000) / 0x40000)) 1
  else if a < 0xFA0000 then decide ((a - 0xC40000) % 0x60000 < 0x50000) || s.bit (Reg.BASIN_CTRL ((a - 0xC40000) / 0x60000)) 1
  else if a < 0xFD1800 then s.bit Reg.FABRIC_CTRL 0
  else if a < 0xFF0000 then s.bit Reg.RB_CTRL 0
  else decide (0xFFC000 ≤ a) || s.bit Reg.CASCADE_CTRL 0

/-- The ECC mark of the word that a word-space read of a window shows: of the shadow copy where that is in view. -/
def windowMark (s : State) (a : Nat) : BitVec 2 := s.mark (if windowActive s a then a else shadowKey + a)

/-- Whether a data access meets an uncorrectable word that brings no error response: one of an engine window (Table 06-6, cause 4). -/
def dataUe (s : State) (x : Access) : Bool := match x with
  | .readWord a => decide (0x800000 ≤ a.toNat) && decide (windowMark s a.toNat = 2#2)
  | .writeWord _ _ | .readBytes _ _ | .writeBytes _ _ => false

/-- The scalar that a read brings. -/
def ccLoaded (k : MKind) (r : Response) : Word :=
  if k = .loadS then r.word else (leWord r.bytes).zeroExtend 36

/-- One data access of the control core. -/
def ccData (s : State) (x : MAccess) : SlotOut :=
  let a := ccAccess (coreOf s ccCore) x
  if masterWaits s masterCcD || accessWaits s masterCcD a then ⟨s, none, true⟩
  else
    let r := accessRun s masterCcD a
    if r.1.err || dataUe s a then ⟨r.2, some .data, false⟩
    else if x.kind.stores || decide (r.2.power.phase = .held) then ⟨r.2, none, false⟩
    else ⟨putCore r.2 ccCore ((coreOf r.2 ccCore).fly 1 3 (.s (x.dr % 32) (ccLoaded x.kind r.1))), none, false⟩

/-- The accesses of an operation in order, up to one that waits or fails. -/
def ccDataAll (s : State) : List MAccess → SlotOut
  | [] => ⟨s, none, false⟩
  | x :: t =>
    let r := ccData s x
    if r.wait || r.fault.isSome then r else ccDataAll r.s t

/-- An M-slot operation of the control core. -/
def ccBody (plan : BasinEngine → MPlan) (s : State) : SlotOut :=
  let p := plan (coreOf s ccCore)
  let r := ccDataAll s p.accs
  if r.wait || r.fault.isSome || decide (r.s.power.phase = .held) then r
  else ⟨putCore r.s ccCore (planUpdates p (coreOf r.s ccCore)), none, false⟩

/-- An M-slot operation on core `n`. -/
def memBody (plan : BasinEngine → MPlan) (s : State) (n : Nat) : SlotOut :=
  if n = ccCore then ccBody plan s else engineBody plan s n

/-- Operations of one profile are undefined in the other (R185). -/
def basinOnly (n : Nat) (_ : BasinEngine) : Bool := decide (n = ccCore)
def controlOnly (n : Nat) (_ : BasinEngine) : Bool := decide (n ≠ ccCore)

/-! ### The operations (Table 07-7) -/

/-- MNOP; an unassigned MOP is an undefined encoding (R185). -/
def execMnop (be : Fin 10) (x : IdleSlot 4) (s : State) : Out :=
  done (slot be x.head (unassigned (x.op = 0#4)) (regBody fun _ e => BasinFx.none e) s)

/-- LDS: S[DR] <- word. -/
def execLds (be : Fin 10) (h : SlotHead) (f : MSingle) (s : State) : Out :=
  done (slot be h neverBad (memBody (singlePlan .loadS f)) s)

/-- STS: word <- S[DR]. -/
def execSts (be : Fin 10) (h : SlotHead) (f : MSingle) (s : State) : Out :=
  done (slot be h neverBad (memBody (singlePlan .storeS f)) s)

/-- LDV: V[DR] <- 8 words. -/
def execLdv (be : Fin 10) (h : SlotHead) (f : MSingle) (s : State) : Out :=
  done (slot be h basinOnly (memBody (singlePlan .loadV f)) s)

/-- STV: 8 words <- V[DR]. -/
def execStv (be : Fin 10) (h : SlotHead) (f : MSingle) (s : State) : Out :=
  done (slot be h basinOnly (memBody (singlePlan .storeV f)) s)

/-- LDBC: every lane of V[DR] <- word. -/
def execLdbc (be : Fin 10) (h : SlotHead) (f : MSingle) (s : State) : Out :=
  done (slot be h basinOnly (memBody (singlePlan .broadcast f)) s)

/-- LD2V: two vector loads. -/
def execLd2v (be : Fin 10) (h : SlotHead) (x1 x2 : MPair) (s : State) : Out :=
  done (slot be h basinOnly (memBody (pairPlan .loadV .loadV x1 x2)) s)

/-- ST2V: two vector stores. -/
def execSt2v (be : Fin 10) (h : SlotHead) (x1 x2 : MPair) (s : State) : Out :=
  done (slot be h basinOnly (memBody (pairPlan .storeV .storeV x1 x2)) s)

/-- LSV: a vector load, then a vector store. -/
def execLsv (be : Fin 10) (h : SlotHead) (x1 x2 : MPair) (s : State) : Out :=
  done (slot be h basinOnly (memBody (pairPlan .loadV .storeV x1 x2)) s)

/-- LD2S: two scalar loads. -/
def execLd2s (be : Fin 10) (h : SlotHead) (x1 x2 : MPair) (s : State) : Out :=
  done (slot be h neverBad (memBody (pairPlan .loadS .loadS x1 x2)) s)

/-- LDBV: S[DR] <- 32-bit byte-view word. -/
def execLdbv (be : Fin 10) (h : SlotHead) (f : MSingle) (s : State) : Out :=
  done (slot be h controlOnly (memBody (singlePlan .loadBV f)) s)

/-- STBV: 32-bit byte-view word <- S[DR][31:0]. -/
def execStbv (be : Fin 10) (h : SlotHead) (f : MSingle) (s : State) : Out :=
  done (slot be h controlOnly (memBody (singlePlan .storeBV f)) s)

/-- LDB8: S[DR] <- byte. -/
def execLdb8 (be : Fin 10) (h : SlotHead) (f : MSingle) (s : State) : Out :=
  done (slot be h controlOnly (memBody (singlePlan .loadB8 f)) s)

/-- STB8: byte <- S[DR][7:0]. -/
def execStb8 (be : Fin 10) (h : SlotHead) (f : MSingle) (s : State) : Out :=
  done (slot be h controlOnly (memBody (singlePlan .storeB8 f)) s)

end Sys2Proof.Machine
end

