-- ==== Sys2Proof/Machine/BasinS.lean ====
section
/-! DEFINITION. The S slot of the basin instruction set (R167 to R173, Tables 07-3 to 07-5). -/
namespace Sys2Proof.Machine

/-! ### Operand forms -/

/-- A result for S register `d`. -/
def sResult (d : BitVec 5) (lat : Nat) (r : Word × Bool) (e : BasinEngine) : BasinFx :=
  { (BasinFx.none e).fly 0 lat (.s d.toNat r.1) with sat := r.2 }

/-- A result for the predicate named by D[3:0]. -/
def pResult (d : BitVec 5) (b : Bool) (e : BasinEngine) : BasinFx :=
  (BasinFx.none e).fly 0 1 (.p (predPhys e (d.toNat % 16)) b)

/-- IMM, sign-extended to 36 bits (R168). -/
def slotImm (f : SlotI) : Word := f.imm.signExtend 36

/-- An R-form operation on A and B. -/
def sBinary (be : Fin 10) (h : SlotHead) (f : SlotR) (lat : Nat) (op : Word → Word → Word × Bool) (s : State) : State :=
  slot be h neverBad (regBody fun _ e => sResult f.d lat (op (sReg e f.a.toNat) (sReg e f.b.toNat)) e) s

/-- An I-form operation on A and IMM. -/
def sImmediate (be : Fin 10) (h : SlotHead) (f : SlotI) (op : Word → Word → Word) (s : State) : State :=
  slot be h neverBad (regBody fun _ e => sResult f.d 1 (op (sReg e f.a.toNat) (slotImm f), false) e) s

/-- An R-form compare. -/
def sCompare (be : Fin 10) (h : SlotHead) (f : SlotR) (op : Word → Word → Bool) (s : State) : State :=
  slot be h neverBad (regBody fun _ e => pResult f.d (op (sReg e f.a.toNat) (sReg e f.b.toNat)) e) s

/-- An I-form compare. -/
def sCompareImm (be : Fin 10) (h : SlotHead) (f : SlotI) (op : Word → Word → Bool) (s : State) : State :=
  slot be h neverBad (regBody fun _ e => pResult f.d (op (sReg e f.a.toNat) (slotImm f)) e) s

/-- The shift count: SX[5:0] when SX[6] is 1, otherwise B[5:0]. -/
def shiftCount (f : SlotR) (b : Word) : Nat := if f.sx.getLsbD 6 then f.sx.toNat % 64 else b.toNat % 64

/-- The count of bits below the sign bit of an `n`-bit field equal to it (CLS, R183). -/
def clsCount (n : Nat) (x : Int) : Nat :=
  let m := if x < 0 then (-x - 1).toNat else x.toNat
  if m = 0 then n - 1 else n - 2 - Nat.log2 m

/-! ### Control registers (Table 07-3) -/

/-- Whether an MFC or MTC of control register `k` is an undefined encoding (R185). -/
def crBad (n k : Nat) : Bool :=
  if n = ccCore then (decide (4 ≤ k) && decide (k < 8)) || decide (16 ≤ k) else decide (5 ≤ k)

/-- PREDS: bit r is predicate Pr by name. -/
def predsWord (e : BasinEngine) : Word :=
  BitVec.ofNat 36 ((List.range 16).foldl (fun w r => if predRead e r then w + 2 ^ r else w) 0)

/-- Control register `k` as read. -/
def crRead (c : CcState) (e : BasinEngine) (k : Nat) : Word :=
  if k = 0 then e.lcnt
  else if k = 1 then e.ecnt
  else if k = 2 then predsWord e
  else if k = 3 then BitVec.ofNat 36 (e.rrbv.toNat + 256 * e.rrbp.toNat)
  else if k = 4 then e.lfsr.zeroExtend 36
  else if k = 8 then c.epc.zeroExtend 36
  else if k = 9 then BitVec.ofNat 36 ((if c.ie then 1 else 0) + (if c.pie then 2 else 0) + if c.exl then 4 else 0)
  else if k = 10 then c.cause.zeroExtend 36
  else if k = 11 then c.vbar.zeroExtend 36
  else if 12 ≤ k ∧ k < 16 then vget c.scratch (k - 12) 0#36
  else 0#36

/-- The results of an MTC of `w` to control register `k`; a read-only register takes none. -/
def crWrite (e : BasinEngine) (k : Nat) (w : Word) : List BasinTarget :=
  if k = 0 then [.lcnt w]
  else if k = 1 then [.ecnt w]
  else if k = 2 then ((List.range 15).map fun r => .p (predPhys e (r + 1)) (w.getLsbD (r + 1)))
  else if k = 8 then [.epc (w.extractLsb' 0 32)]
  else if k = 9 then [.estat (w.extractLsb' 0 3)]
  else if k = 11 then [.vbar (w.extractLsb' 9 23 ++ 0#9)]
  else if 12 ≤ k ∧ k < 16 then [.scratch (k - 12) w]
  else []

/-! ### Branches -/

/-- A branch in a delay slot is an undefined encoding (R170). -/
def branchBad (_ : Nat) (e : BasinEngine) : Bool := inDelay e

/-- Open a branch's two delay slots. -/
def openBranch (e : BasinEngine) (target : Option (BitVec 32)) (rotate : Option BrtUpdate) (rfe : Option Bool) : BasinEngine :=
  { e with branch := some ⟨3, e.pc, target, rotate, rfe⟩ }

/-- A branch, whose delay slots are open even when its guard does not hold: then it goes nowhere. -/
def branchRun (be : Fin 10) (h : SlotHead) (bad : Nat → BasinEngine → Bool) (f : State → Nat → BasinEngine → BasinEngine) (s : State) : State :=
  slot be { h with g := 0#4, gn := false } bad (fun t n =>
    let e := coreOf t n
    ⟨putCore t n (if predRead e h.g.toNat != h.gn then f t n e else openBranch e none none none), none, false⟩) s

/-- BRT at issue (R171): whether the branch is taken, and its update. -/
def brtDecide (e : BasinEngine) : Bool × Option BrtUpdate :=
  if e.lcnt ≠ 0#36 then (true, some ⟨some (e.lcnt - 1#36), none, true⟩)
  else if 1 < e.ecnt.toNat then (true, some ⟨none, some (e.ecnt - 1#36), false⟩)
  else if e.ecnt = 1#36 then (false, some ⟨none, some 0#36, false⟩)
  else (false, none)

/-! ### The operations (Table 07-5) -/

/-- SNOP; an unassigned SOP is an undefined encoding (R185). -/
def execSnop (be : Fin 10) (x : IdleSlot 6) (s : State) : Out :=
  done (slot be x.head (unassigned (x.op = 0#6)) (regBody fun _ e => BasinFx.none e) s)

/-- MOV: D <- A. -/
def execBasinMov (be : Fin 10) (h : SlotHead) (f : SlotR) (s : State) : Out :=
  done (sBinary be h f 1 (fun a _ => (a, false)) s)

/-- ADD: D <- A + B, integer. -/
def execBasinAdd (be : Fin 10) (h : SlotHead) (f : SlotR) (s : State) : Out :=
  done (sBinary be h f 1 (fun a b => (a + b, false)) s)

/-- SUB: D <- A - B, integer. -/
def execBasinSub (be : Fin 10) (h : SlotHead) (f : SlotR) (s : State) : Out :=
  done (sBinary be h f 1 (fun a b => (a - b, false)) s)

/-- ADDI: D <- A + IMM, integer. -/
def execAddi (be : Fin 10) (h : SlotHead) (f : SlotI) (s : State) : Out :=
  done (sImmediate be h f (fun a i => a + i) s)

/-- LDI: D <- IMM. -/
def execLdi (be : Fin 10) (h : SlotHead) (f : SlotI) (s : State) : Out :=
  done (sImmediate be h f (fun _ i => i) s)

/-- LDIH: D <- IMM[16:0] x 2^19 + A[18:0]. -/
def execLdih (be : Fin 10) (h : SlotHead) (f : SlotI) (s : State) : Out :=
  done (sImmediate be h f (fun a i => i.extractLsb' 0 17 ++ a.extractLsb' 0 19) s)

/-- AND. -/
def execBasinAnd (be : Fin 10) (h : SlotHead) (f : SlotR) (s : State) : Out :=
  done (sBinary be h f 1 (fun a b => (a &&& b, false)) s)

/-- OR. -/
def execBasinOr (be : Fin 10) (h : SlotHead) (f : SlotR) (s : State) : Out :=
  done (sBinary be h f 1 (fun a b => (a ||| b, false)) s)

/-- XOR. -/
def execBasinXor (be : Fin 10) (h : SlotHead) (f : SlotR) (s : State) : Out :=
  done (sBinary be h f 1 (fun a b => (a ^^^ b, false)) s)

/-- ANDI: D <- A AND IMM. -/
def execAndi (be : Fin 10) (h : SlotHead) (f : SlotI) (s : State) : Out :=
  done (sImmediate be h f (fun a i => a &&& i) s)

/-- SHL: 0 for a count of 36 or more. -/
def execBasinShl (be : Fin 10) (h : SlotHead) (f : SlotR) (s : State) : Out :=
  done (sBinary be h f 1 (fun a b => (a <<< shiftCount f b, false)) s)

/-- SHR: logical. -/
def execBasinShr (be : Fin 10) (h : SlotHead) (f : SlotR) (s : State) : Out :=
  done (sBinary be h f 1 (fun a b => (a >>> shiftCount f b, false)) s)

/-- SRA: arithmetic. -/
def execSra (be : Fin 10) (h : SlotHead) (f : SlotR) (s : State) : Out :=
  done (sBinary be h f 1 (fun a b => (a.sshiftRight (shiftCount f b), false)) s)

/-- ADDS: D <- sat(A + B), s.35. -/
def execAdds (be : Fin 10) (h : SlotHead) (f : SlotR) (s : State) : Out :=
  done (sBinary be h f 1 (fun a b => satWord (a.toInt + b.toInt)) s)

/-- SUBS: D <- sat(A - B), s.35. -/
def execSubs (be : Fin 10) (h : SlotHead) (f : SlotR) (s : State) : Out :=
  done (sBinary be h f 1 (fun a b => satWord (a.toInt - b.toInt)) s)

/-- MIN, signed. -/
def execBasinMin (be : Fin 10) (h : SlotHead) (f : SlotR) (s : State) : Out :=
  done (sBinary be h f 1 (fun a b => (if a.toInt ≤ b.toInt then a else b, false)) s)

/-- MAX, signed. -/
def execBasinMax (be : Fin 10) (h : SlotHead) (f : SlotR) (s : State) : Out :=
  done (sBinary be h f 1 (fun a b => (if a.toInt ≤ b.toInt then b else a, false)) s)

/-- MULF: the s.35 product, rounded half even and saturated. -/
def execMulf (be : Fin 10) (h : SlotHead) (f : SlotR) (s : State) : Out :=
  done (sBinary be h f 3 (fun a b => satWord (roundHalfEven (a.toInt * b.toInt) 35)) s)

/-- MULI: the low 36 bits of the signed product. -/
def execMuli (be : Fin 10) (h : SlotHead) (f : SlotR) (s : State) : Out :=
  done (sBinary be h f 3 (fun a b => (a * b, false)) s)

/-- CLS. -/
def execCls (be : Fin 10) (h : SlotHead) (f : SlotR) (s : State) : Out :=
  done (sBinary be h f 1 (fun a _ => (BitVec.ofNat 36 (clsCount 36 a.toInt), false)) s)

/-- CMPEQ. -/
def execBasinCmpeq (be : Fin 10) (h : SlotHead) (f : SlotR) (s : State) : Out :=
  done (sCompare be h f (fun a b => decide (a = b)) s)

/-- CMPLT, signed. -/
def execBasinCmplt (be : Fin 10) (h : SlotHead) (f : SlotR) (s : State) : Out :=
  done (sCompare be h f (fun a b => decide (a.toInt < b.toInt)) s)

/-- CMPLTU, unsigned. -/
def execCmpltu (be : Fin 10) (h : SlotHead) (f : SlotR) (s : State) : Out :=
  done (sCompare be h f (fun a b => decide (a.toNat < b.toNat)) s)

/-- CMPLE, signed. -/
def execBasinCmple (be : Fin 10) (h : SlotHead) (f : SlotR) (s : State) : Out :=
  done (sCompare be h f (fun a b => decide (a.toInt ≤ b.toInt)) s)

/-- CMPEQI. -/
def execCmpeqi (be : Fin 10) (h : SlotHead) (f : SlotI) (s : State) : Out :=
  done (sCompareImm be h f (fun a i => decide (a = i)) s)

/-- CMPLTI, signed. -/
def execCmplti (be : Fin 10) (h : SlotHead) (f : SlotI) (s : State) : Out :=
  done (sCompareImm be h f (fun a i => decide (a.toInt < i.toInt)) s)

/-- PLOG: f of the predicates named by A[3:0] and B[3:0], f by SX[1:0]. -/
def execBasinPlog (be : Fin 10) (h : SlotHead) (f : SlotR) (s : State) : Out :=
  done (slot be h neverBad (regBody fun _ e =>
    let a := predRead e (f.a.toNat % 16)
    let b := predRead e (f.b.toNat % 16)
    let k := f.sx.toNat % 4
    pResult f.d (if k = 0 then a && b else if k = 1 then a || b else if k = 2 then a != b else a && !b) e) s)

/-- MFC: D <- CR[SX[4:0]]. -/
def execMfc (be : Fin 10) (h : SlotHead) (f : SlotR) (s : State) : Out :=
  done (slot be h (fun n _ => crBad n (f.sx.toNat % 32)) (fun t n =>
    ⟨fxApply t n (sResult f.d 1 (crRead t.cc (coreOf t n) (f.sx.toNat % 32), false) (coreOf t n)), none, false⟩) s)

/-- MTC: CR[SX[4:0]] <- A; a read-only register takes no value. -/
def execMtc (be : Fin 10) (h : SlotHead) (f : SlotR) (s : State) : Out :=
  done (slot be h (fun n _ => crBad n (f.sx.toNat % 32)) (regBody fun _ e =>
    (crWrite e (f.sx.toNat % 32) (sReg e f.a.toNat)).foldl (fun x t => x.fly 0 1 t) (BasinFx.none e)) s)

/-- MSET: M[D[2:0]] <- A[7:0]. The control core has no lane masks (R151). -/
def execMset (be : Fin 10) (h : SlotHead) (f : SlotR) (s : State) : Out :=
  done (slot be h neverBad (regBody fun n e =>
    if n = ccCore then BasinFx.none e
    else (BasinFx.none e).fly 0 1 (.m (f.d.toNat % 8) ((sReg e f.a.toNat).extractLsb' 0 8))) s)

/-- MGET: D <- M[SX[2:0]]. On the control core the value is free: it has no lane masks, and the encoding is not undefined. -/
def execMget (be : Fin 10) (h : SlotHead) (f : SlotR) (s : State) : Out :=
  done (slot be h neverBad (fun t n =>
    let r := if n = ccCore then (let v := t.takeFree; (Config.freeMask v.1, v.2)) else (maskRead (coreOf t n) (f.sx.toNat % 8), t)
    ⟨fxApply r.2 n (sResult f.d 1 (r.1.zeroExtend 36, false) (coreOf r.2 n)), none, false⟩) s)

/-- BR. -/
def execBr (be : Fin 10) (h : SlotHead) (f : SlotB) (s : State) : Out :=
  done (branchRun be h branchBad (fun _ n e => openBranch e (some (pcAdd n e.pc f.off.toInt)) none none) s)

/-- BRL: D takes the address after the second delay slot. -/
def execBrl (be : Fin 10) (h : SlotHead) (f : SlotB) (s : State) : Out :=
  done (branchRun be h branchBad (fun _ n e =>
    (openBranch e (some (pcAdd n e.pc f.off.toInt)) none none).fly 0 1 (.s f.d.toNat ((pcAdd n e.pc 3).zeroExtend 36))) s)

/-- BRR: to the address in A. -/
def execBrr (be : Fin 10) (h : SlotHead) (f : SlotR) (s : State) : Out :=
  done (branchRun be h branchBad (fun _ n e =>
    let a := (sReg e f.a.toNat).toNat
    openBranch e (some (BitVec.ofNat 32 (if n = ccCore then a else a % 8192))) none none) s)

/-- BRT (R171, R172). -/
def execBrt (be : Fin 10) (h : SlotHead) (f : SlotB) (s : State) : Out :=
  done (branchRun be h branchBad (fun _ n e =>
    let r := brtDecide e
    openBranch e (if r.1 then some (pcAdd n e.pc f.off.toInt) else none) r.2 none) s)

/-- TRAP: cause 6 at the end of its bundle; undefined on a basin engine and in a delay slot. -/
def execTrap (be : Fin 10) (h : SlotHead) (s : State) : Out :=
  done (slot be h (fun n e => decide (n ≠ ccCore) || inDelay e) (fun t _ =>
    ⟨{ t with cc := { t.cc with trap := true } }, none, false⟩) s)

/-- RFE: a branch to EPC, and ESTAT restored after its delay slots (R173). -/
def execRfe (be : Fin 10) (h : SlotHead) (s : State) : Out :=
  done (branchRun be h (fun n e => decide (n ≠ ccCore) || inDelay e) (fun t _ e =>
    openBranch e (some t.cc.epc) none (some t.cc.pie)) s)

end Sys2Proof.Machine
end

