-- ==== Sys2Proof/Machine/BasinV.lean ====
section
/-! DEFINITION. The V slot of the basin instruction set: lane operations, accumulators, twiddles, butterflies, block exponents, the
adaptive update and the reciprocal (R166, R177 to R184, Tables 07-8 to 07-10). -/
namespace Sys2Proof.Machine

/-! ### Lanes -/

/-- The lanes that act: those the mask named by MK enables (R166). -/
def actLanes (e : BasinEngine) (f : VFields) : List Nat :=
  (List.range 8).filter fun i => (maskRead e f.mask.toNat).getLsbD i

/-- Lane `i` of VA, VB and VC. -/
def laneA (e : BasinEngine) (f : VFields) (i : Nat) : Word := vLane e f.va.toNat i
def laneB (e : BasinEngine) (f : VFields) (i : Nat) : Word := vLane e f.vb.toNat i
def laneC (e : BasinEngine) (f : VFields) (i : Nat) : Word := vLane e f.vc.toNat i

/-- Write the acting lanes of the vector register named `r`. -/
def vecResult (f : VFields) (r lat : Nat) (op : BasinEngine → Nat → Word × Bool) (e : BasinEngine) (x : BasinFx) : BasinFx :=
  (actLanes e f).foldl (fun t i =>
    let w := op e i
    { t.fly 2 lat (.v (vecPhys e r) i w.1) with sat := t.sat || w.2 }) x

/-- Whether a V slot is in use on the control core (R151). -/
def vBad (n : Nat) (_ : BasinEngine) : Bool := decide (n = ccCore)

/-- A lane operation whose result goes to VD. -/
def vOp (be : Fin 10) (h : SlotHead) (f : VFields) (lat : Nat) (op : BasinEngine → Nat → Word × Bool) (s : State) : State :=
  slot be h vBad (regBody fun _ e => vecResult f f.vd.toNat lat op e (BasinFx.none e)) s

/-- A lane operation that stores with RS: dither advances the LFSR once when a lane acts (R180). -/
def vOpNoise (be : Fin 10) (h : SlotHead) (f : VFields) (lat : Nat) (noise : BasinEngine → Bool) (op : BasinEngine → Nat → Word × Bool)
    (s : State) : State :=
  slot be h vBad (regBody fun _ e =>
    { vecResult f f.vd.toNat lat op e (BasinFx.none e) with noise := noise e && !(actLanes e f).isEmpty }) s

/-- The LFSR state that lane `i` takes: rotated left by 4i bits (R180). -/
def laneLfsr (e : BasinEngine) (i : Nat) : BitVec 32 := e.lfsr.rotateLeft (4 * i)

/-- RS and k of CV = X; X[0] to X[2] of the other operations. -/
def vRs (f : VFields) : BitVec 2 := f.x.extractLsb' 3 2
def vK (f : VFields) : Nat := f.x.toNat % 8
def vX (f : VFields) (k : Nat) : Bool := f.x.getLsbD k

/-- The scalar named by VC[4:0]. -/
def scalarC (e : BasinEngine) (f : VFields) : Word := sReg e (f.vc.toNat % 32)

/-! ### Arithmetic -/

/-- Both halves of a lane, each saturated to s.17. -/
def satPair (re im : Int) : Word × Bool :=
  let r := satTo 18 re
  let i := satTo 18 im
  (Word.ofHalves (BitVec.ofInt 18 r.1) (BitVec.ofInt 18 i.1), r.2 || i.2)

/-- A complex store of exact halves in units of 2^-35 (R59, R63). -/
def storePair (re im : Int) (k : Nat) (rs : BitVec 2) (l : BitVec 32) : Word × Bool :=
  let r := storeHalf re k rs (l >>> 16).toNat
  let i := storeHalf im k rs (l.toNat % 65536)
  (Word.ofHalves (BitVec.ofInt 18 r.1) (BitVec.ofInt 18 i.1), r.2 || i.2)

/-- `v` x 2^n for n from -40 to 40: saturated for n > 0, rounded for n < 0, where `d` of `bits` bits dithers (R183). -/
def scaleBy (width : Nat) (v n : Int) (rs : BitVec 2) (bits d : Nat) : Int × Bool :=
  if 0 ≤ n then satTo width (v * 2 ^ n.toNat)
  else
    let k := (-n).toNat
    let m := min k bits
    (roundRS rs v k (d / 2 ^ (bits - m) * 2 ^ (k - m)), false)

/-- VSCALE of one lane. -/
def vscaleLane (f : VFields) (e : BasinEngine) (i : Nat) : Word × Bool :=
  let n := max (-40) (min 40 (scalarC e f).toInt)
  let rs := f.x.extractLsb' 1 2
  let l := laneLfsr e i
  let a := laneA e f i
  if vX f 0 then
    let r := scaleBy 18 a.re.toInt n rs 16 (l >>> 16).toNat
    let m := scaleBy 18 a.im.toInt n rs 16 (l.toNat % 65536)
    (Word.ofHalves (BitVec.ofInt 18 r.1) (BitVec.ofInt 18 m.1), r.2 || m.2)
  else
    let r := scaleBy 36 a.toInt n rs 32 l.toNat
    (BitVec.ofInt 36 r.1, r.2)

/-- The headroom of one lane (R183). -/
def headroom (f : VFields) (a : Word) : Nat :=
  if vX f 0 then min (clsCount 18 a.re.toInt) (clsCount 18 a.im.toInt) else clsCount 36 a.toInt

/-- VRCP of one lane (R184). -/
def vrcpLane (f : VFields) (e : BasinEngine) (i : Nat) : Word × Bool :=
  let a := (laneA e f i).toInt
  if a ≤ 0 then (BitVec.ofInt 36 (2 ^ 35 - 1), true) else satWord (divHalfEven (2 ^ (70 - f.x.toNat)) a.toNat)

/-- VNLMSU of one lane (R184): W + 2^-s G conj(Xr), exact, then rounded half even and saturated per half. -/
def vnlmsuLane (f : VFields) (e : BasinEngine) (i : Nat) : Word × Bool :=
  let w := laneA e f i
  let p := prodCplx true (laneC e f i) (laneB e f i)
  let d := 18 + f.x.toNat
  satPair (roundHalfEven (w.re.toInt * 2 ^ d + p.1) d) (roundHalfEven (w.im.toInt * 2 ^ d + p.2) d)

/-- VTW of one lane (R181). -/
def vtwLane (f : VFields) (e : BasinEngine) (i : Nat) : Word × Bool :=
  let c := (scalarC e f).toNat
  let k := f.x.toNat % 4 * (c % 4096 + i * (c / 4096 % 4096)) % 4096
  let p := prodCplx (vX f 2) (laneA e f i) (twiddle k)
  storePair p.1 p.2 0 0#2 0#32

/-- Output `q` of VBF4 before its scaling, from the inputs' halves (R182). -/
def bf4Sum (inv : Bool) (q : Nat) (a b c d : Int × Int) : Int × Int :=
  let y1 := (a.1 + b.2 - c.1 - d.2, a.2 - b.1 - c.2 + d.1)
  let y3 := (a.1 - b.2 - c.1 + d.2, a.2 + b.1 - c.2 - d.1)
  if q = 0 then (a.1 + b.1 + c.1 + d.1, a.2 + b.2 + c.2 + d.2)
  else if q = 2 then (a.1 - b.1 + c.1 - d.1, a.2 - b.2 + c.2 - d.2)
  else if (q = 1) = (inv = false) then y1 else y3

/-- Output `q` of VBF4 in one lane. -/
def vbf4Lane (f : VFields) (q : Nat) (e : BasinEngine) (i : Nat) : Word × Bool :=
  let inp := fun k => let w := vLane e ((f.va.toNat + k) % 64) i; (w.re.toInt, w.im.toInt)
  let y := bf4Sum (vX f 2) q (inp 0) (inp 1) (inp 2) (inp 3)
  let sh := min (f.x.toNat % 4) 2
  satPair (roundHalfEven y.1 sh) (roundHalfEven y.2 sh)

/-! ### Accumulators (R179) -/

/-- One step on accumulator `a` in the acting lanes: the next accumulating operation sees it at once, VSTA after 4 bundles. VLDA, VLDAX
and VACLR are read by VSTA after 4 bundles too (DESIGN CHOICE, log entry 65: Table 07-10 gives them a forwarding latency only). -/
def accumulate (f : VFields) (a : Nat) (op : BasinEngine → Nat → AccReg → AccReg × Bool) (e : BasinEngine) (x : BasinFx) : BasinFx :=
  (actLanes e f).foldl (fun t i =>
    let r := op e i (Cells.read accZero e.va (8 * a + i))
    { ({ t with e := { t.e with va := Cells.write accZero t.e.va (8 * a + i) r.1 } }).fly 2 4 (.view a i r.1.val) with
      gov := t.gov || r.2 }) x

/-- An accumulating operation on VA[VD[2:0]]. -/
def vAccOp (be : Fin 10) (h : SlotHead) (f : VFields) (op : BasinEngine → Nat → AccReg → AccReg × Bool) (s : State) : State :=
  slot be h vBad (regBody fun _ e => accumulate f (f.vd.toNat % 8) op e (BasinFx.none e)) s

/-- A real step: X[0] AM, X[1] Z, X[2] N. -/
def macReal (f : VFields) (e : BasinEngine) (i : Nat) (r : AccReg) : AccReg × Bool :=
  let p := prodReal (laneA e f i) (laneB e f i)
  accReal (vX f 1) (vX f 0) r (if vX f 2 then -p else p)

/-- A complex step, the second operand conjugated when `conj`. -/
def macCplx (conj : Bool) (f : VFields) (e : BasinEngine) (i : Nat) (r : AccReg) : AccReg × Bool :=
  let p := prodCplx conj (laneA e f i) (laneB e f i)
  if vX f 2 then accCplx (vX f 1) (vX f 0) r (-p.1) (-p.2) else accCplx (vX f 1) (vX f 0) r p.1 p.2

/-- A store of a complex product. -/
def vmulCplx (conj : Bool) (f : VFields) (e : BasinEngine) (i : Nat) : Word × Bool :=
  let p := prodCplx conj (laneA e f i) (laneB e f i)
  storePair p.1 p.2 (vK f) (vRs f) (laneLfsr e i)

/-- The accumulator that VSTA reads: VA[VA[2:0]]. -/
def accView (f : VFields) (e : BasinEngine) (i : Nat) : Acc := Cells.get e.vaView (8 * (f.va.toNat % 8) + i)

/-- Whether a store dithers. -/
def vDithers (f : VFields) (_ : BasinEngine) : Bool := decide (vRs f = 2#2)

/-- A mask result: the bit of a lane that does not act is cleared. -/
def vCompare (be : Fin 10) (h : SlotHead) (f : VFields) (op : Int → Int → Bool) (s : State) : State :=
  slot be h vBad (regBody fun _ e =>
    let m := (actLanes e f).foldl (fun m i => if op (laneA e f i).toInt (laneB e f i).toInt then m + 2 ^ i else m) 0
    (BasinFx.none e).fly 2 1 (.m (f.vd.toNat % 8) (BitVec.ofNat 8 m))) s

/-! ### The operations (Tables 07-9 and 07-10) -/

/-- VNOP: the one V slot that the control core admits; an unassigned VOP is an undefined encoding (R185). -/
def execVnop (be : Fin 10) (x : IdleSlot 7) (s : State) : Out :=
  done (slot be x.head (unassigned (x.op = 0#7)) (regBody fun _ e => BasinFx.none e) s)

/-- VMOV. -/
def execVmov (be : Fin 10) (h : SlotHead) (f : VFields) (s : State) : Out :=
  done (vOp be h f 1 (fun e i => (laneA e f i, false)) s)

/-- VADD, real. -/
def execVadd (be : Fin 10) (h : SlotHead) (f : VFields) (s : State) : Out :=
  done (vOp be h f 1 (fun e i => satWord ((laneA e f i).toInt + (laneB e f i).toInt)) s)

/-- VSUB, real. -/
def execVsub (be : Fin 10) (h : SlotHead) (f : VFields) (s : State) : Out :=
  done (vOp be h f 1 (fun e i => satWord ((laneA e f i).toInt - (laneB e f i).toInt)) s)

/-- VCADD, per half. -/
def execVcadd (be : Fin 10) (h : SlotHead) (f : VFields) (s : State) : Out :=
  done (vOp be h f 1 (fun e i => satHalves (fun a b => a + b) (laneA e f i) (laneB e f i)) s)

/-- VCSUB, per half. -/
def execVcsub (be : Fin 10) (h : SlotHead) (f : VFields) (s : State) : Out :=
  done (vOp be h f 1 (fun e i => satHalves (fun a b => a - b) (laneA e f i) (laneB e f i)) s)

/-- VCONJ. -/
def execVconj (be : Fin 10) (h : SlotHead) (f : VFields) (s : State) : Out :=
  done (vOp be h f 1 (fun e i => conjWord (laneA e f i)) s)

/-- VNEG: real, or per half when X[0] is 1. -/
def execVneg (be : Fin 10) (h : SlotHead) (f : VFields) (s : State) : Out :=
  done (vOp be h f 1 (fun e i =>
    let a := laneA e f i
    if vX f 0 then satPair (-a.re.toInt) (-a.im.toInt) else satWord (-a.toInt)) s)

/-- VMAX, real. -/
def execVmax (be : Fin 10) (h : SlotHead) (f : VFields) (s : State) : Out :=
  done (vOp be h f 1 (fun e i => (if (laneA e f i).toInt ≤ (laneB e f i).toInt then laneB e f i else laneA e f i, false)) s)

/-- VMIN, real. -/
def execVmin (be : Fin 10) (h : SlotHead) (f : VFields) (s : State) : Out :=
  done (vOp be h f 1 (fun e i => (if (laneA e f i).toInt ≤ (laneB e f i).toInt then laneA e f i else laneB e f i, false)) s)

/-- VSEL: by bit i of M[X[2:0]]. -/
def execVsel (be : Fin 10) (h : SlotHead) (f : VFields) (s : State) : Out :=
  done (vOp be h f 1 (fun e i => (if (maskRead e (f.x.toNat % 8)).getLsbD i then laneA e f i else laneB e f i, false)) s)

/-- VPERM: lane VC[i][3:0] of the pair VA, VB. -/
def execVperm (be : Fin 10) (h : SlotHead) (f : VFields) (s : State) : Out :=
  done (vOp be h f 2 (fun e i =>
    let k := (laneC e f i).toNat % 16
    (if k < 8 then laneA e f k else laneB e f (k - 8), false)) s)

/-- VBCAST: S[VA[4:0]]. -/
def execVbcast (be : Fin 10) (h : SlotHead) (f : VFields) (s : State) : Out :=
  done (vOp be h f 1 (fun e _ => (sReg e (f.va.toNat % 32), false)) s)

/-- VEXT: S[VD[4:0]] <- lane X[2:0] of VA, whatever the mask. -/
def execVext (be : Fin 10) (h : SlotHead) (f : VFields) (s : State) : Out :=
  done (slot be h vBad (regBody fun _ e =>
    (BasinFx.none e).fly 2 2 (.s (f.vd.toNat % 32) (laneA e f (f.x.toNat % 8)))) s)

/-- VCMPLT, real signed. -/
def execVcmplt (be : Fin 10) (h : SlotHead) (f : VFields) (s : State) : Out :=
  done (vCompare be h f (fun a b => decide (a < b)) s)

/-- VCMPLE, real signed. -/
def execVcmple (be : Fin 10) (h : SlotHead) (f : VFields) (s : State) : Out :=
  done (vCompare be h f (fun a b => decide (a ≤ b)) s)

/-- VSCALE (R183): dither, and the LFSR's advance, only where bits are discarded. -/
def execVscale (be : Fin 10) (h : SlotHead) (f : VFields) (s : State) : Out :=
  done (vOpNoise be h f 2 (fun e => decide (f.x.extractLsb' 1 2 = 2#2) && decide ((scalarC e f).toInt < 0)) (vscaleLane f) s)

/-- VNORM (R183): the least headroom of the acting lanes against S[VC[4:0]]. -/
def execVnorm (be : Fin 10) (h : SlotHead) (f : VFields) (s : State) : Out :=
  done (slot be h vBad (regBody fun _ e =>
    let r := (actLanes e f).foldl (fun m i => min m (headroom f (laneA e f i) : Int)) (scalarC e f).toInt
    (BasinFx.none e).fly 2 2 (.s (f.vd.toNat % 32) (BitVec.ofInt 36 r))) s)

/-- VABS2: re^2 + im^2 as s.35, halved when X[0] is 1. -/
def execVabs2 (be : Fin 10) (h : SlotHead) (f : VFields) (s : State) : Out :=
  done (vOp be h f 4 (fun e i =>
    let a := laneA e f i
    let v := a.re.toInt * a.re.toInt + a.im.toInt * a.im.toInt
    satWord (if vX f 0 then v else v * 2)) s)

/-- VRCP. -/
def execVrcp (be : Fin 10) (h : SlotHead) (f : VFields) (s : State) : Out :=
  done (vOp be h f 6 (vrcpLane f) s)

/-- VMAC: real VA x VB. -/
def execVmac (be : Fin 10) (h : SlotHead) (f : VFields) (s : State) : Out :=
  done (vAccOp be h f (macReal f) s)

/-- VCMAC: complex VA x VB. -/
def execVcmac (be : Fin 10) (h : SlotHead) (f : VFields) (s : State) : Out :=
  done (vAccOp be h f (macCplx false f) s)

/-- VCMACJ: complex VA x conj(VB). -/
def execVcmacj (be : Fin 10) (h : SlotHead) (f : VFields) (s : State) : Out :=
  done (vAccOp be h f (macCplx true f) s)

/-- VTAPM: VMAC, then VA shifts by a lane, lane 7 of VC entering at lane 0, regardless of the mask. -/
def execVtapm (be : Fin 10) (h : SlotHead) (f : VFields) (s : State) : Out :=
  done (slot be h vBad (regBody fun _ e =>
    let x := accumulate f (f.vd.toNat % 8) (macReal f) e (BasinFx.none e)
    (List.range 8).foldl (fun t i =>
      t.fly 2 1 (.v (vecPhys e f.va.toNat) i (if i = 0 then laneC e f 7 else laneA e f (i - 1)))) x) s)

/-- VMULR: a store of the real product. -/
def execVmulr (be : Fin 10) (h : SlotHead) (f : VFields) (s : State) : Out :=
  done (vOpNoise be h f 4 (vDithers f) (fun e i =>
    let r := storeRealInt (prodReal (laneA e f i) (laneB e f i)) (vK f) (vRs f) (laneLfsr e i)
    (r.w, r.sat)) s)

/-- VCMULR: a store of the complex product. -/
def execVcmulr (be : Fin 10) (h : SlotHead) (f : VFields) (s : State) : Out :=
  done (vOpNoise be h f 4 (vDithers f) (vmulCplx false f) s)

/-- VCMULJR: with VA x conj(VB). -/
def execVcmuljr (be : Fin 10) (h : SlotHead) (f : VFields) (s : State) : Out :=
  done (vOpNoise be h f 4 (vDithers f) (vmulCplx true f) s)

/-- VSTA: a real store of an accumulator. -/
def execVsta (be : Fin 10) (h : SlotHead) (f : VFields) (s : State) : Out :=
  done (vOpNoise be h f 1 (vDithers f) (fun e i =>
    let r := storeRealInt (accView f e i).toInt (vK f) (vRs f) (laneLfsr e i)
    (r.w, r.sat)) s)

/-- VSTAX: a complex store of an accumulator. -/
def execVstax (be : Fin 10) (h : SlotHead) (f : VFields) (s : State) : Out :=
  done (vOpNoise be h f 1 (vDithers f) (fun e i =>
    let a := accView f e i
    storePair a.re.toInt a.im.toInt (vK f) (vRs f) (laneLfsr e i)) s)

/-- VLDA: VA as s.35 in the real layout. -/
def execVlda (be : Fin 10) (h : SlotHead) (f : VFields) (s : State) : Out :=
  done (vAccOp be h f (fun e i r => accReal true false r ((laneA e f i).toInt * 2 ^ 36)) s)

/-- VLDAX: each half <- the s.17 half of VA. -/
def execVldax (be : Fin 10) (h : SlotHead) (f : VFields) (s : State) : Out :=
  done (vAccOp be h f (fun e i r =>
    accCplx true false r ((laneA e f i).re.toInt * 2 ^ 18) ((laneA e f i).im.toInt * 2 ^ 18)) s)

/-- VACLR: the accumulator <- 0, which ends any pin. -/
def execVaclr (be : Fin 10) (h : SlotHead) (f : VFields) (s : State) : Out :=
  done (vAccOp be h f (fun _ _ r => accReal true false r 0) s)

/-- VNLMSU. -/
def execVnlmsu (be : Fin 10) (h : SlotHead) (f : VFields) (s : State) : Out :=
  done (vOp be h f 4 (vnlmsuLane f) s)

/-- VTW. -/
def execVtw (be : Fin 10) (h : SlotHead) (f : VFields) (s : State) : Out :=
  done (vOp be h f 4 (vtwLane f) s)

/-- VBF4: a quad that starts at a name other than a multiple of 4 is an undefined encoding. -/
def execVbf4 (be : Fin 10) (h : SlotHead) (f : VFields) (s : State) : Out :=
  done (slot be h (fun n e => vBad n e || decide (f.va.toNat % 4 ≠ 0) || decide (f.vd.toNat % 4 ≠ 0)) (regBody fun _ e =>
    (List.range 4).foldl (fun x q => vecResult f (f.vd.toNat + q) 3 (vbf4Lane f q) e x) (BasinFx.none e)) s)

end Sys2Proof.Machine
end

