-- ==== Sys2Proof/Machine/HostCmd.lean ====
section
/-! DEFINITION. The host's command ring: every command with its completion, host reads that fail, and doorbells (chapter 15,
R351, R355 to R362; R432, R434). -/
namespace Sys2Proof.Machine

/-! ### Descriptors (R356) -/

/-- The fields of a command descriptor (Table 15-5). -/
structure Command where
  opcode : BitVec 16
  tag : BitVec 16
  arg0 : BitVec 32 := 0#32
  addr : BitVec 64 := 0#64
  len : BitVec 32 := 0#32
  arg1 : BitVec 32 := 0#32
  arg2 : BitVec 32 := 0#32
  arg3 : BitVec 32 := 0#32
  deriving DecidableEq, Repr

/-- The command that the 32 bytes of a slot hold (R356, Table 15-5). -/
def commandOf (d : List Byte) : Command :=
  { opcode := BitVec.ofNat 16 (descField d 0 2), tag := BitVec.ofNat 16 (descField d 2 2), arg0 := BitVec.ofNat 32 (descField d 4 4),
    addr := BitVec.ofNat 64 (descField d 8 8), len := BitVec.ofNat 32 (descField d 16 4), arg1 := BitVec.ofNat 32 (descField d 20 4),
    arg2 := BitVec.ofNat 32 (descField d 24 4), arg3 := BitVec.ofNat 32 (descField d 28 4) }

/-- The command in the next slot of ring 0: in host memory `g`, as the command of the block gives it; in local mode what the yard holds,
when that is a command of the same opcode, once the yard does not hold the read. A slot that cannot be read stops the ring (R355, R373). -/
def cmdFetch (s : State) (g : Command) : Option Command × State :=
  if hostHolds s masterHost (ringSlot s 0 (ringCi s 0)) 32 then (none, s)
  else
  let d := hostGet s masterHost (ringSlot s 0 (ringCi s 0)) 32 [] false
  if !hostLocal s then (some g, d.2.2)
  else if d.2.1 then (none, ringFail d.2.2 0)
  else if (commandOf d.1).opcode = g.opcode then (some (commandOf d.1), d.2.2)
  else (none, s)

/-! ### Completions (R357, R362) -/

/-- Status codes of Table 15-9. -/
def stOk : Nat := 0
def stBadOpcode : Nat := 1
def stBadArg : Nat := 2
def stTarget : Nat := 3
def stHost : Nat := 4
def stRefused : Nat := 5
def stPartial : Nat := 6
def stAborted : Nat := 7
def stNotInSafe : Nat := 8

/-- What a command answers: status, DETAIL0 and DETAIL1, and the state after its effects. -/
structure CmdResult where
  status : Nat
  d0 : Nat
  d1 : Nat
  st : State

/-- Whether the supervisor has armed the first mode, which it does before the handler takes the first command (R36). In SAFE it names
none, and the recovery commands are served. -/
def handlerOpen (s : State) : Bool := s.tick.entered || s.tick.pending || inSafe s

/-- Whether a command may execute: the handler takes commands, a slot is produced, a completion slot is free, and no command holds the
ring. -/
def cmdReady (s : State) : Bool :=
  handlerOpen s && decide (ringReady s 0 ≠ 0) && decide (ringReady s 1 ≠ 0) && s.host.held.isNone

/-- Write the completion record and advance ring 0 (Table 15-8). -/
def cmdComplete (s : State) (opcode : Nat) (tag : BitVec 16) (status d0 d1 : Nat) (frame : BitVec 64) : State :=
  ringAdvance (ringRecord s 1 [tag.toNat + status * 65536 + opcode % 256 * 2 ^ 24, d0, d1, ringCi s 0,
    frame.toNat % 2 ^ 32, frame.toNat / 2 ^ 32, 0, 0]) 0

/-- Whether the life cycle or SAFE keeps the command from executing: the status that answers it instead. -/
def cmdBarred (s : State) (opcode : Nat) : Option (Nat × Nat) :=
  if lifeCycle s = 4 ∧ [0x01, 0x02, 0x50].contains opcode = false then some (stRefused, 8)
  else if inSafe s ∧ [0x01, 0x02, 0x12, 0x13, 0x40, 0x41, 0x50].contains opcode = false then some (stNotInSafe, 0)
  else none

/-- Execute the command in the next slot: `run` is its effect with its completion. `wait` says that an access it must make waits: it stays
in its slot. -/
def cmdStart (s : State) (g : Command) (wait : Command → State → Bool) (run : Command → State → State) : State :=
  if cmdReady s then
    match cmdFetch s g with
    | (some c, t) =>
      match cmdBarred t c.opcode.toNat with
      | some r => cmdComplete t c.opcode.toNat c.tag r.1 r.2 0 t.tick.frameCnt
      | none => if wait c t then s else run c t
    | (none, t) => t
  else s

/-- Execute a command whose completion follows its effect `body`. -/
def cmdRun (s : State) (g : Command) (wait : Command → State → Bool) (body : Command → State → CmdResult) : State :=
  cmdStart s g wait fun c t => let r := body c t; cmdComplete r.st c.opcode.toNat c.tag r.status r.d0 r.d1 r.st.tick.frameCnt

/-- A command whose accesses never wait. -/
def noWait (_ : Command) (_ : State) : Bool := false

/-- An answer with the status alone. -/
def cmdAnswer (s : State) (status : Nat) : CmdResult := ⟨status, 0, 0, s⟩

/-! ### Buffers -/

/-- The 36-bit word in 8 bytes of a buffer, and a word as 8 bytes (R359). -/
def bufferWord (bs : List Byte) (i : Nat) : Word := BitVec.ofNat 36 (leVal ((bs.drop (8 * i)).take 8))
def wordBytes (w : Word) : List Byte := leNat 8 w.toNat

/-! ### Moving words and bytes (R358, R359) -/

/-- Write words upwards from `a`: the index of the first word not moved, if any. -/
def loadWords (s : State) (a i : Nat) : List Word → Option Nat × State
  | [] => (none, s)
  | w :: t =>
    let r := xWriteWord s masterHost (a + i) w
    if r.1 then (some i, r.2) else loadWords r.2 a (i + 1) t

/-- Read `n` words upwards from `a`: the words moved, the index of the first not moved, and the state. -/
def readWords (s : State) (a i : Nat) : Nat → List Word × Option Nat × State
  | 0 => ([], none, s)
  | n + 1 =>
    let r := xReadWord s masterHost (a + i)
    if r.2.1 then ([], some i, r.2.2)
    else let q := readWords r.2.2 a (i + 1) n; (r.1 :: q.1, q.2)

/-- The bytes from `o` on, word by word: each first byte and count. -/
def byteChunks (o n : Nat) : List (Nat × Nat) :=
  (byteWords o n).map fun w => (max o (4 * w), min (o + n) (4 * w + 4) - max o (4 * w))

/-- Write yard bytes, word by word: the index of the first byte not moved, if any. -/
def loadBytes (s : State) (moved : Nat) (bs : List Byte) : List (Nat × Nat) → Option Nat × State
  | [] => (none, s)
  | c :: t =>
    let r := yardWriteBytes s masterHost c.1 (bs.take c.2)
    if r.1 then (some moved, r.2) else loadBytes r.2 (moved + c.2) (bs.drop c.2) t

/-- Read yard bytes, word by word: the bytes moved, the index of the first not moved, and the state. -/
def readBytes (s : State) (moved : Nat) : List (Nat × Nat) → List Byte × Option Nat × State
  | [] => ([], none, s)
  | c :: t =>
    let r := yardReadBytes s masterHost c.1 c.2
    if r.2.1 then ([], some moved, r.2.2)
    else let q := readBytes r.2.2 (moved + c.2) t; (r.1 ++ q.1, q.2)

/-- `n` bytes of a command's buffer: the host's data as the command gives them, absent bytes zero, or in local mode the yard's; with the
index of the first byte that cannot be read (R373). -/
def cmdBuffer (s : State) (addr : BitVec 64) (n : Nat) (data : List Byte) : List Byte × Option Nat × State :=
  if hostLocal s then
    match yardOffset addr.toNat with
    | some o => readBytes s 0 (byteChunks o n)
    | none => ([], some 0, defaultTarget s masterHost (addr.toNat % 2 ^ 32) false false)
  else ((data ++ List.replicate (n - data.length) 0#8).take n, none, tagsNote s false n)

/-- A command that takes its buffer's bytes: HOST_ERR with the offset of the first that cannot be read (R355). -/
def withBuffer (s : State) (addr : BitVec 64) (n : Nat) (data : List Byte) (body : List Byte → State → CmdResult) : CmdResult :=
  let b := cmdBuffer s addr n data
  match b.2.1 with
  | some o => ⟨stHost, o, 0, b.2.2⟩
  | none => body b.1 b.2.2

/-- The status of a move that stopped at an index. -/
def moveStatus (i : Option Nat) (s : State) : CmdResult :=
  match i with
  | some k => ⟨stTarget, k, 0, s⟩
  | none => cmdAnswer s stOk

/-- Whether a word-space access of `n` words from `a` meets one that waits. -/
def wordsWait (s : State) (a n : Nat) : Bool := (List.range n).any fun i => accessWaits s masterHost (.readWord (BitVec.ofNat 24 (a + i)))

/-- Whether a word range is one that LOAD_WORDS and READ_WORDS take. -/
def wordRange (a n : Nat) : Bool := decide (1 ≤ n) && decide (n ≤ 1048576) && decide (a + n ≤ 0x1000000)

/-- LOAD_WORDS. -/
def cmdLoadWords (s : State) (a n : Nat) (addr : BitVec 64) (data : List Byte) : CmdResult :=
  if wordRange a n then
    withBuffer s addr (8 * n) data fun bs t =>
      let r := loadWords t a 0 ((List.range n).map (bufferWord bs))
      moveStatus r.1 r.2
  else cmdAnswer s stBadArg

/-- READ_WORDS. -/
def cmdReadWords (s : State) (a n : Nat) (addr : BitVec 64) : CmdResult :=
  if wordRange a n then
    let r := readWords s a 0 n
    moveStatus r.2.1 (hostPut r.2.2 addr.toNat (r.1.flatMap wordBytes))
  else cmdAnswer s stBadArg

/-- Whether a byte range lies in the yard. -/
def yardRange (a n : Nat) : Bool := decide (1 ≤ n) && decide (0x10000000 ≤ a) && decide (a + n ≤ 0x12000000)

/-- Whether a byte range lies in flash. -/
def flashRange (a n : Nat) : Bool := decide (1 ≤ n) && decide (a + n ≤ 0x800000)

/-- Whether a byte range meets an access that waits. -/
def bytesWait (s : State) (a n : Nat) : Bool :=
  if yardRange a n then (byteWords (a - 0x10000000) n).any (yardHolds s masterHost) else flashRange a n && s.bit Reg.FL_STATUS 0

/-- LOAD_BYTES. -/
def cmdLoadBytes (s : State) (a n : Nat) (addr : BitVec 64) (data : List Byte) : CmdResult :=
  if yardRange a n then
    withBuffer s addr n data fun bs t =>
      let r := loadBytes t 0 bs (byteChunks (a - 0x10000000) n)
      moveStatus r.1 r.2
  else cmdAnswer s stBadArg

/-- READ_BYTES. -/
def cmdReadBytes (s : State) (a n : Nat) (addr : BitVec 64) : CmdResult :=
  if yardRange a n then
    let r := readBytes s 0 (byteChunks (a - 0x10000000) n)
    moveStatus r.2.1 (hostPut r.2.2 addr.toNat r.1)
  else if flashRange a n then cmdAnswer (hostPut s addr.toNat ((List.range n).map fun i => flashByte s (a + i))) stOk
  else cmdAnswer s stBadArg

/-! ### IDENTIFY and commits -/

/-- The IDENTIFY record (Table 15-7). -/
def identifyRecord (s : State) : List Nat :=
  [(s.reg Reg.SYS_ID).toNat, (s.reg Reg.BOOT_SEQ).toNat,
   (if s.tick.entered then modeArg s.tick.mode s.tick.family else 3) + lifeCycle s * 256,
   s.fld Reg.BOOT_SAFE 0 8 + (if s.boot.slot = some 1 then 256 else 0) + (if s.bit Reg.BOOT_STATUS 2 then 512 else 0), 0, 0, 0, 0]

/-- Whether set `k` exists and COMMIT of it was taken: registered or deferred. -/
def commitTaken (s : State) (k : Nat) : Bool := decide (k < 29) && commitReads s k

/-- A bitmap of the sets below 64 that satisfy `p`. -/
def setBits (p : Nat → Bool) : BitVec 64 := BitVec.ofNat 64 ((List.range 64).foldl (fun n k => if p k then n + 2 ^ k else n) 0)

/-- The completion of a COMMIT command that no longer waits (R360). -/
def commitComplete (s : State) (h : CommitWait) : State :=
  let s1 := { s with host := { s.host with held := none } }
  let frame := if h.wait && decide (h.live = 0#64) && decide (h.frame ≠ 0#64) then h.frame else s.tick.frameCnt
  if h.aborted then cmdComplete s1 0x20 h.tag stAborted h.group.toNat 0 frame
  else if h.refused ≠ 0#64 then
    cmdComplete s1 0x20 h.tag stPartial (h.refused.extractLsb' 0 32).toNat (h.refused.extractLsb' 32 32).toNat frame
  else cmdComplete s1 0x20 h.tag stOk 0 0 frame

/-- Whether a COMMIT command's completion is due. -/
def commitDue (h : CommitWait) : Bool := h.aborted || (decide (h.late = 0#64) && (!h.wait || decide (h.live = 0#64)))

/-- COMMIT (R360): every named set's commit in one cycle; then the completion, at once or when it is due. -/
def cmdCommit (s : State) (tag : BitVec 16) (mask : BitVec 64) (g : BitVec 4) (wait : Bool) : State :=
  let s1 := (List.range 29).foldl (fun t k => if mask.getLsbD k then commitCommand t k g else t) s
  let named := fun k => mask.getLsbD k
  let h : CommitWait :=
    { tag := tag, index := BitVec.ofNat 16 (ringCi s 0), group := g, wait := wait,
      live := setBits fun k => named k && commitTaken s1 k && !(setAt s1 k).deferred,
      late := setBits fun k => named k && commitTaken s1 k && (setAt s1 k).deferred,
      refused := setBits fun k => named k && !commitTaken s1 k, frame := 0#64, aborted := false }
  if commitDue h then commitComplete s1 h else { s1 with host := { s1.host with held := some h } }

/-- COMMIT_WAIT_COMPLETION (R360). -/
def commitWaitEnd (s : State) : State :=
  match s.host.held with
  | some h => if commitDue h && decide (ringReady s 1 ≠ 0) then commitComplete s h else s
  | none => s

/-! ### Mode, policy, flash and reset -/

/-- MODE_SET (R361): the completion of a request for STANDBY or SAFE is written before the ramp begins. -/
def cmdModeSet (s : State) (tag : BitVec 16) (m : BitVec 3) (fam : Bool) (g : BitVec 4) : State :=
  let stop := decide (m = 1#3) || decide (m = 3#3)
  if stop && modeRuns s then
    (modeRequest (cmdComplete s 0x30 tag stOk 0 0 s.tick.frameCnt) 0 0 m fam g).2
  else
    let r := modeRequest s 0 0 m fam g
    cmdComplete r.2 0x30 tag (if r.1 = 0 then stOk else stRefused) r.1 0 r.2.tick.frameCnt

/-- POLICY_LOAD (R444). -/
def cmdPolicyLoad (s : State) (n : Nat) (addr : BitVec 64) (data : List Byte) : CmdResult :=
  withBuffer s addr n data fun bs t =>
    let r := policyLoad t bs
    match r.1 with
    | some o => ⟨stBadArg, o, 0, r.2⟩
    | none => cmdAnswer r.2 stOk

/-- One operation through the flash controller: FL_ADDR, FL_DATA and FL_CMD, to its end. The answer says that it was refused. -/
def flashStep (s : State) (a : Nat) (bs : List Byte) (erase : Bool) : Bool × State :=
  let s1 := s.setReg Reg.FL_ADDR (BitVec.ofNat 32 a)
  let s2 := if erase then s1 else (List.range 4).foldl (fun t i => t.setReg (Reg.FL_DATA i) (leWord ((bs.drop (4 * i)).take 4))) s1
  let bad := decide (flashRefusal s2 erase a ≠ 0)
  (bad, flashDone (flashCommand s2 masterCcD erase).2 false)

/-- The operations of FLASH_PROGRAM or FLASH_ERASE in order, up to the first that is refused. -/
def flashRun (s : State) (a : Nat) (bs : List Byte) (erase : Bool) : List Nat → Option Nat × State
  | [] => (none, s)
  | o :: t =>
    let r := flashStep s (a + o) ((bs.drop o).take 16) erase
    if r.1 then (some o, r.2) else flashRun r.2 a bs erase t

/-- The status that refuses FLASH_PROGRAM or FLASH_ERASE before it starts: its range is no whole granules or blocks of the slot regions, or
lies in the running image's slot. -/
def flashBarred (s : State) (a n : Nat) (erase : Bool) : Option (Nat × Nat) :=
  let unit := if erase then 65536 else 16
  if a % unit ≠ 0 ∨ n % unit ≠ 0 ∨ a < 0x10000 ∨ 0x710000 < a + n then some (stBadArg, 0)
  else if s.boot.slot.isSome ∧ (List.range (n / unit)).any (fun k => decide (slotOf (a + unit * k) = s.boot.slot)) = true then
    some (stRefused, 7)
  else none

/-- FLASH_PROGRAM. -/
def cmdFlashProgram (s : State) (a n : Nat) (addr : BitVec 64) (data : List Byte) : CmdResult :=
  match flashBarred s a n false with
  | some r => ⟨r.1, r.2, 0, s⟩
  | none => withBuffer s addr n data fun bs t =>
    let r := flashRun t a bs false ((List.range (n / 16)).map fun k => 16 * k)
    moveStatus r.1 r.2

/-- FLASH_ERASE. -/
def cmdFlashErase (s : State) (a n : Nat) : CmdResult :=
  match flashBarred s a n true with
  | some r => ⟨r.1, r.2, 0, s⟩
  | none =>
    let r := flashRun s a [] true ((List.range (n / 65536)).map fun k => 65536 * k)
    moveStatus r.1 r.2

/-! ### The commands -/

/-- The opcodes of Table 15-6. -/
def hostOpcodes : List Nat := [0x01, 0x02, 0x10, 0x11, 0x12, 0x13, 0x20, 0x21, 0x22, 0x30, 0x31, 0x40, 0x41, 0x50]

/-- NOP (R358); an opcode that Table 15-6 does not list completes with BAD_OPCODE. -/
def execNopCommand (opcode tag : BitVec 16) (s : State) : Out :=
  done (if opcode = 1#16 then cmdRun s { opcode := 1#16, tag := tag } noWait fun _ t => cmdAnswer t stOk
    else if hostOpcodes.contains opcode.toNat then s
    else cmdRun s { opcode := opcode, tag := tag } noWait fun _ t => cmdAnswer t stBadOpcode)

/-- IDENTIFY (R358). -/
def execIdentify (tag : BitVec 16) (addr : BitVec 64) (s : State) : Out :=
  done (cmdRun s { opcode := 2#16, tag := tag, addr := addr } noWait
    fun c t => cmdAnswer (hostPut t c.addr.toNat (leDwords (identifyRecord t))) stOk)

/-- Whether a command that moves words, or one that moves bytes, meets an access that waits, comes behind one of the host DMA master's
(R378), or must wait for its buffer. -/
def cmdWordsWait (c : Command) (s : State) : Bool :=
  wordRange c.arg0.toNat c.len.toNat &&
    (masterWaits s masterHost || wordsWait s c.arg0.toNat c.len.toNat || hostHolds s masterHost c.addr.toNat (8 * c.len.toNat))
def cmdBytesWait (c : Command) (s : State) : Bool :=
  (yardRange c.arg0.toNat c.len.toNat || flashRange c.arg0.toNat c.len.toNat) &&
    (masterWaits s masterHost || bytesWait s c.arg0.toNat c.len.toNat || hostHolds s masterHost c.addr.toNat c.len.toNat)

/-- LOAD_WORDS (R101, R358, R359). -/
def execLoadWords (tag : BitVec 16) (arg0 len : BitVec 32) (addr : BitVec 64) (data : List Byte) (s : State) : Out :=
  done (cmdRun s { opcode := 0x10#16, tag := tag, arg0 := arg0, len := len, addr := addr } cmdWordsWait
    fun c t => cmdLoadWords t c.arg0.toNat c.len.toNat c.addr data)

/-- READ_WORDS (R101, R358, R359). -/
def execReadWords (tag : BitVec 16) (arg0 len : BitVec 32) (addr : BitVec 64) (s : State) : Out :=
  done (cmdRun s { opcode := 0x11#16, tag := tag, arg0 := arg0, len := len, addr := addr } cmdWordsWait
    fun c t => cmdReadWords t c.arg0.toNat c.len.toNat c.addr)

/-- LOAD_BYTES (R358). -/
def execLoadBytes (tag : BitVec 16) (arg0 len : BitVec 32) (addr : BitVec 64) (data : List Byte) (s : State) : Out :=
  done (cmdRun s { opcode := 0x12#16, tag := tag, arg0 := arg0, len := len, addr := addr } cmdBytesWait
    fun c t => cmdLoadBytes t c.arg0.toNat c.len.toNat c.addr data)

/-- READ_BYTES (R358). -/
def execReadBytes (tag : BitVec 16) (arg0 len : BitVec 32) (addr : BitVec 64) (s : State) : Out :=
  done (cmdRun s { opcode := 0x13#16, tag := tag, arg0 := arg0, len := len, addr := addr } cmdBytesWait
    fun c t => cmdReadBytes t c.arg0.toNat c.len.toNat c.addr)

/-- COMMIT_COMMAND (R360): the mask in ARG1 and ARG0, the group in ARG2 [3:0] and WAIT in ARG2 [8]. -/
def execCommitCommand (tag : BitVec 16) (mask : BitVec 64) (group : BitVec 4) (wait : Bool) (s : State) : Out :=
  let arg2 := group.setWidth 32 ||| if wait then 256#32 else 0#32
  done (cmdStart s { opcode := 0x20#16, tag := tag, arg0 := mask.extractLsb' 0 32, arg1 := mask.extractLsb' 32 32, arg2 := arg2 } noWait
    fun c t => cmdCommit t c.tag (c.arg1 ++ c.arg0) (c.arg2.extractLsb' 0 4) (c.arg2.getLsbD 8))

/-- COMMIT_WAIT_COMPLETION (R360). -/
def execCommitWaitCompletion (s : State) : Out := done (commitWaitEnd s)

/-- GROUP_MASK (R246, R358). -/
def cmdGroupMask (s : State) (arg0 arg1 : BitVec 32) (group : BitVec 4) : CmdResult :=
  if group = 0#4 then cmdAnswer s stBadArg
  else cmdAnswer ((s.setReg (Reg.SL_GMASK_LO (group.toNat - 1)) (arg0 &&& 0x1FFFFFFF#32)).setReg
    (Reg.SL_GMASK_HI (group.toNat - 1)) (arg1 &&& 0#32)) stOk

/-- GROUP_MASK (R246, R358). -/
def execGroupMask (tag : BitVec 16) (arg0 arg1 : BitVec 32) (group : BitVec 4) (s : State) : Out :=
  done (cmdRun s { opcode := 0x21#16, tag := tag, arg0 := arg0, arg1 := arg1, arg2 := group.setWidth 32 } noWait
    fun c t => cmdGroupMask t c.arg0 c.arg1 (c.arg2.extractLsb' 0 4))

/-- ABORT_GROUP (R248, R358). -/
def execAbortGroup (tag : BitVec 16) (group : BitVec 4) (s : State) : Out :=
  done (cmdRun s { opcode := 0x22#16, tag := tag, arg2 := group.setWidth 32 } noWait
    fun c t => cmdAnswer (abortGroup t (c.arg2.extractLsb' 0 4)) stOk)

/-- MODE_SET (R31, R361): the mode code in ARG0 [2:0], the family in ARG0 [4] and the group in ARG0 [11:8]. -/
def execModeSet (tag : BitVec 16) (mode : BitVec 3) (family : Bool) (group : BitVec 4) (s : State) : Out :=
  let arg0 := mode.setWidth 32 ||| (if family then 16#32 else 0#32) ||| (group.setWidth 32 <<< 8)
  done (cmdStart s { opcode := 0x30#16, tag := tag, arg0 := arg0 } noWait
    fun c t => cmdModeSet t c.tag (c.arg0.extractLsb' 0 3) (c.arg0.getLsbD 4) (c.arg0.extractLsb' 8 4))

/-- POLICY_LOAD (R358, R444). -/
def execPolicyLoad (tag : BitVec 16) (len : BitVec 32) (addr : BitVec 64) (data : List Byte) (s : State) : Out :=
  done (cmdRun s { opcode := 0x31#16, tag := tag, len := len, addr := addr }
    (fun c t => hostHolds t masterHost c.addr.toNat c.len.toNat) fun c t => cmdPolicyLoad t c.len.toNat c.addr data)

/-- Whether a flash operation runs, which the flash commands wait for (R416), or FLASH_PROGRAM must wait for its buffer. -/
def cmdFlashWait (c : Command) (s : State) : Bool :=
  s.bit Reg.FL_STATUS 0 || (decide (c.opcode = 0x40#16) && hostHolds s masterHost c.addr.toNat c.len.toNat)

/-- FLASH_PROGRAM (R358, R416): it waits for a flash operation to end. -/
def execFlashProgram (tag : BitVec 16) (arg0 len : BitVec 32) (addr : BitVec 64) (data : List Byte) (s : State) : Out :=
  done (cmdRun s { opcode := 0x40#16, tag := tag, arg0 := arg0, len := len, addr := addr } cmdFlashWait
    fun c t => cmdFlashProgram t c.arg0.toNat c.len.toNat c.addr data)

/-- FLASH_ERASE (R358, R416). -/
def execFlashErase (tag : BitVec 16) (arg0 len : BitVec 32) (s : State) : Out :=
  done (cmdRun s { opcode := 0x41#16, tag := tag, arg0 := arg0, len := len } cmdFlashWait
    fun c t => cmdFlashErase t c.arg0.toNat c.len.toNat)

/-- RESET's completion, and then the warm reset (R358). -/
def cmdReset (c : Command) (s : State) : State :=
  let good := decide (c.arg0 = 0#32)
  let t := cmdComplete s 0x50 c.tag (if good then stOk else stBadArg) 0 0 s.tick.frameCnt
  if good then warmReset t rstHostCommand else t

/-- RESET (R358): the completion is written, then the device enters warm reset. -/
def execResetCommand (tag : BitVec 16) (arg0 : BitVec 32) (s : State) : Out :=
  done (cmdStart s { opcode := 0x50#16, tag := tag, arg0 := arg0 } noWait cmdReset)

/-! ### Host reads that fail (R355) -/

/-- The effect of Table 15-4. -/
def hostReadError (s : State) (what : HostRead) (timeout : Bool) : State :=
  let s1 := hostReadFail s timeout
  match what with
  | .descriptor r => ringFail s1 r.val
  | .command opcode tag offset => cmdRun s1 { opcode := opcode, tag := tag } noWait fun _ t => ⟨stHost, offset.toNat, 0, t⟩
  | .audio a => ainFetch s1 a.val []
  | .frame p q => txDescriptor s1 p.val q.val [] [] true

/-- HOST_READ_ERROR (R355): rings in the yard read no host memory. -/
def execHostReadError (what : HostRead) (timeout : Bool) (s : State) : Out :=
  done (if hostLocal s then s else hostReadError s what timeout)

/-! ### Doorbells (R351, R371) -/

/-- DOORBELL (R351, R353, R371): frames held in the receive buffer are delivered to the slots it produces, `descs` in ring order. -/
def execDoorbell (r : Fin 64) (v : BitVec 32) (fromCore : Bool) (descs : List (List Byte)) (s : State) : Out :=
  done (doorbellRing s r.val v fromCore descs)

end Sys2Proof.Machine
end

