-- ==== Sys2Proof/Machine/Kernel.lean ====
section
/-! DEFINITION. Kernel dispatch, entries, deadline and frame DMA of the basin engines, and the control core's interrupts and waits
(R133 to R144, R148, R156 to R158, R454). -/
namespace Sys2Proof.Machine

/-! ### Dispatch (R133, R134) -/

/-- The word of the trough address block for trough-list word `w`: the image a kernel reads or writes is the one that is neither
captured nor played in this frame, and an input trough counts as absent in its first frame (R134, R212). -/
def troughImageWord (s : State) (w : Word) : Word :=
  let t := tlTrough w
  let x := troughLive s t
  if x.bound && !x.first && !troughBad s t then 1#1 ++ 0#12 ++ BitVec.ofNat 23 (troughImage s t (!x.phase)) else 0#36

/-- The marks of the trough-list words of an entry, and of the frame-table words `i` to `k`. -/
def listMarks (s : State) (n : Nat) (e : FrameEntry) : List (BitVec 2 × Nat) :=
  (List.range e.tcount).map fun k => let o := (e.tlist + k) % 8192; ((basinStaged s n o).2, basinLoc 2 o)
def tableMarks (s : State) (n i k : Nat) : List (BitVec 2 × Nat) :=
  (List.range (4 * (k + 1 - i))).map fun j => (s.mark (basinWin n + 0x52000 + 4 * i + j), basinLoc 3 (4 * i + j))

/-- Dispatch of entry `i` on engine `n`: the trough address block, S1 to S3, rotation bases and loop counts. -/
def dispatchEntry (s : State) (n i : Nat) : State :=
  let e := frameEntry s n i
  let s0 := (s.eccEvents (basinSite n) (tableMarks s n (coreOf s n).nextEntry i)).eccEvents (basinSite n) (listMarks s n e)
  let words := (troughList s n e).map (troughImageWord s) ++ List.replicate (32 - e.tcount) 0#36
  let s1 := words.zipIdx.foldl (fun t p => localPut t n (0x3FFE0 + p.2) p.1) s0
  let c := coreOf s1 n
  let regs := vset (vset (vset c.s 1 (BitVec.ofNat 36 (0x40000 + e.pbase))) 2 (BitVec.ofNat 36 i)) 3 (frameWord s)
  putCore s1 n (setEntryStatus
    { c with
      s := regs, rrbv := 0#5, rrbp := 0#3, lcnt := 0#36, ecnt := 0#36, pc := BitVec.ofNat 32 e.entry, branch := none, begun := false,
      bundle := 0, flights := [], current := some i } i .running)

/-- No entry is left: the words of the entries passed over have been read (R148). -/
def dispatchEnd (s : State) (n : Nat) : State :=
  if basinRuns s n then
    let s1 := s.eccEvents (basinSite n) (tableMarks s n (coreOf s n).nextEntry 63)
    putCore s1 n { coreOf s1 n with nextEntry := 64 }
  else s

/-- KERNEL_DISPATCH on engine `n`: the next entry, when none runs. -/
def kernelDispatch (n : Nat) (s : State) : State :=
  if (coreOf s n).current.isSome then s
  else match nextEntry s n with
    | some i => dispatchEntry s n i
    | none => dispatchEnd s n

/-- KERNEL_STOP on engine `n`: the stop bundle, fetched with its first command (R148), ends the entry, and its results land (R135). -/
def kernelStop (n : Nat) (s : State) : State :=
  if (coreOf s n).current.isSome then
    match bundleStart s n false 0#2 with
    | (.fault f, s1) => slotFault s1 n f
    | (.go, s1) => entryEnd s1 n .stopped
    | (.wait, _) => s
  else s

/-! ### Completion (R39, R140, R454) -/

/-- Whether a channel of engine `n` still runs a chain that entry `i` started. -/
def entryMoves (s : State) (n i : Nat) : Bool := (coreOf s n).dma.toList.any fun c => c.busy && decide (c.entry = i)

/-- Entry `i` of engine `n` completes at `cycle` of the frame. BASIN_BUSY takes the latest cycle at which an entry completed, whichever
entry was dispatched last and whether that one faulted (DESIGN CHOICE, log entry 69: R140). -/
def entryComplete (i cycle : Nat) (n : Nat) (s : State) : State :=
  if entryStatus s n i = .stopped ∧ entryMoves s n i = false then
    let e := coreOf s n
    putCore s n { setEntryStatus e i .completed with busy := BitVec.ofNat 24 (max e.busy.toNat cycle) }
  else s

/-- ENTRY_COMPLETE (R39): it completes where it can, and the farrier compares its DMA writes (R454). -/
def entryCompleted (be i cycle : Nat) (s : State) : State :=
  let s1 := coreRun be (entryComplete i cycle) s
  if bexFollows s be ∧ entryStatus s be i ≠ .completed then sigCompare s1 i else s1

/-! ### Frame DMA (R141 to R144) -/

/-- A frame DMA descriptor (Table 06-4). -/
structure DmaDesc where
  out : Bool
  chain : Bool
  rows : Nat
  len : Nat
  yard : Nat
  stride : Int
  local_ : Nat
  lstride : Int
  next : BitVec 18
  deriving DecidableEq, Repr

/-- The local-store word `a` as the channel reads it, its ECC event recorded. -/
def dmaFetch (s : State) (n a : Nat) : Word × State :=
  let r := engineRead s n (a % 0x40000)
  (r.1, s.eccEvent (basinSite n) r.2.1 r.2.2)

/-- The descriptor at address `a`. -/
def dmaDesc (s : State) (n a : Nat) : DmaDesc :=
  let w := fun k => (engineRead s n ((a + k) % 0x40000)).1
  { out := (w 0).getLsbD 35, chain := (w 0).getLsbD 34, rows := ((w 0).extractLsb' 16 16).toNat, len := ((w 0).extractLsb' 0 16).toNat,
    yard := ((w 1).extractLsb' 0 23).toNat, stride := ((w 2).extractLsb' 0 24).toInt, local_ := ((w 3).extractLsb' 18 18).toNat,
    lstride := ((w 3).extractLsb' 0 18).toInt, next := (w 4).extractLsb' 3 15 ++ 0#3 }

/-- The (yard, local) addresses a descriptor moves, in row order. -/
def dmaPairs (d : DmaDesc) : List (Int × Nat) :=
  (List.range d.rows).flatMap fun (r : Nat) => (List.range d.len).map fun (i : Nat) =>
    ((d.yard : Int) + r * d.stride + i, (((d.local_ : Int) + r * d.lstride + i) % 0x40000).toNat)

/-- Note a DMA write in the signature of the entry that started the chain (R454). -/
def dmaSign (s : State) (n ch a : Nat) (w : Word) : State :=
  putCore s n { coreOf s n with sig := (coreOf s n).sig ++ [((dmaAt s n ch).entry, a, w)] }

/-- The master and owner under which engine `n` moves: BEX reads with the target's (R454). -/
def dmaMaster (s : State) (n : Nat) : Nat := masterBasin (if n = 8 then farRole s farBasin else n)

/-- Move one word: whether it failed, and the state. BEX reads as its target does, and its yard writes are not performed (R454). An address
outside the yard goes to the default target (R143, R394), which records its low 24 bits (DESIGN CHOICE, log entry 72). -/
def dmaMove (n ch : Nat) (d : DmaDesc) (s : State) (p : Int × Nat) : Bool × State :=
  if p.1 < 0 ∨ 0x800000 ≤ p.1 then
    (true, if n = 8 ∧ d.out = true then s else defaultTarget s (dmaMaster s n) (p.1 % 0x1000000).toNat true d.out)
  else
    let y := p.1.toNat
    let m := dmaMaster s n
    if d.out then
      let w := dmaFetch s n p.2
      let r := if n = 8 then (!yardAdmits s m y, w.2) else yardWrite w.2 m y w.1
      if r.1 then r else (false, dmaSign r.2 n ch y w.1)
    else
      let r := yardRead s m y
      if r.2.1 then (true, r.2.2) else (false, dmaSign (localPut r.2.2 n p.2 r.1) n ch (0x800000 + p.2) r.1)

/-- Move words up to the first that fails: words already moved stay moved (R143). -/
def dmaMoveAll (n ch : Nat) (d : DmaDesc) : List (Int × Nat) → State → Bool × State
  | [], s => (false, s)
  | p :: t, s =>
    let r := dmaMove n ch d s p
    if r.1 then r else dmaMoveAll n ch d t r.2

/-- Whether the descriptor still waits for a yard bank: its event has not come (R385, R389). -/
def dmaWaits (s : State) (n : Nat) (d : DmaDesc) : Bool :=
  (dmaPairs d).any fun p => decide (0 ≤ p.1) && decide (p.1 < 0x800000)
    && (if d.out then yardHolds s (dmaMaster s n) p.1.toNat else yardReadHolds s (dmaMaster s n) p.1.toNat)

/-- The end of a descriptor: word 5, the count, then the chain or its end; an error stops the chain and is reported (R143). Where no
entry runs, DATA3 of the report names the entry that started the chain (DESIGN CHOICE, log entry 70). -/
def dmaEnd (n ch : Nat) (d : DmaDesc) (err : Bool) (s : State) : State :=
  let c := dmaAt s n ch
  let s1 := localPut s n ((c.addr.toNat + 5) % 0x40000) (1#1 ++ (if err then 1#1 else 0#1) ++ 0#34)
  let c1 := { c with count := c.count + 1#16 }
  if err then
    let s2 := (dmaRelease (putDma s1 n ch { c1 with busy := false, err := true }) n ch).raise (Reg.BASIN_STATUS n) 0x10#32
    if n < 8 then s2.event 3 2 n ch c.addr.toNat ((coreOf s n).current.getD c.entry) else s2
  else if d.chain then putDma s1 n ch { c1 with addr := d.next }
  else dmaRelease (putDma s1 n ch { c1 with busy := false }) n ch

/-- The ECC marks of the words of the descriptor at address `a` that the channel reads. -/
def descMarks (s : State) (n a : Nat) : List (BitVec 2 × Nat) :=
  (List.range 5).map fun k => (engineRead s n ((a + k) % 0x40000)).2

/-- DMA_DESCRIPTOR_DONE on channel `ch` of engine `n`. -/
def dmaDone (ch : Nat) (n : Nat) (s : State) : State :=
  let c := dmaAt s n ch
  let d := dmaDesc s n c.addr.toNat
  if !c.busy || dmaWaits s n d then s
  else
    let s1 := s.eccEvents (basinSite n) (descMarks s n c.addr.toNat)
    if d.rows = 0 ∨ d.len = 0 then dmaEnd n ch d true s1
    else
      let r := dmaMoveAll n ch d (dmaPairs d) s1
      dmaEnd n ch d r.1 r.2

/-! ### Frames and the deadline (R39, R40, R133, R136, R140, R142) -/

/-- The entries of engine `n` that the frame in progress ought to complete and that have neither completed nor faulted. -/
def uncompleted (s : State) (n : Nat) : List Nat :=
  (List.range 64).filter fun i => entryRuns s n i && (match entryStatus s n i with
    | .notRun | .running | .stopped | .cut => true
    | .completed | .faulted | .missed => false)

/-- The cycle that BASIN_BUSY records for the frame (R140). -/
def basinDeadlineBusy (s : State) (n : Nat) (missed : List Nat) : Nat :=
  if missed = [] then (coreOf s n).busy.toNat else s.f * s.c - 64

/-- The monitor stops engine `n`: it issues nothing more in this frame, and its channels are cancelled. -/
def monitorStop (s : State) (n : Nat) : State :=
  let s1 := dmaCancel (entryEnd s n .missed) n
  putCore s1 n { coreOf s1 n with nextEntry := 64 }

/-- The deadline of one engine: every uncompleted entry is missed. -/
def engineDeadline (s : State) (n : Nat) : State :=
  let missed := uncompleted s n
  let busy := basinDeadlineBusy s n missed
  let s1 := if missed = [] then s else missed.foldl (fun t i =>
    missEntry (putCore t n (setEntryStatus (coreOf t n) i .missed)) n i 0) (monitorStop s n)
  let s2 := (s1.setReg (Reg.BASIN_BUSY n) (BitVec.ofNat 32 busy)).setFld (Reg.BASIN_PEAK n) 0 24 (max busy (s1.fld (Reg.BASIN_PEAK n) 0 24))
  putCore s2 n { coreOf s2 n with busy := BitVec.ofNat 24 busy, busyMax := BitVec.ofNat 24 (max busy (coreOf s2 n).busyMax.toNat) }

/-- The deadline at B - 64 of a frame tick, on every engine and, in lockstep, on BEX. -/
def basinDeadline (s : State) : State :=
  let follows := (List.range 8).any (bexFollows s)
  (List.range (if follows then 9 else 8)).foldl engineDeadline s

/-- The start of a frame on engine `n`: shedding is sampled, counts clear, and dispatch starts at entry 0. -/
def engineFrame (s : State) (n : Nat) : State :=
  let e := coreOf s n
  putCore s n { e with
    shed := BitVec.ofNat 5 (min 16 (s.fld (Reg.BASIN_SHED n) 0 5)), entries := [], busy := 0#24, sig := [], current := none,
    branch := none, begun := false, nextEntry := if basinRuns s n then 0 else 64,
    dma := e.dma.map fun (c : DmaChannel) => { c with count := 0#16 } }

/-- BEX samples the target's shedding level while it follows. -/
def bexFrame (s : State) : State :=
  if (List.range 8).any (bexFollows s) then
    putCore s 8 { coreOf s 8 with shed := (coreOf s (farRole s farBasin)).shed }
  else s

/-- The start of a frame on every engine. -/
def basinFrameStart (s : State) : State := bexFrame ((List.range 9).foldl engineFrame s)

/-! ### Interrupts and waits of the control core (R156 to R158) -/

/-- Whether an interrupt may be taken now: the core runs, a source is pending and enabled, and the boundary is neither between a
branch and its delay slots nor within an ATOMIC run that the next bundle continues. A core that waits on
a stop bundle takes the interrupt whatever bundle comes next (R158). -/
def interruptTaken (s : State) (nextAtomic : Bool) : Bool :=
  let e := coreOf s ccCore
  decide (s.power.phase = .running) && !s.cc.held && !e.begun && decide (irqPendCc s ≠ 0#32) && s.cc.ie && e.branch.isNone &&
    !(nextAtomic && decide (0 < s.cc.atomicRun) && decide (s.cc.atomicRun < 8) && !s.cc.waiting)

/-- INTERRUPT_ENTRY: all results in flight land, then the entry with cause 1. -/
def interruptEntry (s : State) (nextAtomic : Bool) : State :=
  if interruptTaken s nextAtomic then
    let s1 := landAll s ccCore
    ccEnter s1 1 (coreOf s1 ccCore).pc
  else s

/-- CC_WAIT: the bundle being issued, or one with nothing in its slots, has its stop bit set; in a delay slot that is undefined. -/
def ccWait (s : State) (atomic : Bool) : State :=
  if ccIssues s then
    match bundleStart s ccCore atomic 0#2 with
    | (.wait, _) => s
    | (.fault f, s1) => slotFault s1 ccCore f
    | (.go, s1) =>
      if inDelay (coreOf s1 ccCore) then slotFault s1 ccCore .encoding
      else
        let s2 := bundleEnd s1 ccCore atomic
        if s1.cc.trap then s2 else { s2 with cc := { s2.cc with waiting := true } }
  else s

/-! ### The commands -/

/-- KERNEL_DISPATCH (R133, R134). -/
def execKernelDispatch (be : Fin 8) (s : State) : Out := done (coreRun be.val kernelDispatch s)

/-- KERNEL_STOP (R135): the bundle being issued, or one with nothing in its slots, is the last of its kernel. -/
def execKernelStop (be : Fin 8) (s : State) : Out := done (coreRun be.val kernelStop s)

/-- ENTRY_COMPLETE (R39) of entry `entry`, `cycle` cycles after B. -/
def execEntryComplete (be : Fin 8) (entry : Fin 64) (cycle : BitVec 24) (s : State) : Out :=
  done (entryCompleted be.val entry.val cycle.toNat s)

/-- DMA_DESCRIPTOR_DONE (R141 to R144). -/
def execDmaDescriptorDone (be : Fin 8) (ch : Fin 4) (s : State) : Out := done (coreRun be.val (dmaDone ch.val) s)

/-- INTERRUPT_ENTRY (R157): `nextAtomic` says that the next bundle's header has ATOMIC set. -/
def execInterruptEntry (nextAtomic : Bool) (s : State) : Out := done (interruptEntry s nextAtomic)

/-- CC_WAIT (R158). -/
def execCcWait (atomic : Bool) (s : State) : Out := done (ccWait s atomic)

end Sys2Proof.Machine
end

