-- ==== Sys2Proof/Machine/Rill.lean ====
section
/-! DEFINITION. The rill instruction set (chapter 05): the meaning of each step, over the operand forms of Operands.lean and
the arithmetic of Flags.lean. -/
namespace Sys2Proof.Machine

/-- An I-form operation on A alone: its result goes to D with latency 1 (R119). -/
def rillUnary (f : RillFields) (imm : Word) (op : Word → Word × Bool) (s : State) (_ : Nat) (e : RillEngine) : RillFx :=
  let a := rillSrc s.tick e imm f.sa
  let r := op a.w
  let x := (RillFx.none e).used a
  { x with sat := x.sat || r.2 }.toD f.dst r.1 1

/-- An I-form operation on A and B: its result goes to D with latency 1 (R119). -/
def rillBinary (f : RillFields) (imm : Word) (op : Word → Word → Word × Bool) (s : State) (_ : Nat) (e : RillEngine) : RillFx :=
  let a := rillSrc s.tick e imm f.sa
  let b := rillSrc s.tick e imm f.sb
  let r := op a.w b.w
  let x := ((RillFx.none e).used a).used b
  { x with sat := x.sat || r.2 }.toD f.dst r.1 1

/-- A compare: its result goes to a predicate (R119, R120). -/
def rillCompare (f : RillFields) (op : Word → Word → Bool) (s : State) (_ : Nat) (e : RillEngine) : RillFx :=
  let a := rillSrc s.tick e (rfImm f) f.sa
  let b := rillSrc s.tick e (rfImm f) f.sb
  (((RillFx.none e).used a).used b).toP f.dst (op a.w b.w)

/-- The no-operation: no effect beyond its issue. -/
def rillNop (_ : State) (_ : Nat) (e : RillEngine) : RillFx := RillFx.none e

/-- A saturating left shift by min(B[5:0], 36); SAT when bits are lost. -/
def rillShlWord (a b : Word) : Word × Bool := satWord (a.toInt * 2 ^ min (b.toNat % 64) 36)

/-- A right shift by n = min(B[5:0], 36) rounded by RS; dither adds the top min(n, 32) LFSR bits at the top of the
discarded field. -/
def rillShrWord (rs : BitVec 2) (l : BitVec 32) (a b : Word) : Word × Bool :=
  let n := min (b.toNat % 64) 36
  let m := min n 32
  (BitVec.ofInt 36 (roundRS rs a.toInt n ((l.toNat / 2 ^ (32 - m)) * 2 ^ (n - m))), false)

/-- SHR as a step: with RS = 0b10 it uses the LFSR whatever the shift count is (Table 05-5). -/
def rillShr (f : RillFields) (s : State) (re : Nat) (e : RillEngine) : RillFx :=
  let x := rillBinary f (rfImm f) (rillShrWord (rfRs f) e.lfsr) s re e
  { x with noise := x.noise || decide (rfRs f = 2#2) }

/-- SEL: P[q] chooses between A and B, q = M[2:0]; code 31 reads 0 (R114). -/
def rillSel (f : RillFields) (s : State) (re : Nat) (e : RillEngine) : RillFx :=
  rillBinary f 0#36 (fun a b => (if rillPred e (f.m.extractLsb' 0 3).toNat then a else b, false)) s re e

/-- CPACK: the top halves of A and B, truncated to s.17. -/
def cpackWord (a b : Word) : Word := Word.ofHalves a.re b.re

/-- MOVA and MOVAX: the store of A under CV in the layout the opcode names (R113, R117). -/
def rillMova (cplx : Bool) (f : RillFields) (s : State) (_ : Nat) (e : RillEngine) : RillFx :=
  let a := rillSrcCV cplx s.tick e (rfImm f) f
  ((RillFx.none e).used a).toD f.dst a.w 1

/-- The index and fraction of a lookup, with the fraction's bits (Table 04-7). -/
def lutIndex (positive : Bool) (x : Word) : Nat × Nat × Nat :=
  if positive then
    if x.toInt < 0 then (0, 0, 25) else ((x.extractLsb' 25 10).toNat, x.toNat % 2 ^ 25, 25)
  else (((x.extractLsb' 26 10) ^^^ 512#10).toNat, x.toNat % 2 ^ 26, 26)

/-- A lookup of `x` in table `q` (R98): the interpolated value, rounded half even, with the ECC records of its reads. At i = 1023 both
reads name entry 1023, and each is a read (DESIGN CHOICE, log entry 75). -/
def rillLookup (s : State) (re : Nat) (e : RillEngine) (q : Nat) (x : Word) : Word × List (BitVec 2 × Nat) :=
  let ix := lutIndex (e.lutA.getLsbD q) x
  let o0 := 0x4000 + q * 1024 + ix.1
  let o1 := 0x4000 + q * 1024 + min (ix.1 + 1) 1023
  let r0 := rillStaged s re e o0
  let r1 := rillStaged s re e o1
  (BitVec.ofInt 36 (roundHalfEven (r0.1.toInt * 2 ^ ix.2.2 + (r1.1.toInt - r0.1.toInt) * ix.2.1) ix.2.2),
    [(r0.2, rillLoc 2 o0), (r1.2, rillLoc 2 o1)])

/-- LUT: latency 3; code 31 reads 0 and SB is ignored (R114, Table 05-5). -/
def rillLut (f : RillFields) (s : State) (re : Nat) (e : RillEngine) : RillFx :=
  let a := rillSrc s.tick e 0#36 f.sa
  let r := rillLookup s re e (f.m.extractLsb' 0 2).toNat a.w
  let x := (RillFx.none e).used a
  { x with ecc := x.ecc ++ r.2 }.toD f.dst r.1 3

/-- PLOG: predicate logic; a code of 8 to 31 reads 0 (Table 05-5). -/
def rillPlog (f : RillFields) (_ : State) (_ : Nat) (e : RillEngine) : RillFx :=
  let rd := fun (k : BitVec 5) => if k.toNat < 8 then rillPred e k.toNat else false
  let a := rd f.sa
  let b := rd f.sb
  let r := if f.m.extractLsb' 0 2 = 0#2 then a && b else if f.m.extractLsb' 0 2 = 1#2 then a || b
    else if f.m.extractLsb' 0 2 = 2#2 then a != b else a && !b
  (RillFx.none e).toP f.dst r

/-- LDC: a cistern word into D, latency 2 (R121). -/
def rillLdc (f : RillFields) (s : State) (re : Nat) (e : RillEngine) : RillFx :=
  let r := rillCistern s re e (RillFx.none e) f
  r.2.2.toD f.dst r.1 2

/-- STC and STCX: the source and its conversion are taken at issue; a line with LEN = 0 is not written (R121, R122). -/
def rillStc (cplx : Bool) (f : RillFields) (s : State) (re : Nat) (e : RillEngine) : RillFx :=
  let a := rillSrcCV cplx s.tick e 0#36 f
  let l := rillLine s re e ((RillFx.none e).used a) (rfLine f)
  if l.1.len = 0 then l.2 else l.2.putCistern (lineAddr l.1 s.tick.boundaries (rfTap f)) a.w

/-- LDW: a window word into D, latency 2 (R121). -/
def rillLdw (f : RillFields) (s : State) (re : Nat) (e : RillEngine) : RillFx :=
  let r := rillWindow s re e (RillFx.none e) (rfWin f)
  r.2.toD f.dst r.1 2

/-- STW and STWX: an output word; an input position has no effect at all (R121, Table 05-8). -/
def rillStw (cplx : Bool) (f : RillFields) (s : State) (_ : Nat) (e : RillEngine) : RillFx :=
  if rfWin f < 256 then RillFx.none e
  else
    let a := rillSrcCV cplx s.tick e 0#36 f
    let x := (RillFx.none e).used a
    { x with e := { x.e with outw := Cells.set x.e.outw (rfWin f - 256) a.w } }

/-- Accumulator set and add: `delta` is the source placed in the layout (R121). -/
def rillAccReal (start clamp : Bool) (f : RillFields) (s : State) (_ : Nat) (e : RillEngine) : RillFx :=
  let a := rillSrc s.tick e 0#36 f.sa
  ((RillFx.none e).used a).toAcc f.dst fun r => accReal start clamp r (a.w.toInt * 2 ^ 36)

/-- The same in the complex layout: each s.17 half goes to its s4.35 half. -/
def rillAccCplx (start clamp : Bool) (f : RillFields) (s : State) (_ : Nat) (e : RillEngine) : RillFx :=
  let a := rillSrc s.tick e 0#36 f.sa
  ((RillFx.none e).used a).toAcc f.dst fun r => accCplx start clamp r (a.w.re.toInt * 2 ^ 18) (a.w.im.toInt * 2 ^ 18)

/-- ACLR: a starting form that sets zero and ends any pin. -/
def rillAclr (f : RillFields) (_ : State) (_ : Nat) (e : RillEngine) : RillFx :=
  (RillFx.none e).toAcc f.dst fun r => accReal true false r 0

/-- One multiply-accumulate on operands already read: CX, Z, N/J and AM as Table 05-7 gives. -/
def macStep (cx z nj am : Bool) (a b : Word) (r : AccReg) : AccReg × Bool :=
  if cx then let p := prodCplx nj a b; accCplx z am r p.1 p.2
  else accReal z am r (if nj then -prodReal a b else prodReal a b)

/-- MACR: SA times SB (R124). -/
def rillMacr (f : RillFields) (cx z nj am : Bool) (s : State) (_ : Nat) (e : RillEngine) : RillFx :=
  let a := rillSrc s.tick e 0#36 f.sa
  let b := rillSrc s.tick e 0#36 f.sb
  (((RillFx.none e).used a).used b).toAcc f.dst (macStep cx z nj am a.w b.w)

/-- MACK: SA times a coefficient. -/
def rillMack (f : RillFields) (cx z nj am : Bool) (s : State) (re : Nat) (e : RillEngine) : RillFx :=
  let a := rillSrc s.tick e 0#36 f.sa
  let k := rillCoef s re e ((RillFx.none e).used a) (rfCoef f)
  k.2.toAcc f.dst (macStep cx z nj am a.w k.1)

/-- MACC: a cistern word times a coefficient; a line with LEN = 0 gives an operand of 0 (R124). -/
def rillMacc (f : RillFields) (cx z nj am : Bool) (s : State) (re : Nat) (e : RillEngine) : RillFx :=
  let r := rillCistern s re e (RillFx.none e) f
  let k := rillCoef s re e r.2.2 (rfCoef f)
  k.2.toAcc f.dst (macStep cx z nj am r.1 k.1)

/-- MACW: a window word times a coefficient. -/
def rillMacw (f : RillFields) (cx z nj am : Bool) (s : State) (re : Nat) (e : RillEngine) : RillFx :=
  let r := rillWindow s re e (RillFx.none e) (rfWin f)
  let k := rillCoef s re e r.2 (rfCoef f)
  k.2.toAcc f.dst (macStep cx z nj am r.1 k.1)

/-- TAPM: a real MACC; on a linear line the word read also moves to tap TAP + 1, unless TAP + 1 reaches LEN (R84, R125). -/
def rillTapm (f : RillFields) (z n am : Bool) (s : State) (re : Nat) (e : RillEngine) : RillFx :=
  let r := rillCistern s re e (RillFx.none e) f
  let k := rillCoef s re e r.2.2 (rfCoef f)
  let x := k.2.toAcc f.dst (macStep false z n am r.1 k.1)
  if r.2.1.lin ∧ rfTap f + 1 < r.2.1.len then x.putCistern (lineAddr r.2.1 s.tick.boundaries (rfTap f + 1)) r.1 else x

/-- NOP, and every unassigned opcode (R118, Table 05-8). -/
def execRillNop (re : Fin 16) (x : IdleStep) (s : State) : Out :=
  done (rillStep re x.fields rillNop s)

/-- MOV: D <- A (Tables 05-5, 05-6). -/
def execRillMov (re : Fin 16) (f : RillFields) (s : State) : Out :=
  done (rillStep re f (rillUnary f (rfImm f) fun a => (a, false)) s)

/-- ADD: D <- sat(A + B) (Tables 05-5, 05-6). -/
def execRillAdd (re : Fin 16) (f : RillFields) (s : State) : Out :=
  done (rillStep re f (rillBinary f (rfImm f) fun a b => satWord (a.toInt + b.toInt)) s)

/-- SUB: D <- sat(A - B) (Tables 05-5, 05-6). -/
def execRillSub (re : Fin 16) (f : RillFields) (s : State) : Out :=
  done (rillStep re f (rillBinary f (rfImm f) fun a b => satWord (a.toInt - b.toInt)) s)

/-- NEG: D <- sat(-A) (Tables 05-5, 05-6). -/
def execRillNeg (re : Fin 16) (f : RillFields) (s : State) : Out :=
  done (rillStep re f (rillUnary f (rfImm f) fun a => satWord (-a.toInt)) s)

/-- ABS: D <- sat(|A|) (Tables 05-5, 05-6). -/
def execRillAbs (re : Fin 16) (f : RillFields) (s : State) : Out :=
  done (rillStep re f (rillUnary f (rfImm f) fun a => satWord (Int.ofNat a.toInt.natAbs)) s)

/-- MIN: signed minimum (Tables 05-5, 05-6). -/
def execRillMin (re : Fin 16) (f : RillFields) (s : State) : Out :=
  done (rillStep re f (rillBinary f (rfImm f) fun a b => (if a.toInt ≤ b.toInt then a else b, false)) s)

/-- MAX: signed maximum (Tables 05-5, 05-6). -/
def execRillMax (re : Fin 16) (f : RillFields) (s : State) : Out :=
  done (rillStep re f (rillBinary f (rfImm f) fun a b => (if a.toInt ≤ b.toInt then b else a, false)) s)

/-- AND (Tables 05-5, 05-6). -/
def execRillAnd (re : Fin 16) (f : RillFields) (s : State) : Out :=
  done (rillStep re f (rillBinary f (rfImm f) fun a b => (a &&& b, false)) s)

/-- OR (Tables 05-5, 05-6). -/
def execRillOr (re : Fin 16) (f : RillFields) (s : State) : Out :=
  done (rillStep re f (rillBinary f (rfImm f) fun a b => (a ||| b, false)) s)

/-- XOR (Tables 05-5, 05-6). -/
def execRillXor (re : Fin 16) (f : RillFields) (s : State) : Out :=
  done (rillStep re f (rillBinary f (rfImm f) fun a b => (a ^^^ b, false)) s)

/-- SHL (Tables 05-5, 05-6). -/
def execRillShl (re : Fin 16) (f : RillFields) (s : State) : Out :=
  done (rillStep re f (rillBinary f (rfImm f) rillShlWord) s)

/-- SHR (Tables 05-5, 05-6). -/
def execRillShr (re : Fin 16) (f : RillFields) (s : State) : Out :=
  done (rillStep re f (rillShr f) s)

/-- SEL (Tables 05-5, 05-6). -/
def execRillSel (re : Fin 16) (f : RillFields) (s : State) : Out :=
  done (rillStep re f (rillSel f) s)

/-- CADD: each half <- sat(A half + B half) (Tables 05-5, 05-6). -/
def execRillCadd (re : Fin 16) (f : RillFields) (s : State) : Out :=
  done (rillStep re f (rillBinary f (rfImm f) (satHalves fun a b => a + b)) s)

/-- CSUB: each half <- sat(A half - B half) (Tables 05-5, 05-6). -/
def execRillCsub (re : Fin 16) (f : RillFields) (s : State) : Out :=
  done (rillStep re f (rillBinary f (rfImm f) (satHalves fun a b => a - b)) s)

/-- CONJ (Tables 05-5, 05-6). -/
def execRillConj (re : Fin 16) (f : RillFields) (s : State) : Out :=
  done (rillStep re f (rillUnary f (rfImm f) conjWord) s)

/-- CPACK (Tables 05-5, 05-6). -/
def execRillCpack (re : Fin 16) (f : RillFields) (s : State) : Out :=
  done (rillStep re f (rillBinary f (rfImm f) fun a b => (cpackWord a b, false)) s)

/-- MOVA (Tables 05-5, 05-6). -/
def execRillMova (re : Fin 16) (f : RillFields) (s : State) : Out :=
  done (rillStep re f (rillMova false f) s)

/-- MOVAX (Tables 05-5, 05-6). -/
def execRillMovax (re : Fin 16) (f : RillFields) (s : State) : Out :=
  done (rillStep re f (rillMova true f) s)

/-- LUT (Tables 05-5, 05-6). -/
def execRillLut (re : Fin 16) (f : RillFields) (s : State) : Out :=
  done (rillStep re f (rillLut f) s)

/-- CMPEQ (Tables 05-5, 05-6). -/
def execRillCmpeq (re : Fin 16) (f : RillFields) (s : State) : Out :=
  done (rillStep re f (rillCompare f fun a b => decide (a = b)) s)

/-- CMPLT (Tables 05-5, 05-6). -/
def execRillCmplt (re : Fin 16) (f : RillFields) (s : State) : Out :=
  done (rillStep re f (rillCompare f fun a b => decide (a.toInt < b.toInt)) s)

/-- CMPLE (Tables 05-5, 05-6). -/
def execRillCmple (re : Fin 16) (f : RillFields) (s : State) : Out :=
  done (rillStep re f (rillCompare f fun a b => decide (a.toInt ≤ b.toInt)) s)

/-- PLOG (Tables 05-5, 05-6). -/
def execRillPlog (re : Fin 16) (f : RillFields) (s : State) : Out :=
  done (rillStep re f (rillPlog f) s)

/-- LDC (Tables 05-5, 05-6). -/
def execRillLdc (re : Fin 16) (f : RillFields) (s : State) : Out :=
  done (rillStep re f (rillLdc f) s)

/-- STC (Tables 05-5, 05-6). -/
def execRillStc (re : Fin 16) (f : RillFields) (s : State) : Out :=
  done (rillStep re f (rillStc false f) s)

/-- STCX (Tables 05-5, 05-6). -/
def execRillStcx (re : Fin 16) (f : RillFields) (s : State) : Out :=
  done (rillStep re f (rillStc true f) s)

/-- LDW (Tables 05-5, 05-6). -/
def execRillLdw (re : Fin 16) (f : RillFields) (s : State) : Out :=
  done (rillStep re f (rillLdw f) s)

/-- STW (Tables 05-5, 05-6). -/
def execRillStw (re : Fin 16) (f : RillFields) (s : State) : Out :=
  done (rillStep re f (rillStw false f) s)

/-- STWX (Tables 05-5, 05-6). -/
def execRillStwx (re : Fin 16) (f : RillFields) (s : State) : Out :=
  done (rillStep re f (rillStw true f) s)

/-- ACLR (Tables 05-5, 05-6). -/
def execRillAclr (re : Fin 16) (f : RillFields) (s : State) : Out :=
  done (rillStep re f (rillAclr f) s)

/-- LDA (Tables 05-5, 05-6). -/
def execRillLda (re : Fin 16) (f : RillFields) (s : State) : Out :=
  done (rillStep re f (rillAccReal true false f) s)

/-- LDAX (Tables 05-5, 05-6). -/
def execRillLdax (re : Fin 16) (f : RillFields) (s : State) : Out :=
  done (rillStep re f (rillAccCplx true false f) s)

/-- ADDA (Tables 05-5, 05-6). -/
def execRillAdda (re : Fin 16) (f : RillFields) (s : State) : Out :=
  done (rillStep re f (rillAccReal false false f) s)

/-- ADDA.C (Tables 05-5, 05-6). -/
def execRillAddaC (re : Fin 16) (f : RillFields) (s : State) : Out :=
  done (rillStep re f (rillAccReal false true f) s)

/-- ADDAX (Tables 05-5, 05-6). -/
def execRillAddax (re : Fin 16) (f : RillFields) (s : State) : Out :=
  done (rillStep re f (rillAccCplx false false f) s)

/-- ADDAX.C (Tables 05-5, 05-6). -/
def execRillAddaxC (re : Fin 16) (f : RillFields) (s : State) : Out :=
  done (rillStep re f (rillAccCplx false true f) s)

/-- MACR (R123, R124). -/
def execMacr (re : Fin 16) (f : RillFields) (cx z nj am : Bool) (s : State) : Out :=
  done (rillStep re f (rillMacr f cx z nj am) s)

/-- MACK (R123, R124). -/
def execMack (re : Fin 16) (f : RillFields) (cx z nj am : Bool) (s : State) : Out :=
  done (rillStep re f (rillMack f cx z nj am) s)

/-- MACC (R123, R124). -/
def execMacc (re : Fin 16) (f : RillFields) (cx z nj am : Bool) (s : State) : Out :=
  done (rillStep re f (rillMacc f cx z nj am) s)

/-- MACW (R123, R124). -/
def execMacw (re : Fin 16) (f : RillFields) (cx z nj am : Bool) (s : State) : Out :=
  done (rillStep re f (rillMacw f cx z nj am) s)

/-- TAPM (R125). -/
def execTapm (re : Fin 16) (f : RillFields) (z n am : Bool) (s : State) : Out :=
  done (rillStep re f (rillTapm f z n am) s)

end Sys2Proof.Machine
end

