-- ==== Sys2Proof/Machine/Slave.lean ====
section
/-! DEFINITION. The slave role of the control serial port: a word enters while a word leaves, and its transactions reach registers
and the yard as the host DMA master (chapter 17, R405 to R413). -/
namespace Sys2Proof.Machine

/-- The status word (Table 17-2). -/
def slaveStatus (s : State) : BitVec 32 := 0x50000000#32 ||| (s.reg Reg.CSP_STATUS &&& 0xFFFF#32)

/-- The trailer (Table 17-2). -/
def slaveTrailer (t : CspTxn) : BitVec 32 :=
  BitVec.ofNat 32 (0xE0000000 + (if t.passed then 2 ^ 27 else 0) + (if t.under then 2 ^ 26 else 0)
    + (if t.erred then 2 ^ 25 else 0) + (if t.dropped then 2 ^ 24 else 0) + t.count)

/-- Whether addresses `a` and `b` lie in one register block: RILL alone spans two pages (Table 22-3). -/
def sameBlock (a b : Nat) : Bool :=
  decide (a / 0x10000 = b / 0x10000) || (decide (a / 0x20000 = 0x2008) && decide (b / 0x20000 = 0x2008))

/-- The highest listed address of the block that holds `a`, if any (R410). -/
def blockEnd (a : Nat) : Option Nat :=
  if inRegBlock a then
    (((regBlock a).flatMap fun d => (List.range d.n1).map fun i => d.base + i * d.s1 + (d.n2 - 1) * d.s2).filter (sameBlock a)).max?
  else none

/-- The byte-space address of the transaction's next word. -/
def slaveAddr (t : CspTxn) : Nat := (if t.yard then 0x10000000 else 0x40000000) + 4 * t.off

/-- Whether the next word lies past the end (R408, R410). -/
def slavePast (s : State) (t : CspTxn) : Bool :=
  (t.yard && !(s.csp.cfg.getLsbD 3 || inSafe s)) || (match t.last with | some l => decide (l < t.off) | none => false)

/-- The next device word and the transaction as they now stand; a reset in the word time ends the selection (R412). -/
def slaveNext (s : State) (t : Option CspTxn) (out : BitVec 32) : State :=
  if s.csp.sel then { s with csp := { s.csp with txn := t, out := out } } else s

/-- The state with an error response recorded (R409). -/
def slaveErr (s : State) (err : Bool) : State := s.raiseIf err Reg.CSP_STATUS 16#32

/-- An underrun (R411): the previous word repeats. -/
def slaveUnder (s : State) (t : CspTxn) : State :=
  slaveNext ((s.raise Reg.CSP_STATUS 1#32).count Reg.CSP_SL_ERRS 0 16 1) (some { t with under := true, dropped := t.dropped || t.write }) s.csp.out

/-- The accesses of the slave that wait: of its writes, those in its buffer (R411). -/
def slaveHeld (s : State) : List HeldAccess := s.heldAcc.filter fun h => h.slave.isSome

/-- Whether an access of the slave waits: behind its earlier ones, or for its target. -/
def slaveWaits (s : State) (x : Access) : Bool := !(slaveHeld s).isEmpty || accessWaits s masterHost x

/-- An access of the open transaction waits. -/
def slaveHold (s : State) (x : Access) : State := s.hold { master := masterHost, access := x, slave := some true }

/-- The response to a word of a read: data word `t.off` (R407, R409 to R411). A read that waits, or whose response is late, is performed all
the same: its data is discarded and its error counts. -/
def slaveRead (s : State) (t : CspTxn) (ready : Bool) : State :=
  let n := { t with off := t.off + 1 }
  let x := Access.readBytes (BitVec.ofNat 32 (slaveAddr t)) 4
  if t.under then slaveNext s (some n) s.csp.out
  else if slavePast s t then
    if ready then slaveNext (s.raise Reg.CSP_STATUS 4#32) (some { n with passed := true }) 0#32 else slaveUnder s n
  else if slaveWaits s x then slaveUnder (slaveHold s x) n
  else
    let r := xReadBytes s masterHost (slaveAddr t) 4
    let s1 := slaveErr r.2.2 r.2.1
    if ready then
      slaveNext s1 (some { n with count := t.count + 1, erred := t.erred || r.2.1 }) (if r.2.1 then 0#32 else leWord r.1)
    else slaveUnder s1 { n with erred := t.erred || r.2.1 }

/-- The response to data word `v` of a write. A write that waits takes one of the 4 places of the write buffer, and is a word written (R411;
DEDUCED, log entry 120). -/
def slaveWrite (s : State) (t : CspTxn) (v : BitVec 32) (ready : Bool) : State :=
  let n := { t with off := t.off + 1 }
  let bs := (leBytes v 4).map some
  let x := Access.writeBytes (BitVec.ofNat 32 (slaveAddr t)) bs
  if t.under then slaveNext s (some { n with dropped := true }) s.csp.out
  else if slavePast s t then
    slaveNext ((s.raise Reg.CSP_STATUS 12#32).count Reg.CSP_SL_DROP 0 32 1) (some { n with passed := true, dropped := true }) v
  else if !ready || decide (4 ≤ (slaveHeld s).length) then slaveUnder s n
  else if slaveWaits s x then slaveNext (slaveHold s x) (some { n with count := t.count + 1 }) v
  else
    let r := xWriteBytes s masterHost (slaveAddr t) bs true
    slaveNext (slaveErr r.2 r.1) (some { n with count := t.count + 1, erred := t.erred || r.1 }) v

/-- The transaction that command word `v` opens (Table 17-1). -/
def slaveOpen (v : BitVec 32) (write : Bool) : CspTxn :=
  let yard := v.getLsbD 28
  let off := (v.extractLsb' 0 23).toNat
  let n := (v.extractLsb' 23 5).toNat
  { write := write, yard := yard, off := off,
    last := if yard then some 0x7FFFFF else (blockEnd (0x40000000 + 4 * off)).map fun e => (e - 0x40000000) / 4,
    left := (if n = 0 then 32 else n) + 1, passed := false, under := false, erred := false, dropped := false, count := 0 }

/-- A transaction opens: the accesses that still wait are of earlier ones. -/
def slaveTurn (s : State) : State := { s with heldAcc := s.heldAcc.map fun h => { h with slave := h.slave.map fun _ => false } }

/-- A host word between transactions: a command, or a NOP. -/
def slaveCommand (s : State) (v : BitVec 32) (ready : Bool) : State :=
  if v.extractLsb' 29 3 = 5#3 then slaveRead (slaveTurn s) (slaveOpen v false) ready
  else if v.extractLsb' 29 3 = 6#3 then
    let f := (slaveTurn s).takeFree
    slaveNext f.2 (some (slaveOpen v true)) (Config.freeCspWord f.1)
  else slaveNext s none (slaveStatus s)

/-- A complete host word (R407): `ready` says that the response to it is ready in time (R411). Its last bit left with it. -/
def slaveWord (s0 : State) (v : BitVec 32) (ready : Bool) : State :=
  let s := { s0 with csp := { s0.csp with prev := if s0.csp.sel then some (s0.csp.out.getLsbD 0) else s0.csp.prev } }
  if s.csp.sel then
    match s.csp.txn with
    | none => slaveCommand s v ready
    | some t0 =>
      let t := { t0 with left := t0.left - 1 }
      if t0.write then
        if t0.left ≤ 1 then slaveNext s none (slaveTrailer t) else slaveWrite s t v ready
      else if t0.left ≤ 1 then slaveNext s none (slaveStatus s)
      else if t0.left = 2 then slaveNext s (some t) (slaveTrailer t)
      else slaveRead s t ready
  else s

/-- CSP_SEL_N is asserted (R405): in the slave role, out of reset and STANDBY, a selection starts with the status word, and CSP_SL_CFG
takes effect. -/
def selAssert (s0 : State) : State :=
  let s := gpioEdge s0 103 false
  if cspMaster s || s.csp.sel || !cspLive s then s
  else { s with csp := { s.csp with sel := true, cfg := s.reg Reg.CSP_SL_CFG, txn := none, out := slaveStatus s, prev := none } }

/-- CSP_SEL_N is released (R412): `partialWord` says that a word was cut off. A ROLE write that waited is applied (R398). -/
def selRelease (s0 : State) (partialWord : Bool) : State :=
  let s := gpioEdge s0 103 true
  if s.csp.sel then
    let s1 := if partialWord then (s.raise Reg.CSP_STATUS 2#32).count Reg.CSP_SL_ERRS 16 16 1 else s
    let s2 := { s1 with csp := { s1.csp with sel := false, txn := none, role := none, prev := none } }
    match s.csp.role with
    | some v => (roleApply s2 v).2
    | none => s2
  else s

/-! ### The commands of both roles -/

/-- ROLE (R398): a write of CSP_CTRL by a master other than the slave role. -/
def execCspRole (v : BitVec 32) (s : State) : Out := done (cspMoved s (cspCtrlWrite s v false))

/-- START (R400, R404): a write of CSP_M_LEN. -/
def execCspStart (v : BitVec 32) (s : State) : Out := done (cspMoved s (cspLenWrite s v))

/-- M_DONE (R404): the rest of the data moves, `rx` the samples of the lanes, cycle by cycle, and the sequence ends. -/
def execMDone (rx : List (BitVec 8)) (s : State) : Out := done (cspMoved s (cspEnd (cspSent (cspReceived s rx) 64)))

/-- CSP_FIFO_PUSH (R402): a write of CSP_M_FIFO, after `sent` words of the TX FIFO went out. -/
def execCspFifoPush (v : BitVec 32) (sent : Fin 65) (s : State) : Out := done (cspMoved s (cspPush (cspSent s sent.val) v))

/-- CSP_FIFO_POP (R402): a read of CSP_M_FIFO, after the cycles whose lanes `rx` samples. -/
def execCspFifoPop (rx : List (BitVec 8)) (s : State) : Out := done (cspMoved s (cspPop (cspReceived s rx)).2)

/-- CSP_SEL_N_ASSERT (R405). -/
def execCspSelNAssert (s : State) : Out := done (cspMoved s (selAssert s))

/-- CSP_SLAVE_WORD (R407 to R411, R413). -/
def execCspSlaveWord (v : BitVec 32) (ready : Bool) (s : State) : Out :=
  done (cspMoved s (slaveWord s v ready) (if s.csp.sel then some (v, s.csp.out) else none))

/-- GPIO_EDGE (R500): the edges of CSP_SEL_N's pin start and end selections (R405, R412). -/
def execGpioEdge (i : Fin 124) (level : Bool) (s : State) : Out :=
  done (if i.val = 103 then cspMoved s (if level then selRelease s false else selAssert s) else gpioEdge s i.val level)

/-- CSP_SEL_N_RELEASE (R412). -/
def execCspSelNRelease (partialWord : Bool) (s : State) : Out := done (cspMoved s (selRelease s partialWord))

end Sys2Proof.Machine
end

