-- ==== Sys2Proof/Machine/Tick.lean ====
section
/-! DEFINITION. Sample ticks, frame ticks, the swap of staged sets, switch ticks and the first mode (R20 to R24, R34 to R41, R90, R91,
R95, R204, R206, R247, R293). -/
namespace Sys2Proof.Machine

/-! ### The rill bus at a boundary -/

/-- The scatter entries a staged store lists, by output word. -/
def scatterKeys (m : Cells Word) : List Nat :=
  (m.filter fun e => decide (0x5200 ≤ e.1) && decide (e.1 < 0x5300)).map fun e => e.1 - 0x5200

/-- EN and STALL of scatter entry `j` (Table 04-6). -/
def scatterEn (m : Cells Word) (j : Nat) : Bool := (Cells.get m (0x5200 + j)).getLsbD 35
def scatterStall (m : Cells Word) (j : Nat) : Nat := ((Cells.get m (0x5200 + j)).extractLsb' 0 11).toNat

/-- Whether LISTEN gates rill engine `re` (R106). -/
def rillGated (s : State) (re : Nat) : Bool := s.listen && decide (re ≠ 0)

/-- The scatter entries of engine `re` whose words carry an ECC mark, a word of zero too (R104). -/
def scatterMarked (s : State) (re : Nat) : List Nat :=
  let a := rillWin re + 0x38000 + 0x5200
  (s.ecc.filter fun e => decide (a ≤ e.1) && decide (e.1 < a + 256)).map fun e => e.1 - a

/-- SCATTER (R95): one output word to its stall; an uncorrectable entry acts as disabled. -/
def scatterWord (re : Nat) (s : State) (j : Nat) : State :=
  let e := vget s.rill re RillEngine.zero
  let r := rillStaged s re e (0x5200 + j)
  let s1 := s.eccEvent (rillSite re) r.2 (rillLoc 2 (0x5200 + j))
  if r.1.getLsbD 35 then stallWrite s1 (r.1.extractLsb' 0 11).toNat clsScatter (re * 256 + j) (Cells.get e.outw j) else s1

/-- The scatter entries of engine `re`; a gated engine delivers nothing. -/
def scatterRun (s : State) (re : Nat) : State :=
  if rillGated s re then s else (scatterKeys (vget s.rill re RillEngine.zero).stA ++ scatterMarked s re).eraseDups.foldl (scatterWord re) s

/-- Whether the mode in force switches the writer of a claim word off (R206). -/
def writerOff (s : State) (w : Word) : Bool :=
  s.listen && (decide (claimCls w = clsBus) || decide (claimCls w = clsChain)
    || (decide (claimCls w = clsScatter) && decide (256 ≤ claimIdx w)))

/-- NOWRITE (R206): the claimed stalls that nothing wrote. -/
def nowriteRun (s : State) : State :=
  let missed := s.bus.claims.filter fun c => !Cells.read (fun _ => false) s.bus.written c.1 && !writerOff s c.2
  if missed.isEmpty then s else (s.count Reg.RB_NOWRITE 0 32 missed.length).raise Reg.RB_STATUS 4#32

/-- The ECC events of the claimed stalls' words readable in the interval that ends: one for each such word, when the interval ends
(DESIGN CHOICE, log entry 73: R206 does not say how often the readers' events of one word count). -/
def stallEcc (s : State) : State :=
  s.eccEvents busSite ((s.bus.claims.filter fun c => decide (c.1 < 2048)).map fun c => (s.mark (stallKey + c.1), c.1))

/-- STALL_FLIP (R24): the words written become readable, with their ECC. -/
def stallFlip (s : State) : State :=
  let seen := Cells.keep (stallGood s) s.bus.cur
  let t := moveMarks s (stallKey + 2048) stallKey 2048 true
  { t with bus := { s.bus with cur := s.bus.next, prev := seen, next := [], written := [] } }

/-- The trough readers and the trough writers in one interval (R210, R211, R228). -/
def troughReads (s : State) : State :=
  (boundTroughs s).foldl (fun u t =>
    if trOut u.bus.stA t && !troughBad u t then
      let r := troughPlay u t
      stallWrite r.2 (trStall u.bus.stA t) clsTrough t r.1
    else u) s
def troughWrites (s : State) (j : Nat) : State :=
  (boundTroughs s).foldl (fun u t => if trOut u.bus.stA t || troughBad u t then u else troughCapture u j t) s

/-- The ECC events of the trough-table words that an interval reads. -/
def troughEcc (s : State) : State :=
  (boundTroughs s).foldl (fun u t => (List.range 2).foldl (fun v k =>
    v.eccEvent busSite (v.mark (troughAddr (2 * t + k))) (2 * t + k + 4096)) u) s

/-! ### The sample tick -/

/-- The output gain moves on by one sample of its ramp (R35). -/
def gainStep (s : State) : State :=
  match s.tick.ramp with
  | .steady => s
  | .down =>
    let g := s.tick.gain - 1
    { s with tick := { s.tick with gain := g, ramp := if g = 0 then .steady else .down } }
  | .up =>
    let g := min 256 (s.tick.gain + 1)
    { s with tick := { s.tick with gain := g, ramp := if g = 256 then .steady else .up } }

/-- The rill engines at a boundary: results in flight have landed, and step 0 is next (R24, R78). -/
def rillBoundary (s : State) : State :=
  { s with rill := s.rill.map fun (e : RillEngine) => { e.landAll with step := 0 } }

/-- The counters at a boundary (R22, R81, R336); the boundary is a frame tick when j has run through F. -/
def countBoundary (s : State) : State :=
  let last := decide (s.f ≤ s.tick.j + 1)
  { s with tick := { s.tick with
      sampleCnt := s.tick.sampleCnt + 1#64, media := s.tick.media + 1#64, boundaries := s.tick.boundaries + 1,
      ptr := s.tick.ptr - 1#48, j := if last then 0 else s.tick.j + 1, frameDue := last } }

/-- CORE leaves the media PLL at this boundary when a switch of it waits, and what the configuration write asked for takes place
(R285, R292). The gate that the deadline point of this boundary saw open does not count for a return (R293). -/
def coreLeaves (s : State) : State :=
  if s.bit Reg.CLK_STATUS 9 then
    let t := mpllTake (setCore s 2)
    t1sWait (hostWait (portsAcquire { t with tick := { t.tick with gateSeen := if t.tick.frameDue then some false else none } }))
  else s

/-- Whether STANDBY or SAFE waits for nothing but the boundary at which its ramp has reached zero (R37, R38). -/
def stopDue (s : State) : Bool := decide (s.tick.seq.goal ≠ .mode) && decide (s.tick.seq.phase = .rampDown) && decide (s.tick.gain = 0)

/-- STANDBY or SAFE, whose ramp has reached zero; at a boundary that is a frame tick it follows that frame tick's events. -/
def rampOver (s : State) : State := if stopDue s && !s.tick.frameDue then stopNow s else s

/-- Whether CORE raises sample ticks now: a mode is in force, CORE runs, and the frame tick of the last boundary has taken place. -/
def ticksRun (s : State) : Bool :=
  s.tick.entered && decide (coreSrc s ≠ 0) && !s.tick.frameDue && decide (s.power.phase = .running)

/-- What the writers do in the interval that ends. -/
def intervalWrites (s : State) (x : SampleInput) : State :=
  let s1 := (List.range 16).foldl scatterRun (rillBoundary (gainStep s))
  let s2 := troughReads (troughEcc (cascadeRun (fabricRun s1)))
  let s3 := t1sSample (streamRx (hostSample (portsRx x s2)))
  (List.range 2).foldl (tetherRxSample x) s3

/-- What the output ports take from the interval that ends. -/
def intervalReads (s : State) (x : SampleInput) : State :=
  (List.range 2).foldl (tetherTxSample x) (t1sTake (streamTx (portsTx (farCompare s))))

/-- A sample-tick boundary; accesses that waited for a trough writer's row are served when it is stored (R210). What comes to wait in the
interval itself waits for a clear or a handover, which end by commands of their own. -/
def sampleTick (s0 : State) (x : SampleInput) : State :=
  if ticksRun s0 then
    let s := elapse s0 x.cycles.toNat
    let j := s.tick.j
    let s1 := troughWrites (countBoundary (stallFlip (stallEcc (nowriteRun (intervalReads (intervalWrites s x) x))))) j
    tickCaptures (rampOver (coreLeaves (if s0.heldAcc.isEmpty then s1 else serveHeld s1))) 3
  else s0

/-! ### The swap of staged sets (R90, R91, R145, R204, R247) -/

/-- The swap of rill role `k`'s set; RUN in force of a lost role stays 0 (R459). -/
def swapRill (s : State) (k : Nat) : State :=
  let run := s.bit (Reg.RILL_CTRL k) 0 && !roleLost s k
  let seed := (setAt s k).seed
  onRill s k fun (e : RillEngine) =>
    { e with
      stA := e.stS, lenA := BitVec.ofNat 16 (s.fld (Reg.RILL_PROG k) 0 16), pageA := BitVec.ofNat 2 (s.fld (Reg.RILL_PROG k) 16 2),
      runA := run, lutA := BitVec.ofNat 4 (s.fld (Reg.RILL_LUT_CFG k) 0 4), lfsr := seedLoad seed (s.reg (Reg.RILL_NOISE_SEED k)) e.lfsr,
      outw := if e.runA && !run then [] else e.outw }

/-- The swap of basin role `k`'s set; RUN in force of a lost role stays 0 (R459). -/
def swapBasin (s : State) (k : Nat) : State :=
  let seed := (setAt s (16 + k)).seed
  onBasin s k fun (e : BasinEngine) =>
    { e with
      stA := e.stS, runA := s.bit (Reg.BASIN_CTRL k) 0 && !roleLost s (17 + k), halfA := s.bit (Reg.BASIN_CTRL k) 2,
      lfsr := seedLoad seed (s.reg (Reg.BASIN_NOISE_SEED k)) e.lfsr }

/-- The swap of set `k`: its shadow comes into force, with its ECC. -/
def swapSet (sw : Bool) (s0 : State) (k : Nat) : State :=
  let s := swapMarks s0 k
  if k < 16 then swapRill s k
  else if k < 24 then swapBasin s (k - 16)
  else if k = setBus then swapTroughTable s s.bus.stA
  else if k = setFabric then swapFabric s sw
  else if k = setCascade then swapCascade s
  else swapTether s (k - 27)

/-- What a swap leaves in the safe-load controller: copy-back starts, and the commit is over. -/
def setSwapped (s : State) (k : Nat) : State :=
  commitLeave (putSet s k { setAt s k with committed := false, copying := true, seed := false }) k false false

/-- Release the stalls of engine `re`'s scatter entries that the new list does not keep; `old` is the store in force before. -/
def releaseScatter (re : Nat) (old : Cells Word) (s : State) : State :=
  (scatterKeys old).foldl (fun u j =>
    let m := (vget u.rill re RillEngine.zero).stA
    if scatterEn old j && !(scatterEn m j && decide (scatterStall m j = scatterStall old j)) then
      releaseStall u (scatterStall old j) clsScatter (re * 256 + j) else u) s

/-- Claim the stalls of engine `re`'s scatter entries in number order; EN of a refused entry reads 0 in the copy in force (R91). -/
def claimScatter (s : State) (re : Nat) : State :=
  (scatterKeys (vget s.rill re RillEngine.zero).stA).foldl (fun u j =>
    let m := (vget u.rill re RillEngine.zero).stA
    if scatterEn m j then
      let r := claimStall u (scatterStall m j) clsScatter (re * 256 + j)
      if r.1 then r.2
      else onRill r.2 re fun (e : RillEngine) => { e with stA := Cells.set e.stA (0x5200 + j) (Cells.get e.stA (0x5200 + j) &&& 0x7FFFFFFFF#36) }
    else u) s

/-- Every release of the sets that swap, and of buses whose fades are over (R203, R204, R226); `old` is the state before the swap. -/
def swapReleases (old s : State) (sets : List Nat) : State :=
  let s1 := if sets.contains setCascade then releaseChains s old.cascade.stA else s
  let s2 := releaseBuses s1
  let s3 := if sets.contains setBus then releaseTroughs s2 old.bus.stA else s2
  let s4 := (sets.filter fun k => decide (k < 16)).foldl (fun u k => releaseScatter k (vget old.rill k RillEngine.zero).stA u) s3
  (List.range 2).foldl (fun u p => if sets.contains (setTether p) then releaseTether u p (tetherAt old p).rxA else u) s4

/-- Their claims, in the order of R204. -/
def swapClaims (old s : State) (sets : List Nat) : State :=
  let s1 := if sets.contains setCascade then claimChains s old.cascade.stA else s
  let s2 := if sets.contains setFabric then claimBuses s1 else s1
  let s3 := if sets.contains setBus then claimTroughs s2 else s2
  let s4 := (sets.filter fun k => decide (k < 16)).foldl claimScatter s3
  (List.range 2).foldl (fun u p => if sets.contains (setTether p) then claimTether u p else u) s4

/-- SET_SWAP (R247): every set of the list swaps at once. SL_LAST_SWAP takes the count that this tick raises, also where a follower's
counter is loaded later at the same tick (DESIGN CHOICE, log entry 102). -/
def swapSets (s : State) (sw : Bool) (sets : List Nat) : State :=
  let s1 := sets.foldl (swapSet sw) s
  let s2 := sets.foldl setSwapped (swapClaims s (swapReleases s s1 sets) sets)
  if sets.isEmpty then s2 else s2.setReg Reg.SL_LAST_SWAP (s2.tick.frameCnt.setWidth 32)

/-! ### Frame ticks -/

/-- What a frame tick is: an ordinary one, one that waits for the gate with CORE on UTIL, the one at which acquisition starts, or a
switch tick. -/
inductive FrameKind where
  | ordinary
  | waits
  | acquire
  | switch
  deriving DecidableEq, Repr

/-- Whether a mode change has reached zero output and its switch is armed (R34). -/
def switchDue (s : State) : Bool :=
  s.tick.pending && decide (s.tick.seq.phase = .rampDown) && decide (s.tick.seq.goal = .mode) && decide (s.tick.gain = 0)

/-- What this frame tick is (R34, R293). The gate counts as the deadline point saw it, where that point is not part of this command, and
one that has closed since lets CORE not return (R286). -/
def frameKind (s : State) : FrameKind :=
  if onUtil s then (if s.tick.gateSeen.getD true && gateOpen s then .switch else .waits)
  else if switchDue s then (if s.tick.seq.needAcq then .acquire else .switch)
  else .ordinary

/-- The mode armed comes into force (R34, R36): C and F take their values. -/
def applyMode (s : State) : State :=
  if s.tick.pending then
    ({ s with tick := { s.tick with entered := true, mode := s.tick.pendMode, family := s.tick.pendFamily, pending := false } }).raise
      Reg.TICK_STATUS 2#32
  else s

/-- CORE at a switch tick: from the media PLL after acquisition, from UTIL / 4 in LISTEN, where the PLL stops (R34, R292, R293) and the
links go down (R304, R465). -/
def switchCore (s : State) : State :=
  if s.listen then tetherDown (linksDown (setMpll (setCore s 3) 0 false)) else if onUtil s then setCore s 1 else s

/-- The sequence after a switch tick: outputs are held at zero for two frames, also while a mode request waits (R20, R34). -/
def switchSeq (s : State) : State :=
  let q := s.tick.seq
  if q.goal = .mode ∧ (q.phase = .rampDown ∨ q.phase = .acquiring) then
    putSeq s { q with phase := .hold, heldFrames := 0, mode := s.tick.mode, family := s.tick.family }
  else if q.phase = .idle ∨ q.phase = .hold ∨ q.phase = .rampUp then
    setBusy (putSeq s { ModeSeq.none with phase := .hold, mode := s.tick.mode, family := s.tick.family }) true
  else if q.goal = .mode then { s with tick := { s.tick with outHold := some 0 } }
  else s

/-- Acquisition starts at this frame tick: CORE moves to UTIL, and the media PLL acquires (R34, R285). -/
def acquireStart (s : State) : State :=
  let s1 := muteLow (mpllTake (setCore s 2))
  t1sWait (hostWait (portsAcquire (putSeq s1 { s1.tick.seq with phase := .acquiring })))

/-- MUTE_N at a frame tick (R261). -/
def muteFrame (s : State) (sw : Bool) : State :=
  if sw || s.listen || acquiring s || s.bit Reg.ANA_CTRL 9 then (if sw then muteLow s else s)
  else { s with ports := { s.ports with muteN := true } }

/-- ALIVE toggles, and FAULT_N is released once an image has started (R494, R495). -/
def pinsFrame (s : State) : State :=
  faultPin { s with power := { s.power with alive := !s.power.alive, faultBoot := s.power.faultBoot && !s.power.started } }

/-- Whether the ticks keep a phase to the word clock (R294). -/
def wclkAligned (s : State) : Bool :=
  decide (s.fld Reg.MPLL_CFG 1 2 = 1) && decide (s.fld Reg.MPLL_FRAC 0 24 = 0) && decide (s.fld Reg.MPLL_DIV 10 18 = 4 * s.c * mpllRdiv s)

/-- The interval that starts is lengthened by 0 to C - 1 cycles: where the edge of the reference falls is a free value (R294). -/
def lengthen (s : State) : State :=
  let f := s.takeFree
  { f.2 with tick := { f.2.tick with frameExtra := Config.freeEdge f.1 % s.c } }

/-- Whether a follower aligns at this frame tick: a switch tick that ALIGN names (R470, R477). -/
def aligns (s : State) (sw : Bool) : Bool := sw && isFollower s && (s.tether.align.any fun a => decide (a.1 = leadFrame s))

/-- A follower's counters take the leader's values at the switch tick that ALIGN names, and its first interval is lengthened by the
cycles that ALIGN gives, and by those that make up for its own cable, which are a free value (R22, R470). An ALIGN whose tick has passed
is spent. -/
def alignLoad (s : State) (sw : Bool) : State :=
  match s.tether.align with
  | some a =>
    if aligns s sw then
      let f := s.takeFree
      { f.2 with
        tick := { f.2.tick with sampleCnt := a.2.2.1, frameCnt := a.2.2.2.1, media := a.2.2.2.2, mediaLoad := none
                                frameExtra := (a.2.1.toNat + Config.freeEdge f.1) % s.c }
        tether := { f.2.tether with align := none, ahead := 0#32 } }
    else if 0 ≤ (leadFrame s - a.1).toInt then { s with tether := { s.tether with align := none } }
    else s
  | none => s

/-- The first interval on the media PLL after a switch; `old` is the state before it. -/
def firstOnMedia (old s : State) : State :=
  if coreSrc s = 1 ∧ (onUtil old = true ∨ old.tick.entered = false) ∧ wclkAligned s = true then lengthen s else s

/-- The clears of a switch tick; `old` is the state before it (R213, R239, Table 11-5). -/
def switchClears (old s : State) : State :=
  t1sWait (streamWait (hostWait (portsSwitch (clocksChange old s) (cascadeClear (troughClear s)))))

/-- One more frame since S with outputs held; acquisition holds them without end (R20). -/
def holdFrame (s : State) (k : FrameKind) : State :=
  if k = .ordinary then
    let q := s.tick.seq
    let s1 := if q.phase = .hold then putSeq s { q with heldFrames := q.heldFrames + 1 } else s
    { s1 with tick := { s1.tick with outHold := s1.tick.outHold.map (· + 1) } }
  else s

/-- The swaps of a frame tick, before B - 16 (R24, R247). At a switch tick every fade ends first, so that a claim kept only for a fade
out is released at that swap; a frame tick without swaps releases such claims too (R226). -/
def frameSwaps (s : State) (k : FrameKind) : State :=
  if k = .ordinary ∨ k = .switch then
    let s1 := modeCutoff s
    let sets := eligibleSets s1 (decide (k = .switch))
    let s2 := if k = .switch then endAllFades s1 else s1
    swapSets { s2 with tick := { s2.tick with frameCnt := s2.tick.frameCnt + 1#64 } } (decide (k = .switch)) sets
  else releaseBuses { s with tick := { s.tick with frameCnt := s.tick.frameCnt + 1#64 } }

/-- B - 16 to B: the troughs, the switch or the start of acquisition, and the farrier. -/
def frameTurn (s0 : State) (k : FrameKind) (verdicts : List (Nat × Bool)) : State :=
  let s := { s0 with tick := { s0.tick with frameExtra := 0 } }
  match k with
  | .switch => farFrame (switchSeq (switchClears s (firstOnMedia s (switchCore (applyMode s)))))
  | .acquire => farFrame (acquireStart (troughSwap s verdicts))
  | .ordinary | .waits => farFrame (troughSwap s verdicts)

/-- The claims that enables of ports, streams and audio rings make or give up at a frame tick: every release first, and then the claims
in function order (R498). -/
def frameClaims (s : State) (resume : Bool) : State :=
  let s1 := ainRelease (srxRelease (t1sChRetire (portsRetire s)))
  hostFrame (streamFrame (t1sChApply (portsFrame s1)) resume) resume

/-- What takes place at B. -/
def frameStart (s : State) (k : FrameKind) : State :=
  let sw := decide (k = .switch)
  let resume := decide (k = .ordinary)
  let s1 := muteFrame (pinsFrame (weirTakeIn (basinFrameStart s) sw)) sw
  let s2 := frameClaims s1 resume
  let aligned := aligns s2 sw
  let s3 := alignLoad s2 sw
  let s4 := holdFrame (supFrame (tetherFrame (tickCaptures (timeFrame s3 sw aligned) 4))) k
  { s4.raise Reg.TICK_STATUS 1#32 with tick := { s4.tick with frameDue := false, gateSeen := none } }

/-- The events of one frame tick of kind `k` in the order of Table 02-2. -/
def frameBody (s : State) (k : FrameKind) : State :=
  let s1 := basinDeadline s
  let v := troughVerdicts s1
  frameStart (frameTurn (frameSwaps s1 k) k v) k

/-- Whether the last boundary is a frame tick whose events have not taken place. -/
def frameReady (s : State) : Bool := s.tick.entered && s.tick.frameDue && decide (s.power.phase = .running)

/-- A frame tick, `cycles` UTIL cycles after the last event that told the time, and then the STANDBY or SAFE that waits for it. -/
def frameTick (s : State) (cycles : Nat) : State :=
  if frameReady s then
    let t := frameBody (elapse s cycles) (frameKind s)
    if stopDue s then stopNow t else t
  else s

/-- A frame tick of kind `k`, and nothing where this frame tick is of another. -/
def frameTickOf (s : State) (cycles : Nat) (k : FrameKind) : State := if frameKind s = k then frameTick s cycles else s

/-- FIRST_MODE_ENTRY (R36): the first boundary is the first sample tick, the first frame tick and the switch tick. SAFE raises no
ticks and is left only by reset (R27, R30). -/
def firstEntry (s : State) (cycles : Nat) : State :=
  if s.tick.pending && !s.tick.entered && !inSafe s && decide (s.power.phase = .running) && (gateOpen s || decide (s.tick.pendMode = modeListen)) then
    let s1 := elapse s cycles
    let s2 := { s1 with tick := { s1.tick with
      sampleCnt := 1#64, frameCnt := 0#64, j := 0, boundaries := s1.tick.boundaries + 1, ptr := s1.tick.ptr - 1#48 } }
    let s3 := if s2.tick.pendMode = modeListen then s2 else setCore s2 1
    frameBody (tickCaptures (s3.lower Reg.FAR_STATUS 0x400#32) 3) .switch
  else s

/-- The first mode, armed by then: where no TICK_SWITCH was sent, the supervisor has armed the mode it named (DESIGN CHOICE, log entry
79: the supervisor's own write need not be sent as a command). -/
def firstMode (s : State) (cycles : Nat) : State := firstEntry (armNamed (policyOnce s)) cycles

/-- DEADLINE_POINT (R39, R40): 64 cycles before a boundary that is a frame tick, where the media PLL's gate is looked at (R293). -/
def deadlinePoint (s : State) : State :=
  if ticksRun s && decide (s.tick.j + 1 = s.f) then
    let t := basinDeadline s
    { t with tick := { t.tick with gateSeen := some (gateOpen s) } }
  else s

/-! ### The commands -/

/-- SAMPLE_TICK (R21, R24). -/
def execSampleTick (x : SampleInput) (s : State) : Out := done (sampleTick s x)

/-- FRAME_TICK (R22, R24). -/
def execFrameTick (cycles : BitVec 64) (s : State) : Out := done (frameTick s cycles.toNat)

/-- DEADLINE_POINT (R39). -/
def execDeadlinePoint (s : State) : Out := done (deadlinePoint s)

/-- SWITCH_TICK (R34, R293). -/
def execSwitchTick (cycles : BitVec 64) (s : State) : Out := done (frameTickOf s cycles.toNat .switch)

/-- ACQUISITION_SWITCH (R34). -/
def execAcquisitionSwitch (cycles : BitVec 64) (s : State) : Out := done (frameTickOf s cycles.toNat .acquire)

/-- FIRST_MODE_ENTRY (R36). -/
def execFirstModeEntry (cycles : BitVec 64) (s : State) : Out := done (firstMode s cycles.toNat)

end Sys2Proof.Machine
end

