-- ==== Sys2Proof/Machine/Dispatch.lean ====
section
/-! DEFINITION. What each command does, one arm per constructor; each arm is one call of that command's own meaning. -/
namespace Sys2Proof.Machine

def exec (i : Instr) (s : State) : Host.Outcome State Fault Refusal :=
  match i with
  | .sampleTick x => Sys2Proof.Machine.execSampleTick x s
  | .frameTick cycles => Sys2Proof.Machine.execFrameTick cycles s
  | .deadlinePoint => Sys2Proof.Machine.execDeadlinePoint s
  | .copyBackComplete set => Sys2Proof.Machine.execCopyBackComplete set s
  | .kernelDispatch be => Sys2Proof.Machine.execKernelDispatch be s
  | .kernelStop be => Sys2Proof.Machine.execKernelStop be s
  | .entryComplete be entry cycle => Sys2Proof.Machine.execEntryComplete be entry cycle s
  | .dmaDescriptorDone be ch => Sys2Proof.Machine.execDmaDescriptorDone be ch s
  | .interruptEntry nextAtomic => Sys2Proof.Machine.execInterruptEntry nextAtomic s
  | .ccWait atomic => Sys2Proof.Machine.execCcWait atomic s
  | .ccCacheInv v => Sys2Proof.Machine.execCcCacheInv v s
  | .cacheInvalidationEnd => Sys2Proof.Machine.execCacheInvalidationEnd s
  | .peakClr be => Sys2Proof.Machine.execPeakClr be s
  | .commit set group => Sys2Proof.Machine.execCommit set group s
  | .slAbort group => Sys2Proof.Machine.execSlAbort group s
  | .modeChangeStart => Sys2Proof.Machine.execModeChangeStart s
  | .switchTick cycles => Sys2Proof.Machine.execSwitchTick cycles s
  | .acquisitionSwitch cycles => Sys2Proof.Machine.execAcquisitionSwitch cycles s
  | .outputRampUpStart => Sys2Proof.Machine.execOutputRampUpStart s
  | .modeComplete => Sys2Proof.Machine.execModeComplete s
  | .groupTimeout => Sys2Proof.Machine.execGroupTimeout s
  | .firstModeEntry cycles => Sys2Proof.Machine.execFirstModeEntry cycles s
  | .weirStep e => Sys2Proof.Machine.execWeirStep e s
  | .fadeEnd e => Sys2Proof.Machine.execFadeEnd e s
  | .rillNop re x => Sys2Proof.Machine.execRillNop re x s
  | .rillMov re f => Sys2Proof.Machine.execRillMov re f s
  | .rillAdd re f => Sys2Proof.Machine.execRillAdd re f s
  | .rillSub re f => Sys2Proof.Machine.execRillSub re f s
  | .rillNeg re f => Sys2Proof.Machine.execRillNeg re f s
  | .rillAbs re f => Sys2Proof.Machine.execRillAbs re f s
  | .rillMin re f => Sys2Proof.Machine.execRillMin re f s
  | .rillMax re f => Sys2Proof.Machine.execRillMax re f s
  | .rillAnd re f => Sys2Proof.Machine.execRillAnd re f s
  | .rillOr re f => Sys2Proof.Machine.execRillOr re f s
  | .rillXor re f => Sys2Proof.Machine.execRillXor re f s
  | .rillShl re f => Sys2Proof.Machine.execRillShl re f s
  | .rillShr re f => Sys2Proof.Machine.execRillShr re f s
  | .rillSel re f => Sys2Proof.Machine.execRillSel re f s
  | .rillCadd re f => Sys2Proof.Machine.execRillCadd re f s
  | .rillCsub re f => Sys2Proof.Machine.execRillCsub re f s
  | .rillConj re f => Sys2Proof.Machine.execRillConj re f s
  | .rillCpack re f => Sys2Proof.Machine.execRillCpack re f s
  | .rillMova re f => Sys2Proof.Machine.execRillMova re f s
  | .rillMovax re f => Sys2Proof.Machine.execRillMovax re f s
  | .rillLut re f => Sys2Proof.Machine.execRillLut re f s
  | .rillCmpeq re f => Sys2Proof.Machine.execRillCmpeq re f s
  | .rillCmplt re f => Sys2Proof.Machine.execRillCmplt re f s
  | .rillCmple re f => Sys2Proof.Machine.execRillCmple re f s
  | .rillPlog re f => Sys2Proof.Machine.execRillPlog re f s
  | .rillLdc re f => Sys2Proof.Machine.execRillLdc re f s
  | .rillStc re f => Sys2Proof.Machine.execRillStc re f s
  | .rillStcx re f => Sys2Proof.Machine.execRillStcx re f s
  | .rillLdw re f => Sys2Proof.Machine.execRillLdw re f s
  | .rillStw re f => Sys2Proof.Machine.execRillStw re f s
  | .rillStwx re f => Sys2Proof.Machine.execRillStwx re f s
  | .rillAclr re f => Sys2Proof.Machine.execRillAclr re f s
  | .rillLda re f => Sys2Proof.Machine.execRillLda re f s
  | .rillLdax re f => Sys2Proof.Machine.execRillLdax re f s
  | .rillAdda re f => Sys2Proof.Machine.execRillAdda re f s
  | .rillAddaC re f => Sys2Proof.Machine.execRillAddaC re f s
  | .rillAddax re f => Sys2Proof.Machine.execRillAddax re f s
  | .rillAddaxC re f => Sys2Proof.Machine.execRillAddaxC re f s
  | .macr re f cx z nj am => Sys2Proof.Machine.execMacr re f cx z nj am s
  | .mack re f cx z nj am => Sys2Proof.Machine.execMack re f cx z nj am s
  | .macc re f cx z nj am => Sys2Proof.Machine.execMacc re f cx z nj am s
  | .macw re f cx z nj am => Sys2Proof.Machine.execMacw re f cx z nj am s
  | .tapm re f z n am => Sys2Proof.Machine.execTapm re f z n am s
  | .snop be x => Sys2Proof.Machine.execSnop be x s
  | .basinMov be h f => Sys2Proof.Machine.execBasinMov be h f s
  | .basinAdd be h f => Sys2Proof.Machine.execBasinAdd be h f s
  | .basinSub be h f => Sys2Proof.Machine.execBasinSub be h f s
  | .addi be h f => Sys2Proof.Machine.execAddi be h f s
  | .ldi be h f => Sys2Proof.Machine.execLdi be h f s
  | .ldih be h f => Sys2Proof.Machine.execLdih be h f s
  | .basinAnd be h f => Sys2Proof.Machine.execBasinAnd be h f s
  | .basinOr be h f => Sys2Proof.Machine.execBasinOr be h f s
  | .basinXor be h f => Sys2Proof.Machine.execBasinXor be h f s
  | .andi be h f => Sys2Proof.Machine.execAndi be h f s
  | .basinShl be h f => Sys2Proof.Machine.execBasinShl be h f s
  | .basinShr be h f => Sys2Proof.Machine.execBasinShr be h f s
  | .sra be h f => Sys2Proof.Machine.execSra be h f s
  | .adds be h f => Sys2Proof.Machine.execAdds be h f s
  | .subs be h f => Sys2Proof.Machine.execSubs be h f s
  | .basinMin be h f => Sys2Proof.Machine.execBasinMin be h f s
  | .basinMax be h f => Sys2Proof.Machine.execBasinMax be h f s
  | .mulf be h f => Sys2Proof.Machine.execMulf be h f s
  | .muli be h f => Sys2Proof.Machine.execMuli be h f s
  | .cls be h f => Sys2Proof.Machine.execCls be h f s
  | .basinCmpeq be h f => Sys2Proof.Machine.execBasinCmpeq be h f s
  | .basinCmplt be h f => Sys2Proof.Machine.execBasinCmplt be h f s
  | .cmpltu be h f => Sys2Proof.Machine.execCmpltu be h f s
  | .basinCmple be h f => Sys2Proof.Machine.execBasinCmple be h f s
  | .cmpeqi be h f => Sys2Proof.Machine.execCmpeqi be h f s
  | .cmplti be h f => Sys2Proof.Machine.execCmplti be h f s
  | .basinPlog be h f => Sys2Proof.Machine.execBasinPlog be h f s
  | .mfc be h f => Sys2Proof.Machine.execMfc be h f s
  | .mtc be h f => Sys2Proof.Machine.execMtc be h f s
  | .mset be h f => Sys2Proof.Machine.execMset be h f s
  | .mget be h f => Sys2Proof.Machine.execMget be h f s
  | .br be h f => Sys2Proof.Machine.execBr be h f s
  | .brl be h f => Sys2Proof.Machine.execBrl be h f s
  | .brr be h f => Sys2Proof.Machine.execBrr be h f s
  | .brt be h f => Sys2Proof.Machine.execBrt be h f s
  | .trap be h => Sys2Proof.Machine.execTrap be h s
  | .rfe be h => Sys2Proof.Machine.execRfe be h s
  | .mnop be x => Sys2Proof.Machine.execMnop be x s
  | .lds be h f => Sys2Proof.Machine.execLds be h f s
  | .sts be h f => Sys2Proof.Machine.execSts be h f s
  | .ldv be h f => Sys2Proof.Machine.execLdv be h f s
  | .stv be h f => Sys2Proof.Machine.execStv be h f s
  | .ldbc be h f => Sys2Proof.Machine.execLdbc be h f s
  | .ld2v be h x1 x2 => Sys2Proof.Machine.execLd2v be h x1 x2 s
  | .st2v be h x1 x2 => Sys2Proof.Machine.execSt2v be h x1 x2 s
  | .lsv be h x1 x2 => Sys2Proof.Machine.execLsv be h x1 x2 s
  | .ld2s be h x1 x2 => Sys2Proof.Machine.execLd2s be h x1 x2 s
  | .ldbv be h f => Sys2Proof.Machine.execLdbv be h f s
  | .stbv be h f => Sys2Proof.Machine.execStbv be h f s
  | .ldb8 be h f => Sys2Proof.Machine.execLdb8 be h f s
  | .stb8 be h f => Sys2Proof.Machine.execStb8 be h f s
  | .vnop be x => Sys2Proof.Machine.execVnop be x s
  | .vmov be h f => Sys2Proof.Machine.execVmov be h f s
  | .vadd be h f => Sys2Proof.Machine.execVadd be h f s
  | .vsub be h f => Sys2Proof.Machine.execVsub be h f s
  | .vcadd be h f => Sys2Proof.Machine.execVcadd be h f s
  | .vcsub be h f => Sys2Proof.Machine.execVcsub be h f s
  | .vconj be h f => Sys2Proof.Machine.execVconj be h f s
  | .vneg be h f => Sys2Proof.Machine.execVneg be h f s
  | .vmax be h f => Sys2Proof.Machine.execVmax be h f s
  | .vmin be h f => Sys2Proof.Machine.execVmin be h f s
  | .vsel be h f => Sys2Proof.Machine.execVsel be h f s
  | .vperm be h f => Sys2Proof.Machine.execVperm be h f s
  | .vbcast be h f => Sys2Proof.Machine.execVbcast be h f s
  | .vext be h f => Sys2Proof.Machine.execVext be h f s
  | .vcmplt be h f => Sys2Proof.Machine.execVcmplt be h f s
  | .vcmple be h f => Sys2Proof.Machine.execVcmple be h f s
  | .vscale be h f => Sys2Proof.Machine.execVscale be h f s
  | .vnorm be h f => Sys2Proof.Machine.execVnorm be h f s
  | .vabs2 be h f => Sys2Proof.Machine.execVabs2 be h f s
  | .vrcp be h f => Sys2Proof.Machine.execVrcp be h f s
  | .vmac be h f => Sys2Proof.Machine.execVmac be h f s
  | .vcmac be h f => Sys2Proof.Machine.execVcmac be h f s
  | .vcmacj be h f => Sys2Proof.Machine.execVcmacj be h f s
  | .vtapm be h f => Sys2Proof.Machine.execVtapm be h f s
  | .vmulr be h f => Sys2Proof.Machine.execVmulr be h f s
  | .vcmulr be h f => Sys2Proof.Machine.execVcmulr be h f s
  | .vcmuljr be h f => Sys2Proof.Machine.execVcmuljr be h f s
  | .vsta be h f => Sys2Proof.Machine.execVsta be h f s
  | .vstax be h f => Sys2Proof.Machine.execVstax be h f s
  | .vlda be h f => Sys2Proof.Machine.execVlda be h f s
  | .vldax be h f => Sys2Proof.Machine.execVldax be h f s
  | .vaclr be h f => Sys2Proof.Machine.execVaclr be h f s
  | .vnlmsu be h f => Sys2Proof.Machine.execVnlmsu be h f s
  | .vtw be h f => Sys2Proof.Machine.execVtw be h f s
  | .vbf4 be h f => Sys2Proof.Machine.execVbf4 be h f s
  | .programStoreWrite master re word data => Sys2Proof.Machine.execProgramStoreWrite master re word data s
  | .codeStoreWrite master be word data => Sys2Proof.Machine.execCodeStoreWrite master be word data s
  | .engineWindowWrite master off data => Sys2Proof.Machine.execEngineWindowWrite master off data s
  | .yardWordAccess master w wr => Sys2Proof.Machine.execYardWordAccess master w wr s
  | .yardByteWrite master o data => Sys2Proof.Machine.execYardByteWrite master o data s
  | .correctedWordWriteBack w => Sys2Proof.Machine.execCorrectedWordWriteBack w s
  | .scrubRow row => Sys2Proof.Machine.execScrubRow row s
  | .tackRoomAccess master o size wr => Sys2Proof.Machine.execTackRoomAccess master o size wr s
  | .wlock v => Sys2Proof.Machine.execWlock v s
  | .tamper => Sys2Proof.Machine.execTamper s
  | .tackWipeEnd => Sys2Proof.Machine.execTackWipeEnd s
  | .defaultTargetAccess master addr word write => Sys2Proof.Machine.execDefaultTargetAccess master addr word write s
  | .memBankOwnerWrite master b v => Sys2Proof.Machine.execMemBankOwnerWrite master b v s
  | .handoverComplete b => Sys2Proof.Machine.execHandoverComplete b s
  | .wakeClearEnd => Sys2Proof.Machine.execWakeClearEnd s
  | .pdmClkEnWrite v => Sys2Proof.Machine.execPdmClkEnWrite v s
  | .pdmSettleEnd m => Sys2Proof.Machine.execPdmSettleEnd m s
  | .pdmStuck m => Sys2Proof.Machine.execPdmStuck m s
  | .pgaStep c => Sys2Proof.Machine.execPgaStep c s
  | .biasShort k => Sys2Proof.Machine.execBiasShort k s
  | .tdmCtrlWrite p v => Sys2Proof.Machine.execTdmCtrlWrite p v s
  | .tdmFrameWrite p v => Sys2Proof.Machine.execTdmFrameWrite p v s
  | .tdmRxFrame p slots phase => Sys2Proof.Machine.execTdmRxFrame p slots phase s
  | .tdmFsEdge p => Sys2Proof.Machine.execTdmFsEdge p s
  | .clkLost p => Sys2Proof.Machine.execClkLost p s
  | .dllLock p tap => Sys2Proof.Machine.execDllLock p tap s
  | .asrcLock p ratio => Sys2Proof.Machine.execAsrcLock p ratio s
  | .asrcUnlock p => Sys2Proof.Machine.execAsrcUnlock p s
  | .mpllConfigWrite k v => Sys2Proof.Machine.execMpllConfigWrite k v s
  | .mpllLock ctrl => Sys2Proof.Machine.execMpllLock ctrl s
  | .mpllOver => Sys2Proof.Machine.execMpllOver s
  | .mpllTimeout => Sys2Proof.Machine.execMpllTimeout s
  | .holdover refLoss => Sys2Proof.Machine.execHoldover refLoss s
  | .resumed => Sys2Proof.Machine.execResumed s
  | .mncoAdjWrite v => Sys2Proof.Machine.execMncoAdjWrite v s
  | .adjSlewStep => Sys2Proof.Machine.execAdjSlewStep s
  | .mncoFwHiWrite v => Sys2Proof.Machine.execMncoFwHiWrite v s
  | .clockFault => Sys2Proof.Machine.execClockFault s
  | .clkoutCtrlWrite v => Sys2Proof.Machine.execClkoutCtrlWrite v s
  | .ethCtrlWrite p v => Sys2Proof.Machine.execEthCtrlWrite p v s
  | .ethMdioCmdWrite p v => Sys2Proof.Machine.execEthMdioCmdWrite p v s
  | .mdioComplete p data => Sys2Proof.Machine.execMdioComplete p data s
  | .linkChange p up speed full => Sys2Proof.Machine.execLinkChange p up speed full s
  | .txFrameStart p cycles deferred emptied => Sys2Proof.Machine.execTxFrameStart p cycles deferred emptied s
  | .collision p late => Sys2Proof.Machine.execCollision p late s
  | .backoffEnd p => Sys2Proof.Machine.execBackoffEnd p s
  | .txDescriptor p q desc data failed => Sys2Proof.Machine.execTxDescriptor p q desc data failed s
  | .rxFrame p frame align code cycles descs => Sys2Proof.Machine.execRxFrame p frame align code cycles descs s
  | .ethFiltCWrite p f v => Sys2Proof.Machine.execEthFiltCWrite p f v s
  | .txtsPop p => Sys2Proof.Machine.execTxtsPop p s
  | .lpiEntry p => Sys2Proof.Machine.execLpiEntry p s
  | .downshift p => Sys2Proof.Machine.execDownshift p s
  | .downshiftReturn p => Sys2Proof.Machine.execDownshiftReturn p s
  | .t1sAudioCycle => Sys2Proof.Machine.execT1sAudioCycle s
  | .t1sUplinkFrame => Sys2Proof.Machine.execT1sUplinkFrame s
  | .timeLoad => Sys2Proof.Machine.execTimeLoad s
  | .timeAdd => Sys2Proof.Machine.execTimeAdd s
  | .timeCapture c cycles => Sys2Proof.Machine.execTimeCapture c cycles s
  | .timeCompare k cycles => Sys2Proof.Machine.execTimeCompare k cycles s
  | .comparePulseEnd k => Sys2Proof.Machine.execComparePulseEnd k s
  | .timeCapCfgWrite cmp c v => Sys2Proof.Machine.execTimeCapCfgWrite cmp c v s
  | .stxCtrlWrite rx k o v => Sys2Proof.Machine.execStxCtrlWrite rx k o v s
  | .streamTxPacket k => Sys2Proof.Machine.execStreamTxPacket k s
  | .streamRxPacket => Sys2Proof.Machine.execStreamRxPacket s
  | .streamLoss k => Sys2Proof.Machine.execStreamLoss k s
  | .barRequest bar off req => Sys2Proof.Machine.execBarRequest bar off req s
  | .hostLinkDown why => Sys2Proof.Machine.execHostLinkDown why s
  | .doorbell r v fromCore descs => Sys2Proof.Machine.execDoorbell r v fromCore descs s
  | .ringCfgWrite r v => Sys2Proof.Machine.execRingCfgWrite r v s
  | .ringStopped r => Sys2Proof.Machine.execRingStopped r s
  | .hostReadError what timeout => Sys2Proof.Machine.execHostReadError what timeout s
  | .nopCommand opcode tag => Sys2Proof.Machine.execNopCommand opcode tag s
  | .identify tag addr => Sys2Proof.Machine.execIdentify tag addr s
  | .loadWords tag arg0 len addr data => Sys2Proof.Machine.execLoadWords tag arg0 len addr data s
  | .readWords tag arg0 len addr => Sys2Proof.Machine.execReadWords tag arg0 len addr s
  | .loadBytes tag arg0 len addr data => Sys2Proof.Machine.execLoadBytes tag arg0 len addr data s
  | .readBytes tag arg0 len addr => Sys2Proof.Machine.execReadBytes tag arg0 len addr s
  | .commitCommand tag mask group wait => Sys2Proof.Machine.execCommitCommand tag mask group wait s
  | .commitWaitCompletion => Sys2Proof.Machine.execCommitWaitCompletion s
  | .groupMask tag arg0 arg1 group => Sys2Proof.Machine.execGroupMask tag arg0 arg1 group s
  | .abortGroup tag group => Sys2Proof.Machine.execAbortGroup tag group s
  | .modeSet tag mode family group => Sys2Proof.Machine.execModeSet tag mode family group s
  | .policyLoad tag len addr data => Sys2Proof.Machine.execPolicyLoad tag len addr data s
  | .flashProgram tag arg0 len addr data => Sys2Proof.Machine.execFlashProgram tag arg0 len addr data s
  | .flashErase tag arg0 len => Sys2Proof.Machine.execFlashErase tag arg0 len s
  | .resetCommand tag arg0 => Sys2Proof.Machine.execResetCommand tag arg0 s
  | .ainPeriodStart a => Sys2Proof.Machine.execAinPeriodStart a s
  | .ainDescriptorFetch a data => Sys2Proof.Machine.execAinDescriptorFetch a data s
  | .aoutPeriodEnd a desc => Sys2Proof.Machine.execAoutPeriodEnd a desc s
  | .moderationEnd r => Sys2Proof.Machine.execModerationEnd r s
  | .hostCtrlWrite v => Sys2Proof.Machine.execHostCtrlWrite v s
  | .irqAck => Sys2Proof.Machine.execIrqAck s
  | .cspRole v => Sys2Proof.Machine.execCspRole v s
  | .cspStart v => Sys2Proof.Machine.execCspStart v s
  | .mDone rx => Sys2Proof.Machine.execMDone rx s
  | .cspFifoPush v sent => Sys2Proof.Machine.execCspFifoPush v sent s
  | .cspFifoPop rx => Sys2Proof.Machine.execCspFifoPop rx s
  | .cspSelNAssert => Sys2Proof.Machine.execCspSelNAssert s
  | .cspSlaveWord v ready => Sys2Proof.Machine.execCspSlaveWord v ready s
  | .cspSelNRelease partialWord => Sys2Proof.Machine.execCspSelNRelease partialWord s
  | .bootStarted => Sys2Proof.Machine.execBootStarted s
  | .bootConfirm => Sys2Proof.Machine.execBootConfirm s
  | .startTimeout => Sys2Proof.Machine.execStartTimeout s
  | .bootSafeReq v => Sys2Proof.Machine.execBootSafeReq v s
  | .bootGo offset => Sys2Proof.Machine.execBootGo offset s
  | .bootLcReq v => Sys2Proof.Machine.execBootLcReq v s
  | .dbgReq key => Sys2Proof.Machine.execDbgReq key s
  | .progHash k => Sys2Proof.Machine.execProgHash k s
  | .revoke k => Sys2Proof.Machine.execRevoke k s
  | .programGranule master => Sys2Proof.Machine.execProgramGranule master s
  | .eraseBlock master => Sys2Proof.Machine.execEraseBlock master s
  | .flashOperationDone failed => Sys2Proof.Machine.execFlashOperationDone failed s
  | .policyEvaluation temps => Sys2Proof.Machine.execPolicyEvaluation temps s
  | .shadowRotate basin => Sys2Proof.Machine.execShadowRotate basin s
  | .shadowCopyEnd basin => Sys2Proof.Machine.execShadowCopyEnd basin s
  | .skipped => Sys2Proof.Machine.execSkipped s
  | .bistEnd basin activePass sparePass => Sys2Proof.Machine.execBistEnd basin activePass sparePass s
  | .laneShadow be check => Sys2Proof.Machine.execLaneShadow be check s
  | .bankMigrationStart b cause => Sys2Proof.Machine.execBankMigrationStart b cause s
  | .bankRemap b => Sys2Proof.Machine.execBankRemap b s
  | .farApply v => Sys2Proof.Machine.execFarApply v s
  | .tetherHello => Sys2Proof.Machine.execTetherHello s
  | .tetherMessageReceive p m phase => Sys2Proof.Machine.execTetherMessageReceive p m phase s
  | .tethMsgTxWrite header v => Sys2Proof.Machine.execTethMsgTxWrite header v s
  | .tethMsgRxRead master => Sys2Proof.Machine.execTethMsgRxRead master s
  | .laneFail p lane => Sys2Proof.Machine.execLaneFail p lane s
  | .laneMessage p lane frame => Sys2Proof.Machine.execLaneMessage p lane frame s
  | .syncGo v => Sys2Proof.Machine.execSyncGo v s
  | .syncCommit => Sys2Proof.Machine.execSyncCommit s
  | .rejoin p => Sys2Proof.Machine.execRejoin p s
  | .powerOn io => Sys2Proof.Machine.execPowerOn io s
  | .resetN => Sys2Proof.Machine.execResetN s
  | .railFault => Sys2Proof.Machine.execRailFault s
  | .railDroop r => Sys2Proof.Machine.execRailDroop r s
  | .resetRelease => Sys2Proof.Machine.execResetRelease s
  | .stbyReq v => Sys2Proof.Machine.execStbyReq v s
  | .pwrOnFall => Sys2Proof.Machine.execPwrOnFall s
  | .wake edge timer => Sys2Proof.Machine.execWake edge timer s
  | .pwrRtcSecWrite v => Sys2Proof.Machine.execPwrRtcSecWrite v s
  | .gpioCfgWrite k v => Sys2Proof.Machine.execGpioCfgWrite k v s
  | .gpioSet k v => Sys2Proof.Machine.execGpioSet k v s
  | .gpioClr k v => Sys2Proof.Machine.execGpioClr k v s
  | .gpioEdge k level => Sys2Proof.Machine.execGpioEdge k level s
  | .tickSwitch v master => Sys2Proof.Machine.execTickSwitch v master s
  | .debugBridgeAccess word addr wr => Sys2Proof.Machine.execDebugBridgeAccess word addr wr s
  | .registerWrite master off size v => Sys2Proof.Machine.execRegisterWrite master off size v s
  | .mpllGateClose => Sys2Proof.Machine.execMpllGateClose s
  | .hostLinkUp speed width limits msixOn funcMask => Sys2Proof.Machine.execHostLinkUp speed width limits msixOn funcMask s
  | .tetherLinkUp p lanes => Sys2Proof.Machine.execTetherLinkUp p lanes s
  | .tamperRelease => Sys2Proof.Machine.execTamperRelease s
  | .lpiRx p on => Sys2Proof.Machine.execLpiRx p on s
  | .txFrameEnd p cycles => Sys2Proof.Machine.execTxFrameEnd p cycles s
  | .witnessExpiry => Sys2Proof.Machine.execWitnessExpiry s
  | .spareLaneRotate p => Sys2Proof.Machine.execSpareLaneRotate p s
  | .latchedWake => Sys2Proof.Machine.execLatchedWake s

end Sys2Proof.Machine
end

