-- ==== Sys2Proof/Machine/Memory.lean ====
section
/-! DEFINITION. The canonical form of the block's registers and addressed memories: the register file, the yard (R376 to R379), the
flash (R415), the tack room (R390), the ECC conditions of
both (R380) and the claims on pins and channels (R497). -/
namespace Sys2Proof.Machine

/-- The register file, the yard, the flash, the tack room, the ECC conditions and the claims are each in canonical form: addresses
strictly rising, and no entry equal to what an unlisted address reads as (a register's reset value; zero; 0xFF in the flash; zero; good;
unclaimed). -/
def Memory.wf (s : State) : Bool :=
  Cells.wf regReset s.regs && Cells.wf zeroAt s.yard && Cells.wf flashErased s.boot.flash && Cells.wf zeroAt s.boot.tack
    && Cells.wf zeroAt s.ecc && Cells.wf zeroAt s.boot.tackEcc && Cells.wf zeroAt s.claims

end Sys2Proof.Machine
end

