-- ==== Sys2Proof/WellFormed.lean ====
section
/-! DEFINITION. Which commands the block can be given: the checks that the operands' types leave over. A term that fails one stands
for nothing that the spec's command carries. -/
namespace Sys2Proof

/-- A sample interval lists each port's word once. -/
def SampleInput.wellFormed (x : SampleInput) : Bool :=
  decide (x.pdm.map Prod.fst).Nodup && decide (x.adc.map Prod.fst).Nodup &&
    decide (x.tether.map fun (w : Fin 2 × Fin 512 × BitVec 36) => (w.1, w.2.1)).Nodup && decide (x.bits.map Prod.fst).Nodup

/-- An inbound request moves at least one byte, and a write at most Max_Payload_Size, 256 bytes (Table 15-1). -/
def BarRequest.wellFormed : BarRequest → Bool
  | .read n => decide (0 < n)
  | .write data => decide (0 < data.length) && decide (data.length ≤ 256)

/-- A firmware message carries the body words that hold its header's LEN bytes, LEN above 252 acting as 252 (Table 20-6). -/
def TetherMsg.wellFormed : TetherMsg → Bool
  | .mark _ _ _ _ _ => true
  | .hello _ _ _ _ _ _ => true
  | .lane _ _ => true
  | .firmware header body => decide (body.length = (min 252 (header.extractLsb' 8 8).toNat + 3) / 4)

/-- A write of bytes to the yard's byte view moves at least one byte and ends inside the view (R377). -/
def bytesFit (o : Nat) (data : List Byte) : Bool := decide (0 < data.length) && decide (o + data.length ≤ 0x2000000)

/-- Well-formed commands. BEX (engine 8) takes no command of its own (R454). -/
def Instr.wellFormed : Instr → Bool
  | .sampleTick x => x.wellFormed
  | .yardByteWrite _ o data => bytesFit o.toNat data
  | .tackRoomAccess _ o size _ => decide (o.toNat + 2 ^ size.val ≤ 0x4000)
  | .tdmRxFrame _ slots _ => decide (slots.length ≤ 32)
  | .txDescriptor _ _ desc _ failed => failed || decide (desc.length = 32)
  | .rxFrame _ _ _ _ _ descs => descs.all fun d => decide (d.length = 32)
  | .timeCapCfgWrite cmp c _ => !cmp || decide (c.val < 2)
  | .barRequest _ _ req => req.wellFormed
  | .aoutPeriodEnd _ desc => decide (desc.length = 32)
  | .policyEvaluation temps => decide (temps.length = 4)
  | .tetherMessageReceive _ m _ => m.wellFormed
  | .rillNop _ x => rillOpIdle x.op
  | .snop be x => decide (be.val ≠ 8) && sOpIdle x.op
  | .mnop be x => decide (be.val ≠ 8) && mOpIdle x.op
  | .vnop be x => decide (be.val ≠ 8) && vOpIdle x.op
  | .hostLinkUp speed width _ _ _ => decide (speed ≠ 0#2) && decide (width = 1#2 ∨ width = 2#2)
  | .basinMov be _ _ | .basinAdd be _ _ | .basinSub be _ _ | .addi be _ _ | .ldi be _ _ | .ldih be _ _ | .basinAnd be _ _
  | .basinOr be _ _ | .basinXor be _ _ | .andi be _ _ | .basinShl be _ _ | .basinShr be _ _ | .sra be _ _ | .adds be _ _ | .subs be _ _
  | .basinMin be _ _ | .basinMax be _ _ | .mulf be _ _ | .muli be _ _ | .cls be _ _ | .basinCmpeq be _ _ | .basinCmplt be _ _
  | .cmpltu be _ _ | .basinCmple be _ _ | .cmpeqi be _ _ | .cmplti be _ _ | .basinPlog be _ _ | .mfc be _ _ | .mtc be _ _ | .mset be _ _
  | .mget be _ _ | .br be _ _ | .brl be _ _ | .brr be _ _ | .brt be _ _ | .trap be _ | .rfe be _ | .lds be _ _ | .sts be _ _
  | .ldv be _ _ | .stv be _ _ | .ldbc be _ _ | .ld2v be _ _ _ | .st2v be _ _ _ | .lsv be _ _ _ | .ld2s be _ _ _ | .ldbv be _ _
  | .stbv be _ _ | .ldb8 be _ _ | .stb8 be _ _ | .vmov be _ _ | .vadd be _ _ | .vsub be _ _ | .vcadd be _ _ | .vcsub be _ _
  | .vconj be _ _ | .vneg be _ _ | .vmax be _ _ | .vmin be _ _ | .vsel be _ _ | .vperm be _ _ | .vbcast be _ _ | .vext be _ _
  | .vcmplt be _ _ | .vcmple be _ _ | .vscale be _ _ | .vnorm be _ _ | .vabs2 be _ _ | .vrcp be _ _ | .vmac be _ _ | .vcmac be _ _
  | .vcmacj be _ _ | .vtapm be _ _ | .vmulr be _ _ | .vcmulr be _ _ | .vcmuljr be _ _ | .vsta be _ _ | .vstax be _ _ | .vlda be _ _
  | .vldax be _ _ | .vaclr be _ _ | .vnlmsu be _ _ | .vtw be _ _ | .vbf4 be _ _ => decide (be.val ≠ 8)
  | .frameTick _ | .deadlinePoint | .copyBackComplete _ | .kernelDispatch _ | .kernelStop _ | .entryComplete _ _ _
  | .dmaDescriptorDone _ _ | .interruptEntry _ | .ccWait _ | .ccCacheInv _ | .cacheInvalidationEnd | .peakClr _ | .commit _ _
  | .slAbort _ | .modeChangeStart | .switchTick _ | .acquisitionSwitch _ | .outputRampUpStart | .modeComplete | .groupTimeout
  | .firstModeEntry _ | .weirStep _ | .fadeEnd _ | .rillMov _ _ | .rillAdd _ _ | .rillSub _ _ | .rillNeg _ _
  | .rillAbs _ _ | .rillMin _ _ | .rillMax _ _ | .rillAnd _ _ | .rillOr _ _ | .rillXor _ _ | .rillShl _ _ | .rillShr _ _ | .rillSel _ _
  | .rillCadd _ _ | .rillCsub _ _ | .rillConj _ _ | .rillCpack _ _ | .rillMova _ _ | .rillMovax _ _ | .rillLut _ _ | .rillCmpeq _ _
  | .rillCmplt _ _ | .rillCmple _ _ | .rillPlog _ _ | .rillLdc _ _ | .rillStc _ _ | .rillStcx _ _ | .rillLdw _ _ | .rillStw _ _
  | .rillStwx _ _ | .rillAclr _ _ | .rillLda _ _ | .rillLdax _ _ | .rillAdda _ _ | .rillAddaC _ _ | .rillAddax _ _ | .rillAddaxC _ _
  | .macr _ _ _ _ _ _ | .mack _ _ _ _ _ _ | .macc _ _ _ _ _ _ | .macw _ _ _ _ _ _ | .tapm _ _ _ _ _ | .programStoreWrite _ _ _ _
  | .codeStoreWrite _ _ _ _ | .engineWindowWrite _ _ _ | .yardWordAccess _ _ _ | .correctedWordWriteBack _ | .scrubRow _ | .wlock _
  | .tamper | .tackWipeEnd | .defaultTargetAccess _ _ _ _ | .memBankOwnerWrite _ _ _ | .handoverComplete _ | .wakeClearEnd
  | .pdmClkEnWrite _ | .pdmSettleEnd _ | .pdmStuck _ | .pgaStep _ | .biasShort _ | .tdmCtrlWrite _ _ | .tdmFrameWrite _ _ | .tdmFsEdge _
  | .clkLost _ | .dllLock _ _ | .asrcLock _ _ | .asrcUnlock _ | .mpllConfigWrite _ _ | .mpllLock _ | .mpllOver | .mpllTimeout
  | .holdover _ | .resumed | .mncoAdjWrite _ | .adjSlewStep | .mncoFwHiWrite _ | .clockFault | .clkoutCtrlWrite _ | .ethCtrlWrite _ _
  | .ethMdioCmdWrite _ _ | .mdioComplete _ _ | .linkChange _ _ _ _ | .txFrameStart _ _ _ _ | .collision _ _ | .backoffEnd _
  | .ethFiltCWrite _ _ _ | .txtsPop _ | .lpiEntry _ | .downshift _ | .downshiftReturn _ | .t1sAudioCycle | .t1sUplinkFrame | .timeLoad
  | .timeAdd | .timeCapture _ _ | .timeCompare _ _ | .comparePulseEnd _ | .stxCtrlWrite _ _ _ _ | .streamTxPacket _ | .streamRxPacket
  | .streamLoss _ | .hostLinkDown _ | .doorbell _ _ _ _ | .ringCfgWrite _ _ | .ringStopped _ | .hostReadError _ _ | .nopCommand _ _
  | .identify _ _ | .loadWords _ _ _ _ _ | .readWords _ _ _ _ | .loadBytes _ _ _ _ _ | .readBytes _ _ _ _ | .commitCommand _ _ _ _
  | .commitWaitCompletion | .groupMask _ _ _ _ | .abortGroup _ _ | .modeSet _ _ _ _ | .policyLoad _ _ _ _ | .flashProgram _ _ _ _ _
  | .flashErase _ _ _ | .resetCommand _ _ | .ainPeriodStart _ | .ainDescriptorFetch _ _ | .moderationEnd _ | .hostCtrlWrite _ | .irqAck
  | .cspRole _ | .cspStart _ | .mDone _ | .cspFifoPush _ _ | .cspFifoPop _ | .cspSelNAssert | .cspSlaveWord _ _ | .cspSelNRelease _
  | .bootStarted | .bootConfirm | .startTimeout | .bootSafeReq _ | .bootGo _ | .bootLcReq _ | .dbgReq _ | .progHash _ | .revoke _
  | .programGranule _ | .eraseBlock _ | .flashOperationDone _ | .shadowRotate _ | .shadowCopyEnd _ | .skipped | .bistEnd _ _ _
  | .laneShadow _ _ | .bankMigrationStart _ _ | .bankRemap _ | .farApply _ | .tetherHello | .tethMsgTxWrite _ _ | .tethMsgRxRead _
  | .laneFail _ _ | .laneMessage _ _ _ | .syncGo _ | .syncCommit | .rejoin _ | .powerOn _ | .resetN | .railFault | .railDroop _
  | .resetRelease | .stbyReq _ | .pwrOnFall | .wake _ _ | .pwrRtcSecWrite _ | .gpioCfgWrite _ _ | .gpioSet _ _ | .gpioClr _ _
  | .gpioEdge _ _ | .tickSwitch _ _ | .debugBridgeAccess _ _ _ | .registerWrite _ _ _ _ | .mpllGateClose | .tetherLinkUp _ _
  | .tamperRelease | .lpiRx _ _ | .txFrameEnd _ _ | .witnessExpiry | .spareLaneRotate _ | .latchedWake => true

end Sys2Proof
end

