-- ==== Sys2Proof/Certificates/Slice0/Obligations.lean ====
section
/-! DEFINITION. The statements for the provers, one definition of a proposition each. Each says what commands of the block do, in the
terms of the spec's rules; the names of `Sys2Proof.Claims` say once what several statements share. -/

section

namespace Sys2Proof.Claims

open Sys2Proof Sys2Proof.Machine

/-- `c` completes on `s`, and the state it leaves has `P`. The next state is `u` after the aggregator's message, which R509 sends where a
host source became pending and which changes the host interface alone. -/
def Gives (c : Instr) (s : State) (P : State → Prop) : Prop := ∃ u, exec c s = .next (settle u) ∧ P u

/-- The register file is in canonical form, as every step keeps it. -/
def RegsWf (s : State) : Prop := Cells.wf regReset s.regs = true

/-- Every register but those listed reads the same. -/
def RegsSameBut (l : List Nat) (s u : State) : Prop := ∀ a, a ∉ l → u.reg a = s.reg a

end Sys2Proof.Claims

open Sys2Proof Sys2Proof.Machine Sys2Proof.Claims

/-- For every command c and every state s, a step of s with c put at the front of its queue is what c does on s itself, whose queue is the
rest; and a step never depends on the commands behind the front one in any other way. On an empty queue a step answers the same state.
This is the model's choice (DESIGN CHOICE, log entry 1): time-driven events are commands of the table, so nothing happens without one.
(95_what_each_step_holds.md) -/
def Obligations.StepRunsTheFrontCommand : Prop :=
  (∀ (c : Instr) (s : State) (rest : List Instr), step { s with pending := c :: rest } = exec c { s with pending := rest }) ∧
  (∀ s : State, s.pending = [] → step s = .next s)

/-- Every command answers a next state in every state, and the next state's queue is the queue the command found.
(95_what_each_step_holds.md) -/
def Obligations.NoCommandStopsTheBlock : Prop :=
  ∀ (c : Instr) (s : State), ∃ t, exec c s = .next t ∧ t.pending = s.pending

/-- In every state in which the register file, the yard, the flash, the tack room, the ECC conditions and the claims are in canonical form
(addresses strictly rising, no entry equal to what an unlisted address reads as), a step that answers a next state leaves them so.
(16_memory_and_crossbar.md; 18_boot_and_lifecycle.md; 22_address_map_registers.md) -/
def Obligations.MemoryStaysCanonical : Prop :=
  ∀ s t : State, Memory.wf s = true → step s = .next t → Memory.wf t = true

/-- What follows every command leaves every part of the machine but the host interface as it was. Where SYS_IRQ_PEND_HOST is zero, or was
not zero when last looked at, nothing is sent: host memory, the MSI-X table and its pending bits stay, and only the aggregator's own
record of the level is taken. (22_address_map_registers.md) -/
def Obligations.AggregatorMessageFrame : Prop :=
  ∀ s : State, (∃ h, settle s = { s with host := h }) ∧
    ((irqPendHost s = 0#32 ∨ s.host.aggHigh = true) →
      settle s = { s with host := { s.host with aggHigh := decide (irqPendHost s ≠ 0#32) } })


namespace Sys2Proof.Claims

open Sys2Proof Sys2Proof.Machine

/-- `c` changes nothing; the aggregator's message follows it as it follows every command. -/
def NoEffect (c : Instr) (s : State) : Prop := exec c s = .next (settle s)

/-- In canonical registers, `c` leaves the registers of `l` with the values given, every other register as it was, and every other part of
the machine as in `t`. -/
def Leaves (c : Instr) (s : State) (l : List (Nat × BitVec 32)) (t : State) : Prop :=
  RegsWf s → Gives c s fun u => (∀ p ∈ l, u.reg p.1 = p.2) ∧ RegsSameBut (l.map Prod.fst) s u ∧ u = { t with regs := u.regs }

/-- The register at `a` with flag bit `k` set. -/
def flagSet (s : State) (a k : Nat) : Nat × BitVec 32 := (a, s.reg a ||| BitVec.ofNat 32 (2 ^ k))

/-- The register at `a` with its field of `w` bits from bit `lo` at `v` modulo 2^w, its other bits as they were. -/
def fieldAt (s : State) (a lo w v : Nat) : Nat × BitVec 32 := (a, putField (s.reg a) lo w v)

/-- The counter field of `w` bits from bit `lo` of the register at `a`, counted on by one, modulo 2^w. -/
def countedAt (s : State) (a lo w : Nat) : Nat × BitVec 32 := fieldAt s a lo w (s.fld a lo w + 1)

/-- The interrupt register of pin `i` after the pin went from level `a` to level `b`: its bit is set where the pin's IRQ field selects that
edge. -/
def edgeAt (s : State) (i : Nat) (a b : Bool) : Nat × BitVec 32 :=
  (Reg.GPIO_IRQ (i / 32), s.reg (Reg.GPIO_IRQ (i / 32)) |||
    if a ≠ b ∧ s.bit (Reg.GPIO_CFG i) (if b then 8 else 9) = true then BitVec.ofNat 32 (2 ^ (i % 32)) else 0#32)

end Sys2Proof.Claims

/-- A change whose group was complete at its cutoff arms its mode, its acquisitions counted anew, unless the control core has armed one,
and starts the ramp to zero; after S and two further held frames, outside acquisition, the outputs ramp up; when the ramp is over the
sequence ends with MODE_BUSY clear. A change whose group is not complete when its second has passed ends, with MODE_BUSY clear where no
outputs are held and every set of its group, a group other than 0, uncommitted. Where outputs are held while a request waits, two held
frames ramp them up and leave the sequence alone. A keyed TICK_SWITCH of the control core for a running mode with no switch armed arms
that mode and family and no other part of the TICK block but the sequence, the ramp and the outputs' hold; before the first mode it leaves
the sequence waiting for acquisition, a request that waits for its cutoff takes the mode and family armed, otherwise the ramp to zero
starts, and in SAFE, which only a reset leaves, or during a request for STANDBY or SAFE, it leaves sequence and ramp alone. TICK_SWITCH by
any other master, without the key, or with a switch armed, sets MASTER_ERR and does nothing else. The writer's response is an error where
it is another master. The master of the write has no access that waits. (02_ticks_modes_budgets.md Mode changes;
22_address_map_registers.md TICK registers) -/
def Obligations.ModeChangeSteps : Prop :=
  ∀ (s : State) (v : BitVec 32) (m : Fin 18),
    let q := s.tick.seq
    let mode := v.extractLsb' 0 3
    let fam := v.getLsbD 4
    let keyed := v.extractLsb' 24 8 = 0xC5#8 ∧ isRunMode mode = true ∧ ¬ (mode = modeListen ∧ fam = true) ∧ s.tick.pending = false
    (q.phase = .ready → s.tick.pending = true → exec .modeChangeStart s = .next (settle { s with
      tick := { s.tick with seq := { q with phase := .rampDown }, ramp := .down, outHold := none } })) ∧
    (q.phase = .ready → s.tick.pending = false → exec .modeChangeStart s = .next (settle { s with
      clock := { s.clock with fails := 0 },
      tick := { s.tick with
        pending := true, pendMode := q.mode, pendFamily := q.family, seq := { q with phase := .rampDown }, ramp := .down, outHold := none } })) ∧
    (q.phase = .hold → 2 ≤ q.heldFrames → acquiring s = false → exec .outputRampUpStart s = .next (settle { s with tick := { s.tick with
      seq := { q with phase := .rampUp }, ramp := .up } })) ∧
    (q.phase = .accepted ∨ q.phase = .ready → ∀ n, s.tick.outHold = some n → 2 ≤ n → acquiring s = false →
      exec .outputRampUpStart s = .next (settle { s with tick := { s.tick with ramp := .up, outHold := none } })) ∧
    (acquiring s = true → NoEffect .outputRampUpStart s) ∧
    (q.phase = .rampUp → s.tick.gain = 256 → RegsWf s → Gives .modeComplete s fun u =>
      u.tick = { s.tick with seq := ModeSeq.none } ∧ u.bit Reg.SUP_STATE 15 = false) ∧
    (q.phase = .accepted → groupComplete s q.group = false → s.tick.outHold = none → RegsWf s → Gives .groupTimeout s fun u =>
      u.tick = { s.tick with seq := ModeSeq.none } ∧ u.bit Reg.SUP_STATE 15 = false ∧
      ∀ k : Fin 29, q.group ≠ 0#4 → abortHits s q.group k.val = true →
        setAt u k.val = { setAt s k.val with committed := false, deferred := false }) ∧
    (m = 1 → masterWaits s 1 = false → keyed → Gives (.tickSwitch v m) s fun u =>
      u.tick = { s.tick with
        pending := true, pendMode := mode, pendFamily := fam, seq := u.tick.seq, ramp := u.tick.ramp, outHold := u.tick.outHold } ∧
      (inSafe s = false → s.tick.entered = false → u.tick.seq.phase = .acquiring ∧ u.tick.ramp = s.tick.ramp) ∧
      (inSafe s = false → s.tick.entered = true → q.goal = .mode → q.phase ≠ .accepted →
        u.tick.seq.phase = .rampDown ∧ u.tick.ramp = .down ∧ u.tick.outHold = none) ∧
      (inSafe s = false → s.tick.entered = true → q.goal = .mode → q.phase = .accepted →
        u.tick.seq.phase = .accepted ∧ u.tick.seq.mode = mode ∧ u.tick.seq.family = fam ∧ u.tick.ramp = s.tick.ramp) ∧
      (inSafe s = true ∨ s.tick.entered = true ∧ q.goal ≠ .mode → u.tick.seq = q ∧ u.tick.ramp = s.tick.ramp) ∧
      RegsSameBut [Reg.SUP_STATE] s u ∧
      u = { s with tick := u.tick, regs := u.regs, clock := { s.clock with fails := 0 }, resp := vset s.resp 1 ⟨0#36, [], false⟩ }) ∧
    (masterWaits s m.val = false → m ≠ 1 ∨ ¬ keyed → Leaves (.tickSwitch v m) s [flagSet s Reg.SYS_STATUS 4]
      { s with resp := vset s.resp m.val ⟨0#36, [], decide (m ≠ 1)⟩ }) ∧
    (q.phase ≠ .ready → NoEffect .modeChangeStart s) ∧ (q.phase ≠ .hold → s.tick.outHold = none → NoEffect .outputRampUpStart s) ∧
    (q.phase ≠ .rampUp → NoEffect .modeComplete s) ∧ (q.phase ≠ .accepted → NoEffect .groupTimeout s)

/-- While ticks run, with no access that waits, no request for STANDBY or SAFE in progress and no switch of CORE waiting, a sample tick
adds one to the sample counter, the media counter and the address unit's count, takes one from the address unit's pointer, moves the
position in the frame on, or to 0 at the frame's end, where the frame tick is then due, and moves the output gain one step of its ramp;
the interval that opens has no word written yet. Nothing else of the TICK block changes. At a sample tick for which a switch of CORE
waits, CORE moves to UTIL, with the media PLL's gate closed and MUTE_N low. While no ticks run a sample tick does nothing. A due frame
tick that no STANDBY or SAFE waits for takes place once: it is no longer due, and in canonical registers TICK_STATUS.FRAME is set.
Likewise, a due switch tick with a switch armed brings the armed mode and family into force and disarms it; a due acquisition tick leaves
CORE on UTIL with MUTE_N low and the sequence waiting for acquisition. The first mode armed with CORE ready enters that mode at a boundary
whose position in the frame is 0; where nothing is armed, the mode that the supervisor named is (the model's choice, log entry 79). The
deadline marks every entry that has neither completed nor faulted, on every engine, as missed, and takes note of the media PLL's gate, by
which its frame tick decides. Where its condition does not hold, each changes nothing. (02_ticks_modes_budgets.md Ticks;
09_rill_bus_mix_fabric.md Rill bus; 02_ticks_modes_budgets.md Mode changes; 06_basin_engines.md Frames) -/
def Obligations.SampleAndFrameTicks : Prop :=
  (∀ (s : State) (x : SampleInput),
      let t := s.tick
      let last := decide (s.f ≤ t.j + 1)
      let gain := match t.ramp with
        | .steady => t.gain
        | .down => t.gain - 1
        | .up => min 256 (t.gain + 1)
      let ramp : RampDir := match t.ramp with
        | .steady => .steady
        | .down => if t.gain - 1 = 0 then .steady else .down
        | .up => if 255 ≤ t.gain then .steady else .up
      (ticksRun s = true → s.heldAcc = [] → t.seq.goal = .mode → s.bit Reg.CLK_STATUS 9 = false → Gives (.sampleTick x) s fun u =>
        u.tick = { t with sampleCnt := t.sampleCnt + 1#64, media := t.media + 1#64, boundaries := t.boundaries + 1, ptr := t.ptr - 1#48,
                          j := if last then 0 else t.j + 1, frameDue := last, gain := gain, ramp := ramp } ∧ u.bus.next = []) ∧
      (ticksRun s = true → s.heldAcc = [] → t.seq.goal = .mode → s.bit Reg.CLK_STATUS 9 = true → t.pending = false ∨ s.clock.fails < 2 → RegsWf s →
        Gives (.sampleTick x) s fun u => coreSrc u = 2 ∧ u.bit Reg.CLK_STATUS 9 = false ∧ gateOpen u = false ∧ u.ports.muteN = false) ∧
      (ticksRun s = false → NoEffect (.sampleTick x) s)) ∧
  (∀ (s : State) (c : BitVec 64), RegsWf s →
      let done := fun (u : State) => u.tick.frameDue = false ∧ u.bit Reg.TICK_STATUS 0 = true
      let inForce := fun (m : BitVec 3) (fam : Bool) (u : State) => u.tick.entered = true ∧ u.tick.mode = m ∧ u.tick.family = fam ∧
        u.tick.pending = false
      let ready := fun (m : BitVec 3) => s.tick.entered = false ∧ inSafe s = false ∧ s.power.phase = .running ∧
        (gateOpen s = true ∨ m = modeListen)
      let first := s.tick.pending = true ∧ ready s.tick.pendMode
      let unnamed := s.sup.named = none ∧ (s.boot.slot = none ∨ s.bit Reg.FAR_STATUS 10 = false)
      (frameReady s = true → stopDue s = false → Gives (.frameTick c) s done) ∧
      (frameReady s = true → stopDue s = false → frameKind s = .switch → s.tick.pending = true → Gives (.switchTick c) s fun u =>
        done u ∧ inForce s.tick.pendMode s.tick.pendFamily u) ∧
      (frameReady s = true → stopDue s = false → frameKind s = .acquire → Gives (.acquisitionSwitch c) s fun u =>
        done u ∧ coreSrc u = 2 ∧ u.ports.muteN = false ∧ u.tick.seq.phase = .acquiring) ∧
      (first → Gives (.firstModeEntry c) s fun u => done u ∧ inForce s.tick.pendMode s.tick.pendFamily u ∧ u.tick.j = 0) ∧
      (∀ m fam, s.sup.named = some (m, fam) → s.tick.pending = false → isRunMode m = true → ¬ (m = modeListen ∧ fam = true) → ready m →
        Gives (.firstModeEntry c) s fun u => done u ∧ inForce m fam u ∧ u.tick.j = 0) ∧
      (ticksRun s = true → s.tick.j + 1 = s.f → Gives .deadlinePoint s fun u =>
        (∀ n < 8, ∀ i ∈ uncompleted s n, entryStatus u n i = .missed) ∧ u.tick = { s.tick with gateSeen := some (gateOpen s) }) ∧
      (frameReady s = false → NoEffect (.frameTick c) s) ∧ (frameKind s ≠ .switch → NoEffect (.switchTick c) s) ∧
      (frameKind s ≠ .acquire → NoEffect (.acquisitionSwitch c) s) ∧ (¬ first → unnamed → NoEffect (.firstModeEntry c) s) ∧
      (ticksRun s = false ∨ s.tick.j + 1 ≠ s.f → NoEffect .deadlinePoint s))


namespace Sys2Proof.Claims

open Sys2Proof Sys2Proof.Machine

/-- The engine of role `re`. -/
def rillEng (s : State) (re : Fin 16) : RillEngine := vget s.rill re.val RillEngine.zero

/-- The engine of role `re` as the step in hand reads it: every result due by this step has landed (R76). -/
def rillSeen (s : State) (re : Fin 16) : RillEngine := (rillEng s re).landDue (rillEng s re).step

/-- The step in hand takes effect on role `re`: the engine issues it (R71), its two program-store words have no uncorrectable error
(R104), and its guard holds, P[G] XOR GN = 1 (R110). -/
def RillActs (s : State) (re : Fin 16) (f : RillFields) : Prop :=
  rillIssues s re.val (rillEng s re) = true ∧
  (∀ k < 2, s.mark (rillWin re.val + 0x20000 + 2 * (rillEng s re).stepIndex (rillEng s re).step + k) ≠ 2#2) ∧
  (rillPred (rillSeen s re) f.g.toNat != f.gn) = true

/-- The value of a source code at issue, outside the conversion opcodes (R112 to R114). -/
def rillIn (s : State) (re : Fin 16) (imm : Word) (k : BitVec 5) : SrcVal := rillSrc s.tick (rillSeen s re) imm k

/-- A step that takes effect leaves its engine as `e`, but for the noise LFSR, the guard-overflow mark of the frame and, one step
further, the results in flight, which are `fl`. -/
def RillLeaves (c : Instr) (s : State) (re : Fin 16) (f : RillFields) (e : RillEngine) (fl : List RillFlight) (Q : State → Prop) : Prop :=
  RillActs s re f → Gives c s fun u =>
    rillEng u re = { e with step := e.step + 1, flights := fl, lfsr := (rillEng u re).lfsr, govFrame := (rillEng u re).govFrame } ∧ Q u

/-- RILL_STATUS.SAT of role `re` stands. -/
def RillSat (re : Fin 16) (u : State) : Prop := u.bit (Reg.RILL_STATUS re.val) 1 = true

/-- The step's one effect on its engine is a word for DST, visible `lat` steps on: D0 to D15 receive it, and any other DST code discards
it (R115); a saturation sets SAT (R120). -/
def RillWord (c : Instr) (s : State) (re : Fin 16) (f : RillFields) (r : Word × Bool) (lat : Nat) : Prop :=
  let e := rillSeen s re
  RillLeaves c s re f e (e.flights ++ if f.dst.toNat < 16 then [⟨e.step + lat, .d f.dst.toNat r.1⟩] else [])
    fun u => RegsWf s → r.2 = true → RillSat re u

/-- The step's one effect on its engine is a predicate for DST: P1 to P7 receive it for the next step, and any other code, P0 among them,
discards it (R115, R120). -/
def RillBool (c : Instr) (s : State) (re : Fin 16) (f : RillFields) (b : Bool) : Prop :=
  let e := rillSeen s re
  RillLeaves c s re f e (e.flights ++ if 0 < f.dst.toNat ∧ f.dst.toNat < 8 then [⟨e.step + 1, .p f.dst.toNat b⟩] else []) fun _ => True

end Sys2Proof.Claims

namespace Sys2Proof.Claims

open Sys2Proof Sys2Proof.Machine

/-- The source SA of a conversion opcode (R113, R117): an accumulator read as A0 to A3 is stored under CV in the layout the opcode names;
any other source is taken as it is. -/
def rillCv (cplx : Bool) (s : State) (re : Fin 16) (imm : Word) (f : RillFields) : Word × Bool :=
  let e := rillSeen s re
  if 16 ≤ f.sa.toNat ∧ f.sa.toNat < 20 then
    let a := vget e.view (f.sa.toNat - 16) 0#80
    let r := if cplx then storeCplx a (f.sb.extractLsb' 0 3) (f.sb.extractLsb' 3 2) e.lfsr
      else storeReal a (f.sb.extractLsb' 0 3) (f.sb.extractLsb' 3 2) e.lfsr
    (r.w, r.sat)
  else ((rillIn s re imm f.sa).w, false)

/-- The line that the step names, its length 0 where its descriptor is uncorrectable (R80, Table 04-9). -/
def rillLineNow (s : State) (re : Fin 16) (f : RillFields) : Line :=
  (rillLine s re.val (rillSeen s re) (RillFx.none (rillSeen s re)) (rfLine f)).1

/-- The cistern address of tap `t` of the step's line (R81, R83). -/
def rillTapAddr (s : State) (re : Fin 16) (f : RillFields) (t : Nat) : Nat := lineAddr (rillLineNow s re f) s.tick.boundaries t

/-- The cistern word at LINE, TAP: zero on a line with LEN = 0 (R83), and as ECC gives it. -/
def rillTapWord (s : State) (re : Fin 16) (f : RillFields) : Word :=
  if (rillLineNow s re f).len = 0 then 0#36
  else let a := rillTapAddr s re f (rfTap f)
    eccWord (s.mark (rillWin re.val + a)) (Cells.get (rillSeen s re).cistern a)

/-- The window word WIN: an input position through the gather list, zero where the entry is disabled or uncorrectable (R94), or an output
word as the program left it (R95). -/
def rillWinWord (s : State) (re : Fin 16) (f : RillFields) : Word :=
  let e := rillSeen s re
  if rfWin f < 256 then
    let g := rillStaged s re.val e (0x5100 + rfWin f)
    if g.2 = 2#2 ∨ g.1.getLsbD 35 = false then 0#36 else stallRead s (g.1.extractLsb' 0 11).toNat
  else Cells.get e.outw (rfWin f - 256)

/-- The coefficient that the step names, from the copy in force (R86), zero where it is uncorrectable. -/
def rillK (s : State) (re : Fin 16) (f : RillFields) : Word := (rillStaged s re.val (rillSeen s re) (rfCoef f)).1

/-- RILL_STATUS.LINE_ERR of role `re` stands. -/
def RillLineErr (re : Fin 16) (u : State) : Prop := u.bit (Reg.RILL_STATUS re.val) 2 = true

/-- RILL_STATUS.GOV of role `re` stands. -/
def RillGov (re : Fin 16) (u : State) : Prop := u.bit (Reg.RILL_STATUS re.val) 0 = true

/-- The step's effect on its accumulator, with a store to the cistern beside it: A0 to A3 take the new value for the next accumulating
step, a source reads it three steps on (R76), and a guard overflow sets GOV (R56). Any other DST is neither read nor written (R115). -/
def RillSum (c : Instr) (s : State) (re : Fin 16) (f : RillFields) (cist : Cells Word) (op : AccReg → AccReg × Bool) : Prop :=
  let e := rillSeen s re
  let i := f.dst.toNat - 16
  let r := op (vget e.acc i (accZero 0))
  if 16 ≤ f.dst.toNat ∧ f.dst.toNat < 20 then
    RillLeaves c s re f { e with acc := vset e.acc i r.1, cistern := cist } (e.flights ++ [⟨e.step + 3, .view i r.1.val⟩])
      fun u => RegsWf s → r.2 = true → RillGov re u
  else RillLeaves c s re f { e with cistern := cist } e.flights fun _ => True

/-- One multiply-accumulate of Table 05-7: CX complex or real, Z starts a sum, NJ negates or conjugates, AM clamps. -/
def macOf (cx z nj am : Bool) (a b : Word) (r : AccReg) : AccReg × Bool :=
  if cx then accCplx z am r (prodCplx nj a b).1 (prodCplx nj a b).2
  else accReal z am r ((if nj then -1 else 1) * prodReal a b)

end Sys2Proof.Claims

/-- A rill MOV, ADD, SUB, NEG, ABS, MIN, MAX, AND, OR, XOR, SHL, SHR, SEL, CADD, CSUB, CONJ or CPACK that takes effect puts the word of
Table 05-5 in flight for D0 to D15, visible one step on, and discards it for any other DST. It changes nothing else of its engine than the
step count and the noise LFSR (the results due by then landed first). A saturation of its result, in canonical registers, leaves
RILL_STATUS.SAT set. A rill MOVA or MOVAX that takes effect writes the store of the accumulator that SA names, under CV and in the real or
the complex layout, one step on, sets SAT where that store saturates, and acts as MOV on any other source; LUT writes, three steps on, the
table word at the index plus the fraction of the way to the next entry (the last entry is its own next), rounded half even; DST and the
rest of the engine are as for the other word results. A rill CMPEQ, CMPLT, CMPLE or PLOG that takes effect puts its truth value in flight
for P1 to P7, for the next step, and discards it for any other DST; a PLOG source code of 8 to 31 reads 0. They and NOP, whatever opcode
it carries (an unassigned one acts as NOP), change nothing else of their engine than the step count (the results due by then landed first)
and the noise LFSR. (05_rill_instructions.md Table 05-5; 04_rill_engines.md Exposed latencies; 05_rill_instructions.md Tables 05-2, 05-5;
04_rill_engines.md Lookup tables) -/
def Obligations.RillResults : Prop :=
  (∀ (s : State) (re : Fin 16) (f : RillFields),
      let a := (rillIn s re (rfImm f) f.sa).w
      let b := (rillIn s re (rfImm f) f.sb).w
      let n := min (b.toNat % 64) 36
      let m := min n 32
      let l := (rillSeen s re).lfsr
      RillWord (.rillMov re f) s re f (a, false) 1 ∧
      RillWord (.rillAdd re f) s re f (satWord (a.toInt + b.toInt)) 1 ∧
      RillWord (.rillSub re f) s re f (satWord (a.toInt - b.toInt)) 1 ∧
      RillWord (.rillNeg re f) s re f (satWord (-a.toInt)) 1 ∧
      RillWord (.rillAbs re f) s re f (satWord a.toInt.natAbs) 1 ∧
      RillWord (.rillMin re f) s re f (BitVec.ofInt 36 (min a.toInt b.toInt), false) 1 ∧
      RillWord (.rillMax re f) s re f (BitVec.ofInt 36 (max a.toInt b.toInt), false) 1 ∧
      RillWord (.rillAnd re f) s re f (a &&& b, false) 1 ∧
      RillWord (.rillOr re f) s re f (a ||| b, false) 1 ∧
      RillWord (.rillXor re f) s re f (a ^^^ b, false) 1 ∧
      RillWord (.rillShl re f) s re f (satWord (a.toInt * 2 ^ n)) 1 ∧
      RillWord (.rillShr re f) s re f (BitVec.ofInt 36 (roundRS (rfRs f) a.toInt n ((l.toNat / 2 ^ (32 - m)) * 2 ^ (n - m))), false) 1 ∧
      RillWord (.rillSel re f) s re f ((if rillPred (rillSeen s re) (f.m.extractLsb' 0 3).toNat then (rillIn s re 0#36 f.sa).w
        else (rillIn s re 0#36 f.sb).w), false) 1 ∧
      RillWord (.rillCadd re f) s re f (satHalves (fun x y => x + y) a b) 1 ∧
      RillWord (.rillCsub re f) s re f (satHalves (fun x y => x - y) a b) 1 ∧
      RillWord (.rillConj re f) s re f (Word.ofHalves a.re (satHalves (fun x _ => -x) a a).1.im, decide (a.im.toInt = -(2 ^ 17))) 1 ∧
      RillWord (.rillCpack re f) s re f (Word.ofHalves a.re b.re, false) 1) ∧
  (∀ (s : State) (re : Fin 16) (f : RillFields),
      RillWord (.rillMova re f) s re f (rillCv false s re (rfImm f) f) 1 ∧
      RillWord (.rillMovax re f) s re f (rillCv true s re (rfImm f) f) 1 ∧
      (let e := rillSeen s re
       let q := (f.m.extractLsb' 0 2).toNat
       let x := (rillIn s re 0#36 f.sa).w
       let i := if e.lutA.getLsbD q then (if x.toInt < 0 then 0 else x.toNat / 2 ^ 25) else (x.toNat / 2 ^ 26 + 512) % 1024
       let n := if e.lutA.getLsbD q then 25 else 26
       let frac : Nat := if e.lutA.getLsbD q = true ∧ x.toInt < 0 then 0 else x.toNat % 2 ^ n
       let tab := fun (k : Nat) => (rillStaged s re.val e (0x4000 + q * 1024 + k)).1.toInt
       RillWord (.rillLut re f) s re f
         (BitVec.ofInt 36 (roundHalfEven (tab i * 2 ^ n + (tab (min (i + 1) 1023) - tab i) * frac) n), false) 3)) ∧
  (∀ (s : State) (re : Fin 16) (f : RillFields) (op7 : BitVec 7),
      let a := (rillIn s re (rfImm f) f.sa).w
      let b := (rillIn s re (rfImm f) f.sb).w
      let p := f.sa.toNat < 8 ∧ rillPred (rillSeen s re) f.sa.toNat = true
      let q := f.sb.toNat < 8 ∧ rillPred (rillSeen s re) f.sb.toNat = true
      let op := f.m.extractLsb' 0 2
      RillBool (.rillCmpeq re f) s re f (decide (a = b)) ∧
      RillBool (.rillCmplt re f) s re f (decide (a.toInt < b.toInt)) ∧
      RillBool (.rillCmple re f) s re f (decide (a.toInt ≤ b.toInt)) ∧
      RillBool (.rillPlog re f) s re f (decide ((op = 0#2 ∧ p ∧ q) ∨ (op = 1#2 ∧ (p ∨ q)) ∨ (op = 2#2 ∧ ¬(p ↔ q)) ∨ (op = 3#2 ∧ p ∧ ¬q))) ∧
      RillLeaves (.rillNop re ⟨op7, f⟩) s re f (rillSeen s re) (rillSeen s re).flights fun _ => True)

/-- An LDC or LDW that takes effect puts the cistern word or the window word in flight for D0 to D15, two steps on. An STC or STCX writes
the source, taken at issue, to the addressed cistern word and to no other; on a line with LEN = 0 nothing is written. An STW or STWX
writes output word WIN - 256 alone, and nothing for WIN below 256. A line with LEN = 0 leaves LINE_ERR set and a saturating store leaves
SAT set, in canonical registers. (05_rill_instructions.md Table 05-6; 04_rill_engines.md Cistern lines) -/
def Obligations.RillLoadsAndStores : Prop :=
  ∀ (s : State) (re : Fin 16) (f : RillFields),
    let e := rillSeen s re
    let stored := fun (cplx : Bool) => if (rillLineNow s re f).len = 0 then e.cistern
      else Cells.set e.cistern (rillTapAddr s re f (rfTap f)) (rillCv cplx s re 0#36 f).1
    let put := fun (cplx : Bool) => if rfWin f < 256 then e.outw else Cells.set e.outw (rfWin f - 256) (rillCv cplx s re 0#36 f).1
    let flags := fun (cplx : Bool) (u : State) => RegsWf s →
      ((rillLineNow s re f).len = 0 → RillLineErr re u) ∧ ((rillCv cplx s re 0#36 f).2 = true → RillSat re u)
    RillLeaves (.rillLdc re f) s re f e (e.flights ++ if f.dst.toNat < 16 then [⟨e.step + 2, .d f.dst.toNat (rillTapWord s re f)⟩] else [])
      (fun u => RegsWf s → (rillLineNow s re f).len = 0 → RillLineErr re u) ∧
    RillWord (.rillLdw re f) s re f (rillWinWord s re f, false) 2 ∧
    RillLeaves (.rillStc re f) s re f { e with cistern := stored false } e.flights (flags false) ∧
    RillLeaves (.rillStcx re f) s re f { e with cistern := stored true } e.flights (flags true) ∧
    RillLeaves (.rillStw re f) s re f { e with outw := put false } e.flights
      (fun u => RegsWf s → 256 ≤ rfWin f → (rillCv false s re 0#36 f).2 = true → RillSat re u) ∧
    RillLeaves (.rillStwx re f) s re f { e with outw := put true } e.flights
      (fun u => RegsWf s → 256 ≤ rfWin f → (rillCv true s re 0#36 f).2 = true → RillSat re u)

/-- ACLR, LDA and LDAX start a sum at zero, at the source in the real layout, or at its two halves in the complex layout; ADDA and ADDAX,
in wrap or clamp mode, add the source. The accumulator shows the result to the next accumulating step at once and to a source read three
steps on; a guard overflow leaves GOV set; a DST outside A0 to A3 changes no accumulator; nothing else of the engine changes but its step
count and LFSR. (05_rill_instructions.md Table 05-6; 03_number_formats.md Accumulation) -/
def Obligations.RillAccumulatorSetAndAdd : Prop :=
  ∀ (s : State) (re : Fin 16) (f : RillFields),
    let a := (rillIn s re 0#36 f.sa).w
    let k := (rillSeen s re).cistern
    let real := fun (start clamp : Bool) (r : AccReg) => accReal start clamp r (a.toInt * 2 ^ 36)
    let cplx := fun (start clamp : Bool) (r : AccReg) => accCplx start clamp r (a.re.toInt * 2 ^ 18) (a.im.toInt * 2 ^ 18)
    RillSum (.rillAclr re f) s re f k (fun _ => (⟨0#80, false, false⟩, false)) ∧
    RillSum (.rillLda re f) s re f k (real true false) ∧
    RillSum (.rillLdax re f) s re f k (cplx true false) ∧
    RillSum (.rillAdda re f) s re f k (real false false) ∧
    RillSum (.rillAddaC re f) s re f k (real false true) ∧
    RillSum (.rillAddax re f) s re f k (cplx false false) ∧
    RillSum (.rillAddaxC re f) s re f k (cplx false true)

/-- A MACR, MACK, MACC, MACW or TAPM that takes effect adds the product of its two operands to A0 to A3 as CX, Z, N/J and AM say, with the
accumulator's latencies and GOV. On a linear line TAPM also writes the word it read to tap TAP + 1, unless TAP + 1 reaches LEN; on a
circular line, and in every MAC, the cistern does not change. Nothing else of the engine changes but its step count and LFSR.
(05_rill_instructions.md Table 05-7; 03_number_formats.md Table 03-2; 04_rill_engines.md Cistern lines) -/
def Obligations.RillMultiplyAccumulate : Prop :=
  ∀ (s : State) (re : Fin 16) (f : RillFields) (cx z nj am : Bool),
    let e := rillSeen s re
    let a := (rillIn s re 0#36 f.sa).w
    let b := (rillIn s re 0#36 f.sb).w
    let d := rillLineNow s re f
    RillSum (.macr re f cx z nj am) s re f e.cistern (macOf cx z nj am a b) ∧
    RillSum (.mack re f cx z nj am) s re f e.cistern (macOf cx z nj am a (rillK s re f)) ∧
    RillSum (.macc re f cx z nj am) s re f e.cistern (macOf cx z nj am (rillTapWord s re f) (rillK s re f)) ∧
    RillSum (.macw re f cx z nj am) s re f e.cistern (macOf cx z nj am (rillWinWord s re f) (rillK s re f)) ∧
    RillSum (.tapm re f z nj am) s re f
      (if d.lin = true ∧ rfTap f + 1 < d.len then Cells.set e.cistern (rillTapAddr s re f (rfTap f + 1)) (rillTapWord s re f) else e.cistern)
      (macOf false z nj am (rillTapWord s re f) (rillK s re f))

namespace Sys2Proof.Claims

open Sys2Proof Sys2Proof.Machine

/-- The rill engine that a rill step command is for. -/
def rillStepOf : Instr → Option (Fin 16)
  | .rillNop re _ | .rillMov re _ | .rillAdd re _ | .rillSub re _ | .rillNeg re _ | .rillAbs re _ | .rillMin re _ | .rillMax re _
  | .rillAnd re _ | .rillOr re _ | .rillXor re _ | .rillShl re _ | .rillShr re _ | .rillSel re _ | .rillCadd re _ | .rillCsub re _
  | .rillConj re _ | .rillCpack re _ | .rillMova re _ | .rillMovax re _ | .rillLut re _ | .rillCmpeq re _ | .rillCmplt re _
  | .rillCmple re _ | .rillPlog re _ | .rillLdc re _ | .rillStc re _ | .rillStcx re _ | .rillLdw re _ | .rillStw re _ | .rillStwx re _
  | .rillAclr re _ | .rillLda re _ | .rillLdax re _ | .rillAdda re _ | .rillAddaC re _ | .rillAddax re _ | .rillAddaxC re _
  | .macr re _ _ _ _ _ | .mack re _ _ _ _ _ | .macc re _ _ _ _ _ | .macw re _ _ _ _ _ | .tapm re _ _ _ _ => some re
  | _ => none

/-- The fields of a rill step command. -/
def rillFieldsOf : Instr → Option RillFields
  | .rillNop _ ⟨_, f⟩ | .rillMov _ f | .rillAdd _ f | .rillSub _ f | .rillNeg _ f | .rillAbs _ f | .rillMin _ f | .rillMax _ f
  | .rillAnd _ f | .rillOr _ f | .rillXor _ f | .rillShl _ f | .rillShr _ f | .rillSel _ f | .rillCadd _ f | .rillCsub _ f
  | .rillConj _ f | .rillCpack _ f | .rillMova _ f | .rillMovax _ f | .rillLut _ f | .rillCmpeq _ f | .rillCmplt _ f
  | .rillCmple _ f | .rillPlog _ f | .rillLdc _ f | .rillStc _ f | .rillStcx _ f | .rillLdw _ f | .rillStw _ f | .rillStwx _ f
  | .rillAclr _ f | .rillLda _ f | .rillLdax _ f | .rillAdda _ f | .rillAddaC _ f | .rillAddax _ f | .rillAddaxC _ f
  | .macr _ f _ _ _ _ | .mack _ f _ _ _ _ | .macc _ f _ _ _ _ | .macw _ f _ _ _ _ | .tapm _ f _ _ _ => some f
  | _ => none

/-- The registers in which a rill engine records what a step raised. -/
def rillStatusRegs (re : Nat) : List Nat := [Reg.RILL_STATUS re, Reg.RILL_ECC re, Reg.RILL_ERRADDR re]

end Sys2Proof.Claims

/-- Whatever rill step runs, and whether it takes effect or not, every other rill engine (REX too, unless it shadows this role), every
register but the engine's status, ECC count and ECC address (and REX's, while it runs in step), every word of the yard, the ECC condition
of every word outside the engine's cistern (and REX's, while it shadows), and every other part of the machine stay as they were. While REX
runs in step with role re with the same engine state and the same ECC conditions in its window, a MACC, a TAPM, an STC or an ADD issued on
the role leaves REX's engine state equal to the role's. (05_rill_instructions.md; 04_rill_engines.md; 19_supervisor_and_farrier.md) -/
def Obligations.RillStepFrameAndLockstep : Prop :=
  (∀ (c : Instr) (s t : State) (re : Fin 16), rillStepOf c = some re → exec c s = .next t →
      ∃ u, t = settle u ∧ u = { s with rill := u.rill, regs := u.regs, ecc := u.ecc } ∧
        (∀ k, k ≠ re.val → (k = 16 → rexShadows s re.val = false) → vget u.rill k RillEngine.zero = vget s.rill k RillEngine.zero) ∧
        RegsSameBut (rillStatusRegs re.val ++ if rexFollows s re.val then rillStatusRegs 16 else []) s u ∧
        (∀ a, ¬(rillWin re.val ≤ a ∧ a < rillWin re.val + 0x20000) →
          ¬(rexShadows s re.val = true ∧ rillWin 16 ≤ a ∧ a < rillWin 16 + 0x20000) → Cells.get u.ecc a = Cells.get s.ecc a)) ∧
  (∀ (s t : State) (re : Fin 16) (f : RillFields) (cx z nj am : Bool) (c : Instr),
      c ∈ [Instr.macc re f cx z nj am, Instr.tapm re f z nj am, Instr.rillStc re f, Instr.rillAdd re f] →
      rexFollows s re.val = true → rillIssues s re.val (rillEng s re) = true →
      vget s.rill 16 RillEngine.zero = rillEng s re → (∀ o, s.mark (rillWin 16 + o) = s.mark (rillWin re.val + o)) →
      exec c s = .next t → vget t.rill 16 RillEngine.zero = rillEng t re)

/-- When role re issues a step whose guard predicate is false, with no ECC mark on its step word, the results due land and the step count
moves on, and nothing else of the machine changes: no register, accumulator, predicate, cistern word, window word, status bit or LFSR,
whatever the step is, TAPM's data move too. Where REX runs in step with the role, in the same state, the same happens in REX. (R75) -/
def Obligations.RillGuardFalseHasNoEffect : Prop :=
  ∀ (c : Instr) (s : State) (re : Fin 16) (f : RillFields), rillStepOf c = some re → rillFieldsOf c = some f →
    let idx := (rillEng s re).stepIndex (rillEng s re).step
    let e := { rillSeen s re with step := (rillSeen s re).step + 1 }
    let r := vset s.rill re.val e
    rillIssues s re.val (rillEng s re) = true →
    (∀ k < 2, s.mark (rillWin re.val + 0x20000 + 2 * idx + k) = 0#2) →
    (rexFollows s re.val = true → vget s.rill 16 RillEngine.zero = rillEng s re ∧ ∀ k < 2, s.mark (rillWin 16 + 0x20000 + 2 * idx + k) = 0#2) →
    rillPred (rillSeen s re) f.g.toNat = f.gn →
    Gives c s fun u => u = { s with rill := if rexFollows s re.val then vset r 16 e else r }


namespace Sys2Proof.Claims

open Sys2Proof Sys2Proof.Machine

/-- The slot command for core `be` issues now, in the state `s1` after its bundle's fetch: the core issues bundles, the fetch succeeds with
no reserved header bit set (R161), no reset is pending, and no shadow follows. -/
def SlotIssues (s : State) (be : Fin 10) (h : SlotHead) (s1 : State) : Prop :=
  be ≠ 8 ∧ bexFollows s be.val = false ∧ coreIssues s be.val = true ∧
    bundleStart s be.val h.atomic h.rsv = (.go, s1) ∧ s1.power.phase ≠ .held

/-- The slot's guard holds (R162). -/
def SlotHolds (be : Fin 10) (h : SlotHead) (s1 : State) : Prop := (predRead (coreOf s1 be.val) h.g.toNat != h.gn) = true

/-- Where a slot command issues and its guard holds, it completes, and leaves `v` of the state after the fetch, at the next bundle if it was
the bundle's last slot. -/
def SlotGives (c : Instr) (s : State) (be : Fin 10) (h : SlotHead) (v : State → State) : Prop :=
  ∀ s1, SlotIssues s be h s1 → SlotHolds be h s1 → exec c s = .next (settle (slotNext be.val h (v s1)))

/-- Results put in flight by the slot of rank `rank` (S 0, M 1, V 2), each with its latency. -/
def flyAll (rank : Nat) (l : List (Nat × BasinTarget)) (e : BasinEngine) : BasinEngine := l.foldl (fun t x => t.fly rank x.1 x.2) e

/-- A slot's effect on its core: results in flight, SAT and GOV raised in BASIN_STATUS; the control core has neither flag (R150, R169). -/
def slotFx (n : Nat) (e : BasinEngine) (sat gov : Bool) (s1 : State) : State :=
  let t := putCore s1 n { e with govFrame := e.govFrame || (gov && decide (n ≠ 9)) }
  if n = 9 then t else (t.raiseIf gov (Reg.BASIN_STATUS n) 1#32).raiseIf sat (Reg.BASIN_STATUS n) 2#32

/-- An S-slot result: a word for S register D after `lat` bundles. -/
def SWord (c : Instr) (s : State) (be : Fin 10) (h : SlotHead) (d : BitVec 5) (lat : Nat) (op : BasinEngine → Word × Bool) : Prop :=
  SlotGives c s be h fun s1 => let e := coreOf s1 be.val
    slotFx be.val (e.fly 0 lat (.s d.toNat (op e).1)) (op e).2 false s1

/-- An S-slot result for the predicate named by D[3:0], read by the next bundle. -/
def SBool (c : Instr) (s : State) (be : Fin 10) (h : SlotHead) (d : BitVec 5) (op : BasinEngine → Bool) : Prop :=
  SlotGives c s be h fun s1 => let e := coreOf s1 be.val
    slotFx be.val (e.fly 0 1 (.p (predPhys e (d.toNat % 16)) (op e))) false false s1

end Sys2Proof.Claims

/-- On every core, an S-slot MOV, ADD, SUB, AND, OR, XOR, SHL, SHR, SRA, ADDS, SUBS, MIN, MAX, MULF, MULI, CLS, ADDI, LDI, LDIH or ANDI
that issues with its guard holding puts the word of Table 07-5 in flight for S register D, for the next bundle, or three bundles on for
the multiplies, raises SAT where ADDS, SUBS or MULF saturates, and changes nothing else. For every word w the count c that CLS writes is
at most 35; the c bits below bit 35 all equal bit 35; and where c is below 35, the next bit down differs from it.
(07_basin_instructions.md Table 07-5; 06_basin_engines.md) -/
def Obligations.BasinScalarResults : Prop :=
  (∀ (s : State) (be : Fin 10) (h : SlotHead) (f : SlotR) (g : SlotI),
      let r := fun (c : Instr) (lat : Nat) (op : Word → Word → Word × Bool) =>
        SWord c s be h f.d lat fun e => op (sReg e f.a.toNat) (sReg e f.b.toNat)
      let i := fun (c : Instr) (op : Word → Word → Word) =>
        SWord c s be h g.d 1 fun e => (op (sReg e g.a.toNat) (g.imm.signExtend 36), false)
      let n := fun (b : Word) => if f.sx.getLsbD 6 then f.sx.toNat % 64 else b.toNat % 64
      r (.basinMov be h f) 1 (fun a _ => (a, false)) ∧
      r (.basinAdd be h f) 1 (fun a b => (BitVec.ofInt 36 (a.toInt + b.toInt), false)) ∧
      r (.basinSub be h f) 1 (fun a b => (BitVec.ofInt 36 (a.toInt - b.toInt), false)) ∧
      r (.basinAnd be h f) 1 (fun a b => (a &&& b, false)) ∧
      r (.basinOr be h f) 1 (fun a b => (a ||| b, false)) ∧
      r (.basinXor be h f) 1 (fun a b => (a ^^^ b, false)) ∧
      r (.basinShl be h f) 1 (fun a b => (BitVec.ofNat 36 (a.toNat * 2 ^ n b), false)) ∧
      r (.basinShr be h f) 1 (fun a b => (BitVec.ofNat 36 (a.toNat / 2 ^ n b), false)) ∧
      r (.sra be h f) 1 (fun a b => (BitVec.ofInt 36 (a.toInt / 2 ^ n b), false)) ∧
      r (.adds be h f) 1 (fun a b => satWord (a.toInt + b.toInt)) ∧
      r (.subs be h f) 1 (fun a b => satWord (a.toInt - b.toInt)) ∧
      r (.basinMin be h f) 1 (fun a b => (BitVec.ofInt 36 (min a.toInt b.toInt), false)) ∧
      r (.basinMax be h f) 1 (fun a b => (BitVec.ofInt 36 (max a.toInt b.toInt), false)) ∧
      r (.mulf be h f) 3 (fun a b => satWord (roundHalfEven (a.toInt * b.toInt) 35)) ∧
      r (.muli be h f) 3 (fun a b => (BitVec.ofInt 36 (a.toInt * b.toInt), false)) ∧
      r (.cls be h f) 1 (fun a _ => (BitVec.ofNat 36 (clsCount 36 a.toInt), false)) ∧
      i (.addi be h g) (fun a m => BitVec.ofInt 36 (a.toInt + m.toInt)) ∧
      i (.ldi be h g) (fun _ m => m) ∧
      i (.ldih be h g) (fun a _ => BitVec.ofNat 36 (g.imm.toNat % 2 ^ 17 * 2 ^ 19 + a.toNat % 2 ^ 19)) ∧
      i (.andi be h g) (fun a m => a &&& m)) ∧
  (∀ w : Word, let c := clsCount 36 w.toInt
      c ≤ 35 ∧ (∀ k, k < c → w.getLsbD (34 - k) = w.getLsbD 35) ∧ (c < 35 → w.getLsbD (34 - c) ≠ w.getLsbD 35))

/-- On every core a compare or PLOG that issues with its guard holding writes its truth value to the predicate named by D[3:0] for the
next bundle. MFC brings the control register to D and MTC sends A to it, for a register the core has; MSET and MGET write and read a lane
mask on a core that has them. SNOP, MNOP and VNOP do nothing but take their place in the bundle. (07_basin_instructions.md Tables 07-3,
07-5) -/
def Obligations.BasinPredicatesAndControl : Prop :=
  ∀ (s : State) (be : Fin 10) (h : SlotHead) (f : SlotR) (g : SlotI),
    let r := fun (c : Instr) (op : Word → Word → Bool) => SBool c s be h f.d fun e => op (sReg e f.a.toNat) (sReg e f.b.toNat)
    let i := fun (c : Instr) (op : Word → Word → Bool) => SBool c s be h g.d fun e => op (sReg e g.a.toNat) (g.imm.signExtend 36)
    let k := f.sx.toNat % 32
    let idle := fun (s1 : State) => slotFx be.val (coreOf s1 be.val) false false s1
    r (.basinCmpeq be h f) (fun a b => decide (a = b)) ∧
    r (.basinCmplt be h f) (fun a b => decide (a.toInt < b.toInt)) ∧
    r (.cmpltu be h f) (fun a b => decide (a.toNat < b.toNat)) ∧
    r (.basinCmple be h f) (fun a b => decide (a.toInt ≤ b.toInt)) ∧
    i (.cmpeqi be h g) (fun a b => decide (a = b)) ∧
    i (.cmplti be h g) (fun a b => decide (a.toInt < b.toInt)) ∧
    SBool (.basinPlog be h f) s be h f.d (fun e =>
      let a := predRead e (f.a.toNat % 16)
      let b := predRead e (f.b.toNat % 16)
      if f.sx.toNat % 4 = 0 then a && b else if f.sx.toNat % 4 = 1 then a || b else if f.sx.toNat % 4 = 2 then xor a b else a && !b) ∧
    (crBad be.val k = false →
      SlotGives (.mfc be h f) s be h fun s1 => let e := coreOf s1 be.val
        slotFx be.val (e.fly 0 1 (.s f.d.toNat (crRead s1.cc e k))) false false s1) ∧
    (crBad be.val k = false →
      SlotGives (.mtc be h f) s be h fun s1 => let e := coreOf s1 be.val
        slotFx be.val (flyAll 0 ((crWrite e k (sReg e f.a.toNat)).map fun t => (1, t)) e) false false s1) ∧
    (be ≠ 9 → SlotGives (.mset be h f) s be h fun s1 => let e := coreOf s1 be.val
      slotFx be.val (e.fly 0 1 (.m (f.d.toNat % 8) ((sReg e f.a.toNat).extractLsb' 0 8))) false false s1) ∧
    (be ≠ 9 → SWord (.mget be h f) s be h f.d 1 fun e => ((maskRead e (f.sx.toNat % 8)).zeroExtend 36, false)) ∧
    SlotGives (.snop be ⟨h, 0⟩) s be h idle ∧ SlotGives (.mnop be ⟨h, 0⟩) s be h idle ∧ SlotGives (.vnop be ⟨h, 0⟩) s be h idle

/-- On every core a BR, BRL, BRR or BRT that issues outside a delay slot opens two delay slots after its own bundle: with its guard
holding the target is OFF bundles away, or the address in A, BRL also writes the address after the second delay slot to D, and BRT takes
the branch while LCNT is not 0, or else while ECNT is above 1, with the new counts and P8 for the end of the delay slots; with its guard
false it goes on straight. TRAP marks its bundle for cause 6, and RFE branches to EPC with ESTAT.PIE restored after its delay slots, both
on the control core alone. (07_basin_instructions.md Tables 07-4, 07-5) -/
def Obligations.BasinBranches : Prop :=
  ∀ (s s1 : State) (be : Fin 10) (h : SlotHead) (f : SlotB) (g : SlotR),
    let n := be.val
    let e := coreOf s1 n
    SlotIssues s be h s1 → inDelay e = false →
    let opens := fun (c : Instr) (holds : BasinEngine) =>
      exec c s = .next (settle (slotNext n h (putCore s1 n (if (predRead e h.g.toNat != h.gn) = true then holds
        else { e with branch := some ⟨3, e.pc, none, none, none⟩ }))))
    let aims := fun (a : Option (BitVec 32)) (b : Option BrtUpdate) (p : Option Bool) => { e with branch := some ⟨3, e.pc, a, b, p⟩ }
    let target := some (pcAdd n e.pc f.off.toInt)
    opens (.br be h f) (aims target none none) ∧
    opens (.brl be h f) ((aims target none none).fly 0 1 (.s f.d.toNat ((pcAdd n e.pc 3).zeroExtend 36))) ∧
    opens (.brr be h g) (aims (some (BitVec.ofNat 32 ((sReg e g.a.toNat).toNat % (if be = 9 then 2 ^ 36 else 8192)))) none none) ∧
    opens (.brt be h f) (if e.lcnt ≠ 0#36 then aims target (some ⟨some (e.lcnt - 1#36), none, true⟩) none
      else if e.ecnt = 0#36 then aims none none none
      else aims (if e.ecnt = 1#36 then none else target) (some ⟨none, some (e.ecnt - 1#36), false⟩) none) ∧
    (be = 9 → SlotHolds be h s1 →
      exec (.trap be h) s = .next (settle (slotNext n h { s1 with cc := { s1.cc with trap := true } }))) ∧
    (be = 9 → opens (.rfe be h) (aims (some s1.cc.epc) none (some s1.cc.pie)))

namespace Sys2Proof.Claims

open Sys2Proof Sys2Proof.Machine

/-- The core and the header of an S, M or V slot command that is no branch and no RFE. -/
def slotCmd : Instr → Option (Fin 10 × SlotHead)
  | .snop be x => some (be, x.head)
  | .mnop be x => some (be, x.head)
  | .vnop be x => some (be, x.head)
  | .basinMov be h _ | .basinAdd be h _ | .basinSub be h _ | .addi be h _ | .ldi be h _ | .ldih be h _ | .basinAnd be h _
  | .basinOr be h _ | .basinXor be h _ | .andi be h _ | .basinShl be h _ | .basinShr be h _ | .sra be h _ | .adds be h _
  | .subs be h _ | .basinMin be h _ | .basinMax be h _ | .mulf be h _ | .muli be h _ | .cls be h _ | .basinCmpeq be h _
  | .basinCmplt be h _ | .cmpltu be h _ | .basinCmple be h _ | .cmpeqi be h _ | .cmplti be h _ | .basinPlog be h _ | .mfc be h _
  | .mtc be h _ | .mset be h _ | .mget be h _ | .trap be h | .lds be h _ | .sts be h _ | .ldv be h _ | .stv be h _ | .ldbc be h _
  | .ld2v be h _ _ | .st2v be h _ _ | .lsv be h _ _ | .ld2s be h _ _ | .ldbv be h _ | .stbv be h _ | .ldb8 be h _ | .stb8 be h _
  | .vmov be h _ | .vadd be h _ | .vsub be h _ | .vcadd be h _ | .vcsub be h _ | .vconj be h _ | .vneg be h _ | .vmax be h _
  | .vmin be h _ | .vsel be h _ | .vperm be h _ | .vbcast be h _ | .vext be h _ | .vcmplt be h _ | .vcmple be h _ | .vscale be h _
  | .vnorm be h _ | .vabs2 be h _ | .vrcp be h _ | .vmac be h _ | .vcmac be h _ | .vcmacj be h _ | .vtapm be h _ | .vmulr be h _
  | .vcmulr be h _ | .vcmuljr be h _ | .vsta be h _ | .vstax be h _ | .vlda be h _ | .vldax be h _ | .vaclr be h _ | .vnlmsu be h _
  | .vtw be h _ | .vbf4 be h _ => some (be, h)
  | _ => none

/-- The core and the header of a branch or an RFE. -/
def branchCmd : Instr → Option (Fin 10 × SlotHead)
  | .br be h _ | .brl be h _ | .brr be h _ | .brt be h _ | .rfe be h => some (be, h)
  | _ => none

/-- The encodings and uses that a core does not define (R170, R185, Table 07-3): an unassigned opcode; a branch, a TRAP or an RFE in a delay
slot; a control-profile operation on a basin engine; a vector operation or a vector access on the control core; a control register that
the core has not; and a VBF4 whose quads are not aligned. `e` is the core as the bundle starts. -/
def undefinedOn (e : BasinEngine) : Instr → Prop
  | .snop _ x => x.op ≠ 0#6
  | .mnop _ x => x.op ≠ 0#4
  | .vnop _ x => x.op ≠ 0#7
  | .br _ _ _ | .brl _ _ _ | .brr _ _ _ | .brt _ _ _ => inDelay e = true
  | .trap be _ | .rfe be _ => be ≠ 9 ∨ inDelay e = true
  | .mfc be _ f | .mtc be _ f => crBad be.val (f.sx.toNat % 32) = true
  | .ldbv be _ _ | .stbv be _ _ | .ldb8 be _ _ | .stb8 be _ _ => be ≠ 9
  | .vbf4 be _ f => be = 9 ∨ f.va.toNat % 4 ≠ 0 ∨ f.vd.toNat % 4 ≠ 0
  | .ldv be _ _ | .stv be _ _ | .ldbc be _ _ | .ld2v be _ _ _ | .st2v be _ _ _ | .lsv be _ _ _ | .vmov be _ _ | .vadd be _ _
  | .vsub be _ _ | .vcadd be _ _ | .vcsub be _ _ | .vconj be _ _ | .vneg be _ _ | .vmax be _ _ | .vmin be _ _ | .vsel be _ _
  | .vperm be _ _ | .vbcast be _ _ | .vext be _ _ | .vcmplt be _ _ | .vcmple be _ _ | .vscale be _ _ | .vnorm be _ _
  | .vabs2 be _ _ | .vrcp be _ _ | .vmac be _ _ | .vcmac be _ _ | .vcmacj be _ _ | .vtapm be _ _ | .vmulr be _ _ | .vcmulr be _ _
  | .vcmuljr be _ _ | .vsta be _ _ | .vstax be _ _ | .vlda be _ _ | .vldax be _ _ | .vaclr be _ _ | .vnlmsu be _ _ | .vtw be _ _ => be = 9
  | _ => False

end Sys2Proof.Claims

/-- Every S, M and V slot command but a branch or RFE, in an encoding that its core defines, that issues with its guard false leaves the
state after the bundle's fetch, at the next bundle if it was the last slot (what a branch or an RFE does then, BasinBranches says). Where
the S slot and then the V slot of one bundle put a word each in flight for one scalar register with one latency, on a core with nothing
else in flight, neither lands before that latency has run, then the V slot's word is held and nothing stays in flight, in whichever order
the two slots were presented. (07_basin_instructions.md; 06_basin_engines.md) -/
def Obligations.SlotGuardsAndHeldRegisters : Prop :=
  (∀ (c : Instr) (s s1 : State) (be : Fin 10) (h : SlotHead), slotCmd c = some (be, h) → SlotIssues s be h s1 → ¬ SlotHolds be h s1 →
      ¬ undefinedOn (coreOf s1 be.val) c → exec c s = .next (settle (slotNext be.val h s1))) ∧
  (∀ (s : State) (n i lat : Nat) (e : BasinEngine) (x y : Word), n < 10 → i < 32 → e.flights = [] → 0 < lat →
      let e1 := (e.fly 0 lat (.s i x)).fly 2 lat (.s i y)
      let e2 := (e.fly 2 lat (.s i y)).fly 0 lat (.s i x)
      e1 = e2 ∧ coreOf (landDue (putCore s n e1) n (e.bundle + lat - 1)) n = e1 ∧
        sReg (coreOf (landDue (putCore s n e1) n (e.bundle + lat)) n) i = y ∧
        (coreOf (landDue (putCore s n e1) n (e.bundle + lat)) n).flights = [])

/-- An unassigned opcode of a slot, a branch, a TRAP or an RFE in a delay slot, a control-profile operation on a basin engine, an MFC or
MTC of a control register the core has not, a VBF4 with a misplaced quad on a basin engine, and every vector operation and vector access
on the control core, is taken as the fault of an undefined encoding, whether the slot's guard holds or not (the model's reading, log entry
11), and has no other effect. A fault in a bundle of basin engine n, running entry i, with cause 1 (encoding or breakpoint), 2 (address)
or 3 (fetch): the entry is faulted, the engine runs no entry and goes on with the next one, no branch is open and no DMA channel is busy;
in canonical registers BASIN_FAULT holds the bundle's address, the entry and the cause, and BASIN_STATUS.FAULT and MISS stand.
(06_basin_engines.md; 07_basin_instructions.md; 06_basin_engines.md Kernel faults) -/
def Obligations.KernelFaults : Prop :=
  (∀ (c : Instr) (s s1 : State) (be : Fin 10) (h : SlotHead), slotCmd c = some (be, h) ∨ branchCmd c = some (be, h) → SlotIssues s be h s1 →
      undefinedOn (coreOf s1 be.val) c → exec c s = .next (settle (slotFault s1 be.val .encoding))) ∧
  (∀ (s : State) (n i : Nat) (x : SlotFault), n < 8 → (coreOf s n).current = some i →
      let u := slotFault s n x
      let cause := match x with | .encoding | .breakpoint => 1 | .address | .data => 2 | .fetch => 3
      entryStatus u n i = .faulted ∧ (coreOf u n).current = none ∧ (coreOf u n).nextEntry = i + 1 ∧ (coreOf u n).branch = none ∧
      (∀ ch < 4, (dmaAt u n ch).busy = false) ∧
      (RegsWf s → u.reg (Reg.BASIN_FAULT n) = BitVec.ofNat 32 ((coreOf s n).pc.toNat % 8192 + i * 8192 + cause * 524288) ∧
        u.bit (Reg.BASIN_STATUS n) 3 = true ∧ u.bit (Reg.BASIN_STATUS n) 2 = true))

/-- A fault in a control-core bundle takes no result of that bundle and lets every earlier one land; with EXL clear then, EPC holds the
bundle's address (the branch's, in a delay slot), PIE the old IE, IE is 0, EXL 1, CAUSE the cause (2 encoding, 3 fetch, 4 access, 5
breakpoint), the fetch goes to VBAR + 64 x cause, no branch is open, and registers, memories and the other cores are untouched; with EXL
set it is a double fault, a warm reset. (07_basin_instructions.md; 06_basin_engines.md) -/
def Obligations.ControlCoreException : Prop :=
  ∀ (s : State) (x : SlotFault),
    let e := coreOf s 9
    let cause := match x with | .encoding => 2 | .fetch => 3 | .address | .data => 4 | .breakpoint => 5
    let epc := match e.branch with | some b => if b.left < 3 then b.origin else e.pc | none => e.pc
    let s0 := putCore s 9 { e with flights := e.flights.filter fun y => !decide (y.issue = e.bundle) }
    let s1 := landAll { s0 with cc := { s0.cc with trap := false } } 9
    let u := slotFault s 9 x
    (s1.cc.exl = true → u = warmReset s1 rstDoubleFault) ∧
    (s1.cc.exl = false →
      u.cc = { s1.cc with epc := epc, pie := s1.cc.ie, ie := false, exl := true, cause := BitVec.ofNat 4 cause, waiting := false } ∧
      coreOf u 9 = { coreOf s1 9 with pc := s1.cc.vbar + BitVec.ofNat 32 (64 * cause), branch := none, begun := false } ∧
      (∀ n, n ≠ 9 → coreOf u n = coreOf s n) ∧ u = { s with cc := u.cc, basin := u.basin })

namespace Sys2Proof.Claims

open Sys2Proof Sys2Proof.Machine

/-- The address of a single-form access and the update of its base register: base + OFF, or base and then base + OFF where PI is 1 (R175). -/
def singleAddr (e : BasinEngine) (f : MSingle) : Word :=
  if f.pi then sReg e f.a.toNat else sReg e f.a.toNat + f.off.signExtend 36
def singleUpdate (e : BasinEngine) (f : MSingle) : List (Nat × BasinTarget) :=
  if f.pi then [(1, .s f.a.toNat (sReg e f.a.toNat + f.off.signExtend 36))] else []

/-- The two addresses of a pair-form access, with increments in units of `u1` and `u2` words, and both base updates: the second access sees
the first one's update when it names the same base (R175). -/
def pairAddr2 (e : BasinEngine) (x1 x2 : MPair) (u1 : Nat) : Word :=
  if x2.a = x1.a then sReg e x1.a.toNat + x1.inc.signExtend 36 * BitVec.ofNat 36 u1 else sReg e x2.a.toNat
def pairUpdate (e : BasinEngine) (x1 x2 : MPair) (u1 u2 : Nat) : List (Nat × BasinTarget) :=
  [(1, .s x1.a.toNat (sReg e x1.a.toNat + x1.inc.signExtend 36 * BitVec.ofNat 36 u1)),
   (1, .s x2.a.toNat (pairAddr2 e x1 x2 u1 + x2.inc.signExtend 36 * BitVec.ofNat 36 u2))]

/-- An address in the engine address space (R129), and the first word of its aligned row of 8. -/
def engAddr (a : Word) : Nat := a.toNat % 0x80000
def engRow (a : Word) : Nat := engAddr a / 8 * 8

/-- The engine address space admits a read of the word, of the whole row. -/
def readable (a : Word) : Prop := engineReads (engAddr a) = true
def readableRow (a : Word) : Prop := ∀ k < 8, engineReads (engRow a + k) = true

/-- The words of a row as engine `n` reads them, with their ECC records. -/
def rowRead (s : State) (n : Nat) (a : Word) : List (Word × (BitVec 2 × Nat)) := (List.range 8).map fun k => engineRead s n (engRow a + k)

/-- The results of a vector load from a row, read after four bundles. -/
def rowResults (s : State) (n : Nat) (dr : BitVec 6) (a : Word) : List (Nat × BasinTarget) :=
  (rowRead s n a).zipIdx.map fun p => (4, .v (vecPhys (coreOf s n) dr.toNat) p.2 p.1.1)

/-- Loads bring their results and their ECC records, then the base registers' updates go in flight. -/
def loaded (n : Nat) (l : List (Nat × BasinTarget)) (ecc : List (BitVec 2 × Nat)) (s : State) : State :=
  { s with basin := vset s.basin n (flyAll 1 l (coreOf s n)), regs := (s.eccEvents (basinSite n) ecc).regs }

/-- A row of a vector register stored in the local store, with fresh ECC. -/
def rowStored (s : State) (n : Nat) (e : BasinEngine) (dr : BitVec 6) (a : Word) : State :=
  let ws := (List.range 8).map fun k => vLane e dr.toNat k
  { s with basin := vset s.basin n { coreOf s n with ls := Cells.setAll (coreOf s n).ls (engRow a) ws },
           ecc := Cells.setAll s.ecc (basinWin n + engRow a) (List.replicate 8 0#2) }

end Sys2Proof.Claims

/-- On a basin engine an LDS, LDBC or LD2S whose addresses may be read brings the words named, three bundles on for a scalar and four for
a broadcast, records their ECC events, and updates the base registers; an STS to a local-store word stores S register DR there with fresh
ECC and changes no other word; an STS to the start word of an idle DMA channel starts it (with ERR cleared and the running entry noted:
the model's choices, log entries 68 and 70). An access to an address that may not be read, or may not be written, is an address fault,
before any effect of the slot (the model's reading, log entry 11), for LD2S where either address may not be read.
(07_basin_instructions.md Table 07-7; 06_basin_engines.md Table 06-2) -/
def Obligations.EngineScalarAccesses : Prop :=
  ∀ (s s1 : State) (be : Fin 10) (h : SlotHead) (f : MSingle) (x1 x2 : MPair), be ≠ 9 → SlotIssues s be h s1 → SlotHolds be h s1 →
    let n := be.val
    let e := coreOf s1 n
    let a := singleAddr e f
    let rd := fun (a : Word) => engineRead s1 n (engAddr a)
    let b1 := sReg e x1.a.toNat
    let b2 := pairAddr2 e x1 x2 1
    let gives := fun (c : Instr) (u : State) => exec c s = .next (settle (slotNext n h u))
    (readable a → gives (.lds be h f) (loaded n ((3, .s (f.dr.toNat % 32) (rd a).1) :: singleUpdate e f) [(rd a).2] s1)) ∧
    (readable a → gives (.ldbc be h f)
      (loaded n ((List.range 8).map (fun k => (4, .v (vecPhys e f.dr.toNat) k (rd a).1)) ++ singleUpdate e f) [(rd a).2] s1)) ∧
    (readable b1 → readable b2 → gives (.ld2s be h x1 x2)
      (loaded n ([(3, .s (x1.dr.toNat % 32) (rd b1).1), (3, .s (x2.dr.toNat % 32) (rd b2).1)] ++ pairUpdate e x1 x2 1 1)
        [(rd b1).2, (rd b2).2] s1)) ∧
    (engAddr a < 0x40000 → gives (.sts be h f)
      { s1 with basin := vset s1.basin n { flyAll 1 (singleUpdate e f) e with ls := Cells.set e.ls (engAddr a) (sReg e (f.dr.toNat % 32)) },
                ecc := Cells.set s1.ecc (basinWin n + engAddr a) 0#2 }) ∧
    (0x42004 ≤ engAddr a → engAddr a < 0x42008 → (dmaAt s1 n (engAddr a - 0x42004)).busy = false → f.pi = false →
      Gives (.sts be h f) s fun u => h.last = false → dmaAt u n (engAddr a - 0x42004) =
        ⟨true, false, (dmaAt s1 n (engAddr a - 0x42004)).count, BitVec.ofNat 18 ((sReg e (f.dr.toNat % 32)).toNat % 2 ^ 18 / 8 * 8),
          e.current.getD 0⟩) ∧
    (¬ readable a → exec (.lds be h f) s = .next (settle (slotFault s1 n .address)) ∧
      exec (.ldbc be h f) s = .next (settle (slotFault s1 n .address))) ∧
    (¬ readable b1 ∨ ¬ readable b2 → exec (.ld2s be h x1 x2) s = .next (settle (slotFault s1 n .address))) ∧
    (engineWrites (engAddr a) = false → exec (.sts be h f) s = .next (settle (slotFault s1 n .address)))

/-- On a basin engine an LDV, LD2V or LSV whose rows may be read brings the eight words of each aligned row to the lanes of its register,
four bundles on; an STV, ST2V or LSV whose rows lie in the local store writes the eight lanes to each row with fresh ECC and changes no
other word; LSV's load reads what its store writes; base registers are updated in order. A row that may not be read, or, for a store, that
lies outside the local store, either row of a pair form, is an address fault, before any effect of the slot (the model's reading, log
entry 11). (07_basin_instructions.md Table 07-7; 06_basin_engines.md Table 06-2) -/
def Obligations.EngineVectorAccesses : Prop :=
  ∀ (s s1 : State) (be : Fin 10) (h : SlotHead) (f : MSingle) (x1 x2 : MPair), be ≠ 9 → SlotIssues s be h s1 → SlotHolds be h s1 →
    let n := be.val
    let e := coreOf s1 n
    let a := singleAddr e f
    let b1 := sReg e x1.a.toNat
    let b2 := pairAddr2 e x1 x2 8
    let upd := pairUpdate e x1 x2 8 8
    let eccs := fun (t : State) (w : Word) => (rowRead t n w).map Prod.snd
    let gives := fun (c : Instr) (u : State) => exec c s = .next (settle (slotNext n h u))
    let fly := fun (l : List (Nat × BasinTarget)) (t : State) => putCore t n (flyAll 1 l (coreOf t n))
    (readableRow a → gives (.ldv be h f) (loaded n (rowResults s1 n f.dr a ++ singleUpdate e f) (eccs s1 a) s1)) ∧
    (readableRow b1 → readableRow b2 → gives (.ld2v be h x1 x2)
      (loaded n (rowResults s1 n x1.dr b1 ++ rowResults s1 n x2.dr b2 ++ upd) (eccs s1 b1 ++ eccs s1 b2) s1)) ∧
    (engRow a < 0x40000 → gives (.stv be h f) (fly (singleUpdate e f) (rowStored s1 n e f.dr a))) ∧
    (engRow b1 < 0x40000 → engRow b2 < 0x40000 → gives (.st2v be h x1 x2)
      (fly upd (rowStored (rowStored s1 n e x1.dr b1) n e x2.dr b2))) ∧
    (readableRow b1 → engRow b2 < 0x40000 →
      let t := rowStored s1 n e x2.dr b2
      gives (.lsv be h x1 x2) (loaded n (rowResults t n x1.dr b1 ++ upd) (eccs t b1) t)) ∧
    (¬ readableRow a → exec (.ldv be h f) s = .next (settle (slotFault s1 n .address))) ∧
    (0x40000 ≤ engRow a → exec (.stv be h f) s = .next (settle (slotFault s1 n .address))) ∧
    (¬ readableRow b1 ∨ ¬ readableRow b2 → exec (.ld2v be h x1 x2) s = .next (settle (slotFault s1 n .address))) ∧
    (0x40000 ≤ engRow b1 ∨ 0x40000 ≤ engRow b2 → exec (.st2v be h x1 x2) s = .next (settle (slotFault s1 n .address))) ∧
    (¬ readableRow b1 ∨ 0x40000 ≤ engRow b2 → exec (.lsv be h x1 x2) s = .next (settle (slotFault s1 n .address)))

/-- On the control core an LDS, STS, LD2S, LDBV, STBV, LDB8 or STB8 whose data access need not wait and meets no error performs it as its
data port's crossbar access, brings a loaded word or little-endian value to S register DR three bundles on, and updates the base
registers. A slot whose access, for LD2S either of its accesses, must wait has no effect until it is presented again (the model's form of
waiting, log entry 14). An access that meets an error response, or an uncorrectable window word, is the data fault, with the base
registers as they were. One that resets the chip leaves what the reset leaves. (07_basin_instructions.md Table 07-7; 06_basin_engines.md)
-/
def Obligations.ControlCoreAccesses : Prop :=
  ∀ (s s1 : State) (h : SlotHead) (f : MSingle) (x1 x2 : MPair), SlotIssues s 9 h s1 → SlotHolds 9 h s1 →
    let e := coreOf s1 9
    let a := singleAddr e f
    let b := a.extractLsb' 0 32
    let w := sReg e (f.dr.toNat % 32)
    let ready := fun (t : State) (x : Access) => masterWaits t masterCcD = false ∧ accessWaits t masterCcD x = false
    let good := fun (t : State) (x : Access) =>
      ready t x ∧ (accessRun t masterCcD x).1.err = false ∧ dataUe t x = false ∧ (accessRun t masterCcD x).2.power.phase ≠ .held
    let after := fun (t : State) (x : Access) (l : List (Nat × BasinTarget)) =>
      let u := (accessRun t masterCcD x).2
      putCore u 9 (flyAll 1 l (coreOf u 9))
    let gives := fun (c : Instr) (u : State) => exec c s = .next (settle (slotNext 9 h u))
    let failed := fun (t : State) (x : Access) => ready t x ∧ ((accessRun t masterCcD x).1.err = true ∨ dataUe t x = true)
    let resets := fun (t : State) (x : Access) =>
      ready t x ∧ (accessRun t masterCcD x).1.err = false ∧ dataUe t x = false ∧ (accessRun t masterCcD x).2.power.phase = .held
    let other := fun (c : Instr) (x : Access) =>
      (failed s1 x → exec c s = .next (settle (slotFault (accessRun s1 masterCcD x).2 9 .data))) ∧
      (resets s1 x → exec c s = .next (settle (accessRun s1 masterCcD x).2)) ∧ (¬ ready s1 x → exec c s = .next (settle s))
    let load := fun (c : Instr) (x : Access) (v : Response → Word) =>
      (good s1 x → gives c (after s1 x ((3, .s (f.dr.toNat % 32) (v (accessRun s1 masterCcD x).1)) :: singleUpdate e f))) ∧
      other c x
    let store := fun (c : Instr) (x : Access) => (good s1 x → gives c (after s1 x (singleUpdate e f))) ∧ other c x
    load (.lds 9 h f) (.readWord (a.extractLsb' 0 24)) (fun r => r.word) ∧
    load (.ldbv 9 h f) (.readBytes b 4) (fun r => (leWord r.bytes).zeroExtend 36) ∧
    load (.ldb8 9 h f) (.readBytes b 1) (fun r => (leWord r.bytes).zeroExtend 36) ∧
    store (.sts 9 h f) (.writeWord (a.extractLsb' 0 24) w) ∧
    store (.stbv 9 h f) (.writeBytes b ((leBytes (w.extractLsb' 0 32) 4).map some)) ∧
    store (.stb8 9 h f) (.writeBytes b [some (w.extractLsb' 0 8)]) ∧
    (let y1 := Access.readWord ((sReg e x1.a.toNat).extractLsb' 0 24)
     let y2 := Access.readWord ((pairAddr2 e x1 x2 1).extractLsb' 0 24)
     let t := after s1 y1 [(3, .s (x1.dr.toNat % 32) (accessRun s1 masterCcD y1).1.word)]
     (good s1 y1 → good t y2 → gives (.ld2s 9 h x1 x2)
       (after t y2 ((3, .s (x2.dr.toNat % 32) (accessRun t masterCcD y2).1.word) :: pairUpdate e x1 x2 1 1))) ∧
     (failed s1 y1 → exec (.ld2s 9 h x1 x2) s = .next (settle (slotFault (accessRun s1 masterCcD y1).2 9 .data))) ∧
     (good s1 y1 → failed t y2 → exec (.ld2s 9 h x1 x2) s = .next (settle (slotFault (accessRun t masterCcD y2).2 9 .data))) ∧
     (¬ ready s1 y1 ∨ good s1 y1 ∧ ¬ ready t y2 → exec (.ld2s 9 h x1 x2) s = .next (settle s)))


namespace Sys2Proof.Claims

open Sys2Proof Sys2Proof.Machine

/-- The lanes that act: those of the lane mask named by MK; M0 enables all (R166). -/
def acting (e : BasinEngine) (f : VFields) : List Nat := (List.range 8).filter fun i => (maskRead e f.mask.toNat).getLsbD i

/-- A V-slot operation on a basin engine: each acting lane's word for the vector register named `r` after `lat` bundles, SAT where a lane
saturates, and the noise LFSR advanced once where `noise` holds and a lane acts (R166, R180). -/
def VLanes (c : Instr) (s : State) (be : Fin 10) (h : SlotHead) (f : VFields) (lat : Nat) (noise : BasinEngine → Bool)
    (op : BasinEngine → Nat → Word × Bool) : Prop :=
  be ≠ 9 → SlotGives c s be h fun s1 =>
    let e := coreOf s1 be.val
    let l := acting e f
    slotFx be.val { flyAll 2 (l.map fun i => (lat, .v (vecPhys e f.vd.toNat) i (op e i).1)) e with
                    lfsr := if noise e && !l.isEmpty then lfsrNext e.lfsr else e.lfsr } (l.any fun i => (op e i).2) false s1

/-- A V-slot operation on a basin engine with one result that is no vector. -/
def VOne (c : Instr) (s : State) (be : Fin 10) (h : SlotHead) (lat : Nat) (t : BasinEngine → BasinTarget) : Prop :=
  be ≠ 9 → SlotGives c s be h fun s1 => let e := coreOf s1 be.val
    slotFx be.val (e.fly 2 lat (t e)) false false s1

/-- A V-slot step on vector accumulator VD[2:0] of a basin engine: each acting lane takes its new value for the next accumulating step, a
store reads it four bundles on, and a guard overflow raises GOV (R179). -/
def VSum (c : Instr) (s : State) (be : Fin 10) (h : SlotHead) (f : VFields) (op : BasinEngine → Nat → AccReg → AccReg × Bool)
    (more : BasinEngine → List (Nat × BasinTarget)) : Prop :=
  be ≠ 9 → SlotGives c s be h fun s1 =>
    let e := coreOf s1 be.val
    let l := acting e f
    let a := f.vd.toNat % 8
    let r := fun i => op e i (Cells.read accZero e.va (8 * a + i))
    slotFx be.val { flyAll 2 (l.map (fun i => (4, .view a i (r i).1.val)) ++ more e) e with
                    va := l.foldl (fun m i => Cells.write accZero m (8 * a + i) (r i).1) e.va } false (l.any fun i => (r i).2) s1

/-- Halves rounded half even after `d` bits and saturated to s.17. -/
def roundedHalves (re im : Int) (d : Nat) : Word × Bool :=
  let x := satTo 18 (roundHalfEven re d)
  let y := satTo 18 (roundHalfEven im d)
  (Word.ofHalves (BitVec.ofInt 18 x.1) (BitVec.ofInt 18 y.1), x.2 || y.2)

end Sys2Proof.Claims

/-- On a basin engine a VMOV, VADD, VSUB, VCADD, VCSUB, VCONJ, VNEG, VMAX, VMIN, VSEL, VPERM, VBCAST, VABS2 or VRCP that issues with its
guard holding puts the word of its table row in flight for VD in every lane of the mask, with the row's latency, raises SAT where an
acting lane saturates, and changes no other lane, register or flag. VEXT and VNORM write one scalar, VCMPLT and VCMPLE one mask register
whose bits of lanes that do not act are cleared. (07_basin_instructions.md Table 07-9) -/
def Obligations.VectorLaneResults : Prop :=
  ∀ (s : State) (be : Fin 10) (h : SlotHead) (f : VFields),
    let a := fun (e : BasinEngine) (i : Nat) => vLane e f.va.toNat i
    let b := fun (e : BasinEngine) (i : Nat) => vLane e f.vb.toNat i
    let one := fun (c : Instr) (lat : Nat) (op : BasinEngine → Nat → Word × Bool) => VLanes c s be h f lat (fun _ => false) op
    let mask := fun (op : Int → Int → Bool) (e : BasinEngine) => BasinTarget.m (f.vd.toNat % 8)
      (BitVec.ofNat 8 ((acting e f).foldl (fun m i => if op (a e i).toInt (b e i).toInt then m + 2 ^ i else m) 0))
    let room := fun (w : Word) => if f.x.getLsbD 0 then min (clsCount 18 w.re.toInt) (clsCount 18 w.im.toInt) else clsCount 36 w.toInt
    one (.vmov be h f) 1 (fun e i => (a e i, false)) ∧
    one (.vadd be h f) 1 (fun e i => satWord ((a e i).toInt + (b e i).toInt)) ∧
    one (.vsub be h f) 1 (fun e i => satWord ((a e i).toInt - (b e i).toInt)) ∧
    one (.vcadd be h f) 1 (fun e i => satHalves (fun x y => x + y) (a e i) (b e i)) ∧
    one (.vcsub be h f) 1 (fun e i => satHalves (fun x y => x - y) (a e i) (b e i)) ∧
    one (.vconj be h f) 1 (fun e i => (Word.ofHalves (a e i).re (BitVec.ofInt 18 (satTo 18 (-(a e i).im.toInt)).1),
      decide ((a e i).im.toInt = -(2 ^ 17)))) ∧
    one (.vneg be h f) 1 (fun e i => if f.x.getLsbD 0 then satHalves (fun x _ => -x) (a e i) (a e i) else satWord (-(a e i).toInt)) ∧
    one (.vmax be h f) 1 (fun e i => (BitVec.ofInt 36 (max (a e i).toInt (b e i).toInt), false)) ∧
    one (.vmin be h f) 1 (fun e i => (BitVec.ofInt 36 (min (a e i).toInt (b e i).toInt), false)) ∧
    one (.vsel be h f) 1 (fun e i => (if (maskRead e (f.x.toNat % 8)).getLsbD i then a e i else b e i, false)) ∧
    one (.vperm be h f) 2 (fun e i => let k := (vLane e f.vc.toNat i).toNat % 16
      (if k < 8 then a e k else b e (k - 8), false)) ∧
    one (.vbcast be h f) 1 (fun e _ => (sReg e (f.va.toNat % 32), false)) ∧
    one (.vabs2 be h f) 4 (fun e i => let p := (a e i).re.toInt ^ 2 + (a e i).im.toInt ^ 2
      satWord (if f.x.getLsbD 0 then p else 2 * p)) ∧
    one (.vrcp be h f) 6 (fun e i => if (a e i).toInt ≤ 0 then (BitVec.ofInt 36 (2 ^ 35 - 1), true)
      else satWord (divHalfEven (2 ^ (70 - f.x.toNat)) (a e i).toNat)) ∧
    VOne (.vext be h f) s be h 2 (fun e => .s (f.vd.toNat % 32) (a e (f.x.toNat % 8))) ∧
    VOne (.vnorm be h f) s be h 2 (fun e => .s (f.vd.toNat % 32)
      (BitVec.ofInt 36 ((acting e f).foldl (fun (m : Int) i => min m (room (a e i))) (sReg e (f.vc.toNat % 32)).toInt))) ∧
    VOne (.vcmplt be h f) s be h 1 (mask fun x y => decide (x < y)) ∧
    VOne (.vcmple be h f) s be h 1 (mask fun x y => decide (x ≤ y))

/-- On a basin engine VMAC, VCMAC, VCMACJ and VTAPM, lane by lane over the mask, add the product of VA and VB to the accumulator named by
VD as AM, Z and N say; VLDA, VLDAX and VACLR start a sum at VA or zero. The next accumulating step sees the value at once and a store four
bundles on; an overflow raises GOV. VTAPM also moves VA up one lane with lane 7 of VC entering at lane 0, in all lanes.
(07_basin_instructions.md Table 07-10; 03_number_formats.md Table 03-2) -/
def Obligations.VectorAccumulation : Prop :=
  ∀ (s : State) (be : Fin 10) (h : SlotHead) (f : VFields),
    let a := fun (e : BasinEngine) (i : Nat) => vLane e f.va.toNat i
    let b := fun (e : BasinEngine) (i : Nat) => vLane e f.vb.toNat i
    let am := f.x.getLsbD 0
    let z := f.x.getLsbD 1
    let sign : Int := if f.x.getLsbD 2 then -1 else 1
    let real := fun (e : BasinEngine) (i : Nat) (r : AccReg) => accReal z am r (sign * prodReal (a e i) (b e i))
    let cplx := fun (conj : Bool) (e : BasinEngine) (i : Nat) (r : AccReg) =>
      let p := prodCplx conj (a e i) (b e i)
      accCplx z am r (sign * p.1) (sign * p.2)
    let none := fun (_ : BasinEngine) => ([] : List (Nat × BasinTarget))
    VSum (.vmac be h f) s be h f real none ∧
    VSum (.vcmac be h f) s be h f (cplx false) none ∧
    VSum (.vcmacj be h f) s be h f (cplx true) none ∧
    VSum (.vtapm be h f) s be h f real (fun e => (List.range 8).map fun i =>
      (1, .v (vecPhys e f.va.toNat) i (if i = 0 then vLane e f.vc.toNat 7 else a e (i - 1)))) ∧
    VSum (.vlda be h f) s be h f (fun e i r => accReal true false r ((a e i).toInt * 2 ^ 36)) none ∧
    VSum (.vldax be h f) s be h f (fun e i r => accCplx true false r ((a e i).re.toInt * 2 ^ 18) ((a e i).im.toInt * 2 ^ 18)) none ∧
    VSum (.vaclr be h f) s be h f (fun _ _ _ => (⟨0#80, false, false⟩, false)) none

/-- On a basin engine VMULR, VCMULR, VCMULJR, VSTA and VSTAX store a product or an accumulator in each acting lane under CV, the dither of
lane i taken from the LFSR rotated left by 4i bits; VSCALE multiplies by a power of two, saturating or rounding; VNLMSU adds the scaled
conjugate product to the filter word; VTW multiplies by a twiddle; VBF4 writes the four butterfly sums to four registers. SAT and the
LFSR's single advance follow the rules of the slot. (07_basin_instructions.md Tables 07-9, 07-10; 03_number_formats.md Stores) -/
def Obligations.VectorStoresAndTransforms : Prop :=
  ∀ (s : State) (be : Fin 10) (h : SlotHead) (f : VFields),
    let a := fun (e : BasinEngine) (i : Nat) => vLane e f.va.toNat i
    let b := fun (e : BasinEngine) (i : Nat) => vLane e f.vb.toNat i
    let c := fun (e : BasinEngine) (i : Nat) => vLane e f.vc.toNat i
    let k := f.x.toNat % 8
    let rs := f.x.extractLsb' 3 2
    let l := fun (e : BasinEngine) (i : Nat) => e.lfsr.rotateLeft (4 * i)
    let never := fun (_ : BasinEngine) => false
    let dithers := fun (_ : BasinEngine) => decide (rs = 2#2)
    let re := fun (e : BasinEngine) (w : Int) (i : Nat) => ((storeRealInt w k rs (l e i)).w, (storeRealInt w k rs (l e i)).sat)
    let cx := fun (e : BasinEngine) (p : Int × Int) (i : Nat) =>
      let x := storeHalf p.1 k rs (l e i >>> 16).toNat
      let y := storeHalf p.2 k rs ((l e i).toNat % 65536)
      (Word.ofHalves (BitVec.ofInt 18 x.1) (BitVec.ofInt 18 y.1), x.2 || y.2)
    let acc : BasinEngine → Nat → Acc := fun e i => Cells.get e.vaView (8 * (f.va.toNat % 8) + i)
    let sc := fun (e : BasinEngine) => (sReg e (f.vc.toNat % 32)).toInt
    VLanes (.vmulr be h f) s be h f 4 dithers (fun e i => re e (prodReal (a e i) (b e i)) i) ∧
    VLanes (.vcmulr be h f) s be h f 4 dithers (fun e i => cx e (prodCplx false (a e i) (b e i)) i) ∧
    VLanes (.vcmuljr be h f) s be h f 4 dithers (fun e i => cx e (prodCplx true (a e i) (b e i)) i) ∧
    VLanes (.vsta be h f) s be h f 1 dithers (fun e i => re e (acc e i).toInt i) ∧
    VLanes (.vstax be h f) s be h f 1 dithers (fun e i => cx e ((acc e i).re.toInt, (acc e i).im.toInt) i) ∧
    VLanes (.vscale be h f) s be h f 2 (fun e => decide (f.x.extractLsb' 1 2 = 2#2) && decide (sc e < 0)) (vscaleLane f) ∧
    (∀ (e : BasinEngine) (i : Nat), 0 ≤ sc e → f.x.getLsbD 0 = false →
      vscaleLane f e i = satWord ((a e i).toInt * 2 ^ (min (sc e) 40).toNat)) ∧
    (∀ (e : BasinEngine) (i : Nat), sc e < 0 → f.x.getLsbD 0 = false → f.x.extractLsb' 1 2 = 0#2 →
      vscaleLane f e i = (BitVec.ofInt 36 (roundHalfEven (a e i).toInt (min (-sc e) 40).toNat), false)) ∧
    VLanes (.vnlmsu be h f) s be h f 4 never (fun e i =>
      let w := a e i
      let x := b e i
      let g := c e i
      let d := 18 + f.x.toNat
      roundedHalves (w.re.toInt * 2 ^ d + 2 * (g.re.toInt * x.re.toInt + g.im.toInt * x.im.toInt))
        (w.im.toInt * 2 ^ d + 2 * (g.im.toInt * x.re.toInt - g.re.toInt * x.im.toInt)) d) ∧
    VLanes (.vtw be h f) s be h f 4 never (fun e i =>
      let n := (sReg e (f.vc.toNat % 32)).toNat
      let p := prodCplx (f.x.getLsbD 2) (a e i) (twiddle (f.x.toNat % 4 * (n % 4096 + i * (n / 4096 % 4096)) % 4096))
      roundedHalves p.1 p.2 18) ∧
    (be ≠ 9 → f.va.toNat % 4 = 0 → f.vd.toNat % 4 = 0 → SlotGives (.vbf4 be h f) s be h fun s1 =>
      let e := coreOf s1 be.val
      let lanes := acting e f
      let w := fun (q i : Nat) => vLane e (f.va.toNat + q) i
      let r := fun (g : Word → Int) (m0 m1 m2 m3 : Int) (i : Nat) => m0 * g (w 0 i) + m1 * g (w 1 i) + m2 * g (w 2 i) + m3 * g (w 3 i)
      let x := fun (w : Word) => w.re.toInt
      let y := fun (w : Word) => w.im.toInt
      let sh := min (f.x.toNat % 4) 2
      let j : Int := if f.x.getLsbD 2 then -1 else 1
      let out := fun (q i : Nat) =>
        if q = 0 then roundedHalves (r x 1 1 1 1 i) (r y 1 1 1 1 i) sh
        else if q = 2 then roundedHalves (r x 1 (-1) 1 (-1) i) (r y 1 (-1) 1 (-1) i) sh
        else
          let t : Int := if q = 1 then j else -j
          roundedHalves (r x 1 0 (-1) 0 i + t * r y 0 1 0 (-1) i) (r y 1 0 (-1) 0 i - t * r x 0 1 0 (-1) i) sh
      slotFx be.val
        (flyAll 2 ((List.range 4).flatMap fun q => lanes.map fun i => (3, .v (vecPhys e (f.vd.toNat + q)) i (out q i).1)) e)
        ((List.range 4).any fun q => lanes.any fun i => (out q i).2) false s1)


/-- A running crosspoint away from its target steps where its source's sign differs from the last interval's, unless it has stepped in
this one, or where its timeout has passed: from MUTE to 120 dB, at 120 dB to a MUTE target, otherwise toward its target by one step and
not past it, 120 dB standing for MUTE; its timer restarts. A fade out at zero starts the fade in of the route that waits, of its own shape
and over its own samples, or ends with no route; a fade in at full ends. A crosspoint at its target, or whose fade has not ended, changes
nothing. Nothing else of the machine changes. (09_rill_bus_mix_fabric.md Weirs and sluices) -/
def Obligations.WeirsStepAndFadesEnd : Prop :=
  ∀ (s : State) (e : Fin 65536) (r : BitVec 11 × BitVec 11) (f : Fade),
    let x := xpAt s e.val
    let leaves := fun (c : Instr) (y : Crosspoint) =>
      exec c s = .next (settle { s with fabric := { s.fabric with xp := Cells.write crosspointIdle s.fabric.xp e.val y } })
    let goal := weirLevel x.taken
    let d := xpStep s e.val
    let crosses := (stallRead s r.1.toNat).getLsbD 35 ≠ (Cells.get s.bus.prev r.1.toNat).getLsbD 35 ∧ x.stepped = false
    let level := if x.level = 4095#12 then 1920 else if goal = 4095#12 then (if x.level = 1920#12 then 4095 else min (x.level.toNat + d) 1920)
      else if x.level.toNat < goal.toNat then min (x.level.toNat + d) goal.toNat else max (x.level.toNat - d) goal.toNat
    (x.route = some r → xpRuns s e.val = true → x.level ≠ goal → (crosses ∨ xpTimeout s e.val ≤ x.timer) →
      leaves (.weirStep e) { x with level := BitVec.ofNat 12 level, timer := 0, stepped := true }) ∧
    (x.route = none ∨ xpRuns s e.val = false ∨ x.level = goal → NoEffect (.weirStep e) s) ∧
    (x.route = some r → ¬ crosses → x.timer < xpTimeout s e.val → NoEffect (.weirStep e) s) ∧
    (x.fade = some f → f.out = true → f.num = 0 → ∀ n power, f.next = some (r.1, r.2, n, power) →
      leaves (.fadeEnd e) { x with route := some r, fade := some ⟨false, 0, n, 1, power, none⟩ }) ∧
    (x.fade = some f → f.out = true → f.num = 0 → f.next = none → leaves (.fadeEnd e) { x with route := none, fade := none }) ∧
    (x.fade = some f → f.out = false → f.num = f.den → leaves (.fadeEnd e) { x with fade := none }) ∧
    (x.fade = none → NoEffect (.fadeEnd e) s) ∧
    (x.fade = some f → f.num ≠ (if f.out then 0 else f.den) → NoEffect (.fadeEnd e) s)

/-- On a basin engine that no shadow follows: KERNEL_DISPATCH with no entry running starts the next enabled entry at its address, with S1
the parameter base, S2 the entry number, S3 the frame word, the other scalars kept, counts and rotation zero, and the trough address block
holding one word per listed trough and zero after; with an entry running it does nothing, and with none left it starts none. KERNEL_STOP
of a bundle that can be issued ends the running entry as stopped and lets the engine go on with the next. ENTRY_COMPLETE of a stopped
entry whose DMA has ended completes it and takes its cycle into BASIN_BUSY; otherwise it does nothing. On a busy channel of a basin engine
that waits for no bank and no shadow follows, DMA_DESCRIPTOR_DONE counts the descriptor. A descriptor with no rows or no length is an
error: the channel stops with ERR set and BASIN_STATUS.DMA_ERR raised. One whose moves all succeed leaves the channel busy at the next
descriptor when it chains, and free otherwise. A one-word output descriptor to a bank that admits the engine stores the local word in the
yard and no other yard word changes. On an idle channel nothing happens. (06_basin_engines.md Frame table; 02_ticks_modes_budgets.md;
06_basin_engines.md Frame DMA) -/
def Obligations.KernelEntriesAndFrameDma : Prop :=
  (∀ (s : State) (be : Fin 8) (i : Fin 64) (cycle : BitVec 24), bexFollows s be.val = false →
      let n := be.val
      let e := coreOf s n
      (e.current = none → nextEntry s n = some i.val →
        Gives (.kernelDispatch be) s fun u =>
          let c := coreOf u n
          let x := frameEntry s n i.val
          c.current = some i.val ∧ entryStatus u n i.val = .running ∧ c.pc = BitVec.ofNat 32 x.entry ∧ c.flights = [] ∧ c.branch = none ∧
          sReg c 1 = BitVec.ofNat 36 (0x40000 + x.pbase) ∧ sReg c 2 = BitVec.ofNat 36 i.val ∧ sReg c 3 = frameWord s ∧
          (∀ r < 32, r ≠ 1 → r ≠ 2 → r ≠ 3 → sReg c r = sReg e r) ∧ c.v = e.v ∧ c.p = e.p ∧ c.m = e.m ∧ c.va = e.va ∧
          c.rrbv = 0#5 ∧ c.rrbp = 0#3 ∧ c.lcnt = 0#36 ∧ c.ecnt = 0#36 ∧
          (Cells.wf zeroAt e.ls = true → ∀ k < 32, Cells.get c.ls (0x3FFE0 + k) =
            ((troughList s n x).map (troughImageWord s)).getD k 0#36) ∧
          (∀ a < 0x3FFE0, Cells.get c.ls a = Cells.get e.ls a) ∧ u.yard = s.yard) ∧
      (e.current.isSome = true → exec (.kernelDispatch be) s = .next (settle s)) ∧
      (e.current = none → nextEntry s n = none → Gives (.kernelDispatch be) s fun u =>
        (coreOf u n).current = none ∧ (coreOf u n).ls = e.ls ∧ (coreOf u n).entries = e.entries ∧ u.yard = s.yard ∧ u.ecc = s.ecc) ∧
      (∀ s1, e.current = some i.val → bundleStart s n false 0#2 = (.go, s1) → Gives (.kernelStop be) s fun u =>
        (coreOf u n).current = none ∧ entryStatus u n i.val = .stopped ∧ (coreOf u n).nextEntry = i.val + 1 ∧ (coreOf u n).branch = none ∧
        u.regs = s1.regs ∧ u.yard = s.yard) ∧
      (entryStatus s n i.val = .stopped → (∀ ch < 4, (dmaAt s n ch).busy = true → (dmaAt s n ch).entry ≠ i.val) →
        Gives (.entryComplete be i cycle) s fun u =>
          entryStatus u n i.val = .completed ∧ (coreOf u n).busy = (if e.busy ≤ cycle then cycle else e.busy) ∧
          u = { s with basin := u.basin } ∧ ∀ k, k ≠ n → coreOf u k = coreOf s k) ∧
      (entryStatus s n i.val ≠ .stopped → exec (.entryComplete be i cycle) s = .next (settle s))) ∧
  (∀ (s : State) (be : Fin 8) (ch : Fin 4), bexFollows s be.val = false →
      let n := be.val
      let c := dmaAt s n ch.val
      let d := dmaDesc s n c.addr.toNat
      let runs := c.busy = true ∧ dmaWaits s n d = false
      (c.busy = false → exec (.dmaDescriptorDone be ch) s = .next (settle s)) ∧
      (runs → (d.rows = 0 ∨ d.len = 0) → Gives (.dmaDescriptorDone be ch) s fun u =>
        (dmaAt u n ch.val).busy = false ∧ (dmaAt u n ch.val).err = true ∧ (dmaAt u n ch.val).count = c.count + 1#16 ∧
        (RegsWf s → u.bit (Reg.BASIN_STATUS n) 4 = true)) ∧
      (runs → d.rows ≠ 0 → d.len ≠ 0 →
        (dmaMoveAll n ch.val d (dmaPairs d) (s.eccEvents (basinSite n) (descMarks s n c.addr.toNat))).1 = false →
        Gives (.dmaDescriptorDone be ch) s fun u =>
          (dmaAt u n ch.val).busy = d.chain ∧ (dmaAt u n ch.val).count = c.count + 1#16 ∧
          (d.chain = true → (dmaAt u n ch.val).addr = d.next)) ∧
      (runs → d.rows = 1 → d.len = 1 → d.out = true → d.yard < 0x800000 → yardAdmits s (masterBasin n) d.yard = true →
        Gives (.dmaDescriptorDone be ch) s fun u =>
          (Cells.wf zeroAt s.yard = true → Cells.get u.yard d.yard = (engineRead s n d.local_).1) ∧
          ∀ a, a ≠ d.yard → Cells.get u.yard a = Cells.get s.yard a))

/-- An interrupt that may be taken lets the results in flight land and enters cause 1 with EPC at the next bundle; one that may not be
taken does nothing. CC_WAIT outside a delay slot and without a TRAP ends its bundle and halts issue. A write of CC_CACHE takes EN, and
with INV empties the cache and sets INV_BUSY, which the end of the invalidation clears. A write of PEAK_CLR zeroes BASIN_PEAK of an engine
role. (06_basin_engines.md; 07_basin_instructions.md) -/
def Obligations.ControlCoreInterruptsAndWaits : Prop :=
  ∀ (s : State) (atomic : Bool) (v : BitVec 32) (be : Fin 9),
    let s1 := landAll s 9
    (interruptTaken s atomic = true → Gives (.interruptEntry atomic) s fun u =>
      u.cc = { s1.cc with epc := (coreOf s1 9).pc, pie := s1.cc.ie, ie := false, exl := true, cause := 1#4, waiting := false, trap := false } ∧
      (coreOf u 9).pc = s1.cc.vbar + 64#32 ∧ (coreOf u 9).s = (coreOf s1 9).s ∧ u = { s with cc := u.cc, basin := u.basin }) ∧
    (interruptTaken s atomic = false → exec (.interruptEntry atomic) s = .next (settle s)) ∧
    (∀ s2, ccIssues s = true → bundleStart s 9 atomic 0#2 = (.go, s2) → inDelay (coreOf s2 9) = false → s2.cc.trap = false →
      Gives (.ccWait atomic) s fun u => u.cc.waiting = true ∧ u = { bundleEnd s2 9 atomic with cc := u.cc }) ∧
    (RegsWf s → Gives (.ccCacheInv v) s fun u => u.bit Reg.CC_CACHE 0 = v.getLsbD 0 ∧
      (v.getLsbD 1 = true → u.cc.cache = [] ∧ u.bit Reg.CC_CACHE 2 = true) ∧ RegsSameBut [Reg.CC_CACHE] s u) ∧
    (RegsWf s → Gives .cacheInvalidationEnd s fun u => u.bit Reg.CC_CACHE 2 = false ∧ u.cc = s.cc ∧ RegsSameBut [Reg.CC_CACHE] s u) ∧
    (RegsWf s → be ≠ 8 → Gives (.peakClr be) s fun u => u.reg (Reg.BASIN_PEAK be.val) = 0#32 ∧ RegsSameBut [Reg.BASIN_PEAK be.val] s u)


/-- A commit of an idle set that no test refuses leaves it committed with the group written; of a committed set it changes no set; of a
set in copy-back it is kept until the copy ends. A refused commit leaves every set as it was. An abort of a group other than 0 returns
each of its sets, and each deferred commit of it, to the uncommitted state, and touches no other; of group 0 it does nothing. The end of
copy-back clears the set's busy state and makes the copy in force of an engine, the bus, the fabric or the cascade unit its shadow; a set
not in copy-back is left alone. (10_cascade_eq_and_safe_load.md Safe load) -/
def Obligations.CommitAbortAndCopyBack : Prop :=
  ∀ (s : State) (k : Fin 29) (g : BitVec 4),
    let x := setAt s k.val
    let s0 := s.setFld (commitReg k.val) 4 4 g.toNat
    let others := fun (u : State) => ∀ j, j ≠ k.val → setAt u j = setAt s j
    (commitReads s k.val = false → x.copying = false → commitRefused s0 k.val g false = none →
      Gives (.commit k g) s fun u => setAt u k.val = { x with committed := true, group := g } ∧ others u ∧ u.regs = s0.regs) ∧
    (commitReads s k.val = true → Gives (.commit k g) s fun u => u.sets = s.sets ∧ u.regs = s0.regs) ∧
    (commitReads s k.val = false → x.copying = true → Gives (.commit k g) s fun u =>
      setAt u k.val = { x with deferred := true, deferredGroup := g, deferredSync := false } ∧ others u) ∧
    (commitReads s k.val = false → x.copying = false → (commitRefused s0 k.val g false).isSome = true →
      Gives (.commit k g) s fun u => u.sets = s.sets) ∧
    (Gives (.slAbort g) s fun u => u.regs = s.regs ∧ ∀ j : Fin 29, setAt u j.val =
      if g ≠ 0#4 ∧ abortHits s g j.val = true then { setAt s j.val with committed := false, deferred := false } else setAt s j.val) ∧
    (x.copying = false → exec (.copyBackComplete k) s = .next (settle s)) ∧
    (x.copying = true → x.deferred = false → Gives (.copyBackComplete k) s fun u =>
      setAt u k.val = { x with copying := false } ∧ others u ∧
      (∀ re : Fin 16, k.val = re.val → rillEng u re = { rillEng s re with stS := (rillEng s re).stA }) ∧
      (∀ n < 8, k.val = 16 + n → coreOf u n = { coreOf s n with stS := (coreOf s n).stA }) ∧
      (k = 24 → u.bus = { s.bus with stS := s.bus.stA }) ∧ (k = 25 → u.fabric = { s.fabric with stS := s.fabric.stA }) ∧
      (k = 26 → u.cascade = { s.cascade with stS := s.cascade.stA }))


/-- In canonical registers a write of PDM_CLK_EN enables exactly the clock outputs that it names and whose pin is free or the PDM block's
own, whatever was enabled before. The end of settling ends one microphone's settling. A microphone in service and settled that is found
stuck sets its PDM_STUCK bit, and with the muting enabled is to be muted from the next interval, its clean intervals counted from 0. A
gain step moves PGA_NOW of an ADC in service one step toward the target taken in. A short of an enabled bias that has not tripped switches
it off and sets its BIAS_SHORT bit. Nothing else changes; where its condition does not hold, each changes nothing. (11_audio_ports.md PDM;
11_audio_ports.md Analog) -/
def Obligations.MicrophoneAndAnalogPorts : Prop :=
  ∀ (s : State) (v : BitVec 32) (m : Fin 128) (i : Fin 4),
    let p := s.ports
    let b := BitVec.ofNat 128 (2 ^ m.val)
    let stuck := flagSet s (Reg.PDM_STUCK (m.val / 32)) (m.val % 32)
    let now := s.fld (Reg.ANA_ADC_CFG i.val) 16 6
    let goal := (vget p.pgaGoal i.val 0#6).toNat
    (RegsWf s → Gives (.pdmClkEnWrite v) s fun u =>
      (∀ k < 8, u.bit Reg.PDM_CLK_EN k = (v.getLsbD k && resFree s 0 (64 + k) fnPdm)) ∧
      RegsSameBut [Reg.PDM_CLK_EN, Reg.SYS_CONFLICT, Reg.SYS_STATUS] s u ∧
      u = { s with regs := u.regs, claims := u.claims, ports := u.ports }) ∧
    (Gives (.pdmSettleEnd m) s fun u => u = { s with ports := { p with pdmSettle := p.pdmSettle &&& ~~~b } }) ∧
    (p.pdmOn.getLsbD m.val = true → p.pdmSettle.getLsbD m.val = false → Leaves (.pdmStuck m) s [stuck]
      { s with ports := if s.bit Reg.PDM_CFG 16 then
          { p with pdmMuting := p.pdmMuting ||| b, pdmClean := Cells.write (fun _ => 0) p.pdmClean m.val 0 } else p }) ∧
    (p.pdmOn.getLsbD m.val = false ∨ p.pdmSettle.getLsbD m.val = true → NoEffect (.pdmStuck m) s) ∧
    (p.adcOn.getLsbD i.val = true → Leaves (.pgaStep i) s [fieldAt s (Reg.ANA_ADC_CFG i.val) 16 6
      (if now < goal then now + 1 else if goal < now then now - 1 else now)] s) ∧
    (p.adcOn.getLsbD i.val = false → NoEffect (.pgaStep i) s) ∧
    (s.bit (Reg.ANA_ADC_CFG i.val) 8 = true → p.biasTrip.getLsbD i.val = false →
      Leaves (.biasShort i) s [flagSet s Reg.ANA_STATUS (4 + i.val)]
        { s with ports := { p with biasTrip := p.biasTrip ||| BitVec.ofNat 4 (2 ^ i.val) } }) ∧
    (s.bit (Reg.ANA_ADC_CFG i.val) 8 = false ∨ p.biasTrip.getLsbD i.val = true → NoEffect (.biasShort i) s)

/-- The master of a write has no access that waits. On a disabled port without the DLL a TDM_CTRL write with no enable and no DLL takes
its mode bits; one that enables reception alone on a good configuration whose pins and ASRC channels are free sets RX_EN with them and
starts the port with nothing received, and on a bad one sets CFG_REJECT and enables nothing. TDM_FRAME takes its fields on a disabled
port; on an enabled one the write sets CFG_REJECT, answers an error and changes nothing else. A write that makes the reference of an
acquisition under way a master port fails that acquisition. A frame received by a running port is counted and kept with its phase: a slot
that ended before the last boundary is held at once (a master frame that ended as its interval did, a slave's by its bit clock, log entry
83), the others for the next interval, and an asynchronous port hands each slot's word to its ASRC channel. An FS edge of a running slave
at a wrong count sets its flag, counts, and ends a loss; a clock loss of an enabled slave sets its flag, marks the loss, and unlocks its
ASRC; a DLL that the port holds shows its lock and tap. A ratio of 0.25 to 4 locks a running asynchronous port and restarts its fade, any
other sets RATE_ERR, and a locked port follows its ratio, with RATE_ERR set where it leaves that range (the model's reading, log entry
26); an unlock clears the lock and the ratio and sets its flag. Nothing else changes; where its condition does not hold, each changes
nothing. (11_audio_ports.md TDM; 11_audio_ports.md ASRC; 12_clocking.md Media PLL) -/
def Obligations.TdmPorts : Prop :=
  ∀ (s : State) (p : Fin 4) (m : Fin 18) (v ratio : BitVec 32) (slots : List (BitVec 32)) (phase : BitVec 16) (tap : BitVec 6),
    let ctrl := Reg.TDM_CTRL p.val
    let stat := Reg.TDM_STATUS p.val
    let x := tdmAt s p.val
    let with_ := fun (y : TdmPort) => { s with ports := { s.ports with tdm := vset s.ports.tdm p.val y } }
    let resp := fun (err : Bool) => { s with resp := vset s.resp m.val ⟨0#36, [], err⟩ }
    let idle := tdmRx s p.val = false ∧ tdmTx s p.val = false
    let free := masterWaits s m.val = false
    let plain := idle ∧ free ∧ s.bit ctrl 4 = false ∧ v.getLsbD 4 = false ∧ v.getLsbD 1 = false
    let t := s.setReg ctrl (v &&& 0x2C#32)
    let quiet := mpllState s = 1 → mpllCfgBad t = false
    let runs := tdmRuns s p.val = true
    let slave := tdmMaster s p.val = false
    let need := tdmPins p.val false ++ asrcChannels t p.val false (tdmWanted t p.val false)
    let unlocked := [(Reg.ASRC_STATUS, putField (s.reg Reg.ASRC_STATUS) p.val 1 0 ||| BitVec.ofNat 32 (2 ^ (4 + p.val))),
      (Reg.ASRC_RATIO p.val, 0#32)]
    let early := fun (i : Nat) => tdmEarly s p.val phase.toNat i = true
    (plain → quiet → v.getLsbD 0 = false → Leaves (.tdmCtrlWrite p ⟨v, m⟩) s [(ctrl, v &&& 0x2C#32)] (resp false)) ∧
    (plain → quiet → v.getLsbD 0 = true → RegsWf s → tdmCfgBad t p.val = false → (∀ r ∈ need, resFree s r.1 r.2 (fnTdm p.val) = true) →
      (∀ r ∈ need, r.1 = 4 → r.2 ≤ 127 ∧ r.2 ∉ x.txCh) → Gives (.tdmCtrlWrite p ⟨v, m⟩) s fun u =>
        u.reg ctrl = (v &&& 0x2C#32) ||| 1#32 ∧ RegsSameBut [ctrl] s u ∧
        tdmAt u p.val = { x.idle with seen := false, lost := false, rxCh := (tdmAt u p.val).rxCh } ∧
        u = { with_ (tdmAt u p.val) with regs := u.regs, claims := u.claims, resp := (resp false).resp }) ∧
    (plain → quiet → v.getLsbD 0 = true → tdmCfgBad t p.val = true →
      Leaves (.tdmCtrlWrite p ⟨v, m⟩) s [(ctrl, v &&& 0x2C#32), flagSet s stat 4] (resp false)) ∧
    (plain → v.getLsbD 0 = false → mpllState s = 1 → mpllCfgBad t = true → s.tick.pending = false ∨ s.clock.fails < 2 → RegsWf s →
      Gives (.tdmCtrlWrite p ⟨v, m⟩) s fun u => u.reg ctrl = v &&& 0x2C#32 ∧ mpllState u = 4 ∧ gateOpen u = false ∧
        u.bit Reg.MPLL_STATUS 4 = true ∧ u.bit Reg.MPLL_STATUS 6 = true) ∧
    (idle → free → Leaves (.tdmFrameWrite p ⟨v, m⟩) s [(Reg.TDM_FRAME p.val, v &&& 0xFF3FF#32)] (resp false)) ∧
    (¬ idle → free → Leaves (.tdmFrameWrite p ⟨v, m⟩) s [flagSet s stat 4] (resp true)) ∧
    (runs → Gives (.tdmRxFrame p slots phase) s fun u =>
      let y := tdmAt u p.val
      y = { x with frame := slots, count := x.count + 1, lost := false, seen := true, late := y.late, held := y.held, rxHist := y.rxHist } ∧
      (∀ i < 32, (y.late.getLsbD i = true ↔ ¬ early i) ∧ (early i → y.held.getD i 0#32 = slots.getD i 0#32) ∧
        (¬ early i → y.held.getD i 0#32 = x.held.getD i 0#32) ∧
        vget y.rxHist i [] = if tdmAsync s p.val = true then asrcPush (4 * asrcTaps) (vget x.rxHist i []) (tdmSlotWord s p.val slots i)
          else vget x.rxHist i []) ∧
      u = { with_ y with regs := u.regs } ∧
      (RegsWf s → u.fld (Reg.TDM_PHASE p.val) 0 16 = phase.toNat ∧ RegsSameBut [Reg.TDM_PHASE p.val] s u)) ∧
    (runs → slave → Leaves (.tdmFsEdge p) s [flagSet s stat 1, countedAt s (Reg.TDM_SLIP_COUNT p.val) 16 16]
      (with_ { x with lost := false, seen := true })) ∧
    (¬ idle → slave → Leaves (.clkLost p) s (flagSet s stat 2 :: if asrcLocked s p.val then unlocked else []) (with_ { x with lost := true })) ∧
    (s.bit ctrl 4 = true → Leaves (.dllLock p tap) s [(Reg.TDM_DLL p.val, BitVec.ofNat 32 (256 + tap.toNat))] s) ∧
    (tdmAsync s p.val = true → runs → asrcLocked s p.val = true → Leaves (.asrcLock p ratio) s
      ((Reg.ASRC_RATIO p.val, ratio) :: if 2 ^ 26 ≤ ratio.toNat ∧ ratio.toNat ≤ 2 ^ 30 then [] else [flagSet s stat 5]) s) ∧
    (tdmAsync s p.val = true → runs → asrcLocked s p.val = false → 2 ^ 26 ≤ ratio.toNat → ratio.toNat ≤ 2 ^ 30 →
      Leaves (.asrcLock p ratio) s [fieldAt s Reg.ASRC_STATUS p.val 1 1, (Reg.ASRC_RATIO p.val, ratio)] (with_ { x with fade := 0 })) ∧
    (tdmAsync s p.val = true → runs → asrcLocked s p.val = false → ratio.toNat < 2 ^ 26 ∨ 2 ^ 30 < ratio.toNat →
      Leaves (.asrcLock p ratio) s [flagSet s stat 5] s) ∧
    (asrcLocked s p.val = true → Leaves (.asrcUnlock p) s unlocked s) ∧
    (¬ runs → NoEffect (.tdmRxFrame p slots phase) s ∧ NoEffect (.tdmFsEdge p) s ∧ NoEffect (.asrcLock p ratio) s) ∧
    (¬ slave → NoEffect (.tdmFsEdge p) s ∧ NoEffect (.clkLost p) s) ∧ (s.bit ctrl 4 = false → NoEffect (.dllLock p tap) s) ∧
    (asrcLocked s p.val = false → NoEffect (.asrcUnlock p) s)

/-- In canonical registers a write of a media PLL configuration register takes its RW bits. Where CORE does not run on the media PLL, with
EN 0 after it the PLL is OFF with its gate closed; with EN 1 and a good configuration it acquires, its gate closed, the acquisition
counted, the band at CODE, the control value and the lock count 0, and the dither LFSR seeded, zero seeding 1. Where CORE runs on the
media PLL it is to leave it at the next boundary, with the output gain at 0 and MUTE_N low, and the PLL goes on until then. MNCO_FW_HI
brings the whole of FW into force and restarts or stops the PLL in the same way while the NCO is its reference. While it acquires, a lock
opens the gate in LOCKED with the loop's control value, at most CLAMP, and a failure closes it in FAIL with both its flags, but for the
third in a row of a mode change. In LOCKED before CORE has returned, a failed test acquires again with the gate closed and the lock count
0; a loss goes to HOLDOVER with its flags, counted, the gate as it was; in HOLDOVER with the resume test met the PLL is LOCKED again.
Elsewhere each changes nothing. (12_clocking.md Media PLL) -/
def Obligations.MediaPllStates : Prop :=
  ∀ (s : State) (k : Fin 4) (v : BitVec 32) (ctrl : BitVec 10) (ref : Bool), RegsWf s →
    let t := s.setReg (mpllConfigReg k.val) (v &&& mpllConfigMask k.val)
    let f := { s.setReg Reg.MNCO_FW_HI (v &&& 0xFFFF#32) with clock := { s.clock with fw := v.extractLsb' 0 16 ++ s.reg Reg.MNCO_FW_LO } }
    let leaves := fun (u : State) => u.bit Reg.CLK_STATUS 9 = true ∧ u.tick.gain = 0 ∧ u.tick.ramp = .steady ∧ u.ports.muteN = false ∧
      mpllState u = mpllState s ∧ gateOpen u = gateOpen s ∧ coreSrc u = 1
    let off := fun (u : State) => mpllState u = 0 ∧ gateOpen u = false
    let acquires := fun (t u : State) => mpllState u = 1 ∧ gateOpen u = false ∧
      u.fld Reg.MPLL_EVENTS 0 16 = (s.fld Reg.MPLL_EVENTS 0 16 + 1) % 65536 ∧
      u.reg Reg.MPLL_LOOP = BitVec.ofNat 32 (t.fld (Reg.MPLL_BAND (mpllEntry t)) 0 6 * 1024) ∧
      u.clock.lfsr = (let x := (t.reg Reg.MPLL_SEED).extractLsb' 0 24; if x = 0#24 then 1#24 else x)
    let fails := fun (bit : Nat) (u : State) => mpllState u = 4 ∧ gateOpen u = false ∧ u.bit Reg.MPLL_STATUS 4 = true ∧
      u.bit Reg.MPLL_STATUS bit = true
    let low := s.tick.pending = false ∨ s.clock.fails < 2
    (Gives (.mpllConfigWrite k v) s fun u => u.reg (mpllConfigReg k.val) = v &&& mpllConfigMask k.val ∧
      (coreSrc s = 1 → leaves u) ∧ (coreSrc s ≠ 1 → t.bit Reg.MPLL_CFG 0 = false → off u) ∧
      (coreSrc s ≠ 1 → t.bit Reg.MPLL_CFG 0 = true → mpllCfgBad t = false → acquires t u)) ∧
    (s.fld Reg.MPLL_CFG 1 2 ≠ 0 → Gives (.mncoFwHiWrite v) s fun u => u = f) ∧
    (s.fld Reg.MPLL_CFG 1 2 = 0 → Gives (.mncoFwHiWrite v) s fun u => u.clock.fw = f.clock.fw ∧
      (coreSrc s = 1 → leaves u) ∧ (coreSrc s ≠ 1 → s.bit Reg.MPLL_CFG 0 = false → off u) ∧
      (coreSrc s ≠ 1 → s.bit Reg.MPLL_CFG 0 = true → mpllCfgBad f = false → acquires f u)) ∧
    (mpllState s = 1 → Gives (.mpllLock ctrl) s fun u => mpllState u = 2 ∧ gateOpen u = true ∧ u.bit Reg.MPLL_STATUS 8 = true ∧
      u.fld Reg.MPLL_LOOP 0 10 = min ctrl.toNat (s.fld (Reg.MPLL_BAND (mpllEntry s)) 8 10) ∧ u.fld Reg.MPLL_LOOP 16 9 = 256 ∧
      u.clock = { s.clock with fails := 0 }) ∧
    (mpllState s = 1 → low → Gives .mpllOver s (fails 5) ∧ Gives .mpllTimeout s (fails 7)) ∧
    (mpllState s = 2 → coreSrc s ≠ 1 → Gives .mpllGateClose s fun u => mpllState u = 1 ∧ gateOpen u = false ∧
      u.fld Reg.MPLL_LOOP 16 9 = 0 ∧ RegsSameBut [Reg.CLK_STATUS, Reg.MPLL_LOOP] s u ∧ u = { s with regs := u.regs }) ∧
    (mpllState s = 2 → Gives (.holdover ref) s fun u => mpllState u = 3 ∧ gateOpen u = gateOpen s ∧ u.bit Reg.MPLL_STATUS 2 = true ∧
      u.bit Reg.MPLL_STATUS (if ref then 0 else 1) = true ∧ u.fld Reg.MPLL_EVENTS 16 16 = (s.fld Reg.MPLL_EVENTS 16 16 + 1) % 65536) ∧
    (mpllState s = 3 → s.bit Reg.MPLL_ACQ 8 = true → Gives .resumed s fun u => mpllState u = 2 ∧ gateOpen u = gateOpen s ∧
      u.bit Reg.MPLL_STATUS 3 = true ∧ RegsSameBut [Reg.CLK_STATUS, Reg.MPLL_STATUS] s u ∧ u = { s with regs := u.regs }) ∧
    (mpllState s ≠ 1 → NoEffect (.mpllLock ctrl) s ∧ NoEffect .mpllOver s ∧ NoEffect .mpllTimeout s) ∧
    (mpllState s ≠ 2 → NoEffect .mpllGateClose s ∧ NoEffect (.holdover ref) s) ∧ (mpllState s ≠ 3 → NoEffect .resumed s)

/-- A write of MNCO_ADJ while the servo does not own it takes the signed value, one beyond 219,902,325 in magnitude as the nearer limit
with ADJ_CLAMP set; while the servo owns it the write sets TIME_STATUS.ADJ_OWNED, answers an error and does nothing else (the writer has
no access that waits). A slew step moves MNCO_ADJ_NOW toward MNCO_ADJ by 1,024 and not past it; where that takes the reference of an
acquisition under way out of its limits, the acquisition fails. In canonical registers a write of CLKOUT_CTRL enables each output that it
names and whose pin is free or the outputs' own, and takes the divider and the family of each output but one whose pin it could not claim,
which keeps its own. (12_clocking.md Media NCO; 12_clocking.md Clock outputs; 14_media_streams_and_time.md Servo) -/
def Obligations.SteeringAndClockOutputs : Prop :=
  ∀ (s : State) (v : BitVec 32) (m : Fin 18),
    let resp := fun (err : Bool) => { s with resp := vset s.resp m.val ⟨0#36, [], err⟩ }
    let y : Int := max (-219902325) (min 219902325 v.toInt)
    let now := (s.reg Reg.MNCO_ADJ_NOW).toInt
    let goal := (s.reg Reg.MNCO_ADJ).toInt
    let next := BitVec.ofInt 32 (if now ≤ goal then min (now + 1024) goal else max (now - 1024) goal)
    let kept := fun (k : Nat) => v.getLsbD (3 * k) = true ∧ resFree s 0 (88 + k) fnClkOut = false
    (masterWaits s m.val = false → s.bit Reg.TIME_CTRL 0 = false → Leaves (.mncoAdjWrite ⟨v, m⟩) s
      ((Reg.MNCO_ADJ, BitVec.ofInt 32 y) :: if y = v.toInt then [] else [flagSet s Reg.MPLL_STATUS 9]) (resp false)) ∧
    (masterWaits s m.val = false → s.bit Reg.TIME_CTRL 0 = true → Leaves (.mncoAdjWrite ⟨v, m⟩) s [flagSet s Reg.TIME_STATUS 3] (resp true)) ∧
    ((mpllState s = 1 → mpllCfgBad (s.setReg Reg.MNCO_ADJ_NOW next) = false) → Leaves .adjSlewStep s [(Reg.MNCO_ADJ_NOW, next)] s) ∧
    (mpllState s = 1 → mpllCfgBad (s.setReg Reg.MNCO_ADJ_NOW next) = true → s.tick.pending = false ∨ s.clock.fails < 2 → RegsWf s →
      Gives .adjSlewStep s fun u => u.reg Reg.MNCO_ADJ_NOW = next ∧ mpllState u = 4 ∧ gateOpen u = false ∧
        u.bit Reg.MPLL_STATUS 4 = true ∧ u.bit Reg.MPLL_STATUS 6 = true) ∧
    (RegsWf s → Gives (.clkoutCtrlWrite v) s fun u =>
      (∀ k < 2, u.bit Reg.CLKOUT_CTRL (3 * k) = (v.getLsbD (3 * k) && resFree s 0 (88 + k) fnClkOut)) ∧
      u.fld Reg.CLKOUT_CTRL 1 2 = (if kept 0 then s.fld Reg.CLKOUT_CTRL 1 2 else (v.extractLsb' 1 2).toNat) ∧
      u.bit Reg.CLKOUT_CTRL 4 = (if kept 1 then s.bit Reg.CLKOUT_CTRL 4 else v.getLsbD 4) ∧
      RegsSameBut [Reg.CLKOUT_CTRL, Reg.SYS_CONFLICT, Reg.SYS_STATUS] s u ∧ u = { s with regs := u.regs, claims := u.claims })

/-- In canonical registers an ETH_CTRL write to a port with both enables 0 that sets one enable, on a configuration that is not refused
and with every resource it needs free, takes its mode bits and sets that enable (a writer here has no access that waits). An idle MDIO
command register starts the command written, unless the downshift function owns its target; a busy one sets MDIO_ERR; on a powered port
the end of software's transaction clears BUSY and, of a read, shows its data, and the port's own transactions, which go first while
software has none on the bus, follow in order. A link change to a speed and duplex of the interface shows them; any other is no link (that
it does not come up is DEDUCED), and 1000 Mb/s in half duplex sets its flag; link down ends the frame on the wire. LPI entry, and receive
LPI on a link of SGMII or 2.5GBASE-X that is up, show and count. After HOLD seconds of windows below DOWN_PCT, 10 in each, a downshift
with reserved streams is refused with its flag; otherwise it saves and cuts the advertisement, takes the link down and is in force until a
return, whose ground is a window above UP_PCT, a reservation or DS_EN cleared, and which restores the advertisement and takes the link
down too. Writing a filter's last register brings all three into force. POP drops the oldest timestamp and shows the next.
(13_ethernet_macs.md MAC control; 13_ethernet_macs.md MDIO; 13_ethernet_macs.md Links; 13_ethernet_macs.md LPI and downshift;
13_ethernet_macs.md Timestamps) -/
def Obligations.EthernetLinksAndControl : Prop :=
  ∀ (s : State) (p : Fin 3) (p2 : Fin 2) (k : Fin 2) (f : Fin 32) (v : BitVec 32) (data : BitVec 16) (speed : BitVec 2) (full on : Bool)
      (m : Fin 18), RegsWf s →
    let ctrl := Reg.ETH_CTRL p.val
    let stat := Reg.ETH_STATUS p.val
    let st2 := Reg.ETH_STATUS p2.val
    let cmd := Reg.ETH_MDIO_CMD p2.val
    let w := if p = 2 then v &&& 0x3E3#32 else v &&& 0xFFF#32
    let t := s.setReg ctrl ((s.reg ctrl &&& ~~~0xFFC#32) ||| (w &&& 0xFFC#32))
    let stamps := (ethAt s p.val).stamps.drop 1
    let x2 := ethAt s p2.val
    let sgmii := speed = 0#2 ∨ speed = 1#2 ∨ speed = 2#2 ∧ full = true
    let ifc := s.fld ctrl 2 2
    let may := if p = 2 then speed = 0#2 ∧ full = false else ifc = 0 ∧ (speed = 3#2 ∧ full = true ∨ s.bit ctrl 4 = true ∧ sgmii) ∨
      ifc = 1 ∧ speed = 2#2 ∧ full = true ∨ ifc = 2 ∧ sgmii
    let hasLpi := ethPowered s = true ∧ ethLink s p2.val = true ∧ s.fld (Reg.ETH_CTRL p2.val) 2 2 ≠ 1
    let quiet := 10 * max 1 (s.fld (Reg.ETH_DS p2.val) 14 10) ≤ (utilNow s p2.val).low
    let ground := x2.util.exceeded = true ∨ reserved s p2.val = true ∨ ethEn s p2.val 11 = false
    let counted := fun (u : State) (i : Nat) => u.reg (Reg.ETH_CNT p2.val i) = s.reg (Reg.ETH_CNT p2.val i) + 1#32
    (masterWaits s m.val = false → ethAnyEn s p.val = false → v.getLsbD k.val = true → v.getLsbD (1 - k.val) = false → ethCfgBad t p.val = false →
      (∀ r ∈ mdioPins p.val ++ (if k = 0 then txPaths s p.val else []), resFree s r.1 r.2 (fnEth p.val) = true) → s.bit stat 6 = false →
      Gives (.ethCtrlWrite p ⟨v, m⟩) s fun u => u.reg ctrl &&& 0xFFC#32 = w &&& 0xFFC#32 ∧ u.bit ctrl k.val = true ∧
        u.bit ctrl (1 - k.val) = false ∧ RegsSameBut [ctrl] s u ∧
        u = { s with regs := u.regs, claims := u.claims, resp := vset s.resp m.val ⟨0#36, [], false⟩ }) ∧
    (masterWaits s m.val = false → s.bit (Reg.ETH_CTRL p2.val) 11 = true → v.extractLsb' 0 2 = 0#2 → v.getLsbD 11 = false → s.bit st2 6 = true → x2.settle = false →
      Gives (.ethCtrlWrite ⟨p2.val, by omega⟩ ⟨v, m⟩) s fun u => u.bit st2 6 = false ∧ ethLink u p2.val = false ∧ ethAnyEn u p2.val = false) ∧
    (s.bit cmd 31 = false → mdioOwned s p2.val v = false →
      Leaves (.ethMdioCmdWrite p2 v) s [(cmd, (v &&& 0xFFFFFFF#32) ||| 0x80000000#32)]
        (putEth s p2.val { x2 with swBus := x2.own.isEmpty })) ∧
    (s.bit cmd 31 = true ∨ mdioOwned s p2.val v = true → Leaves (.ethMdioCmdWrite p2 v) s [flagSet s st2 15] s) ∧
    (ethPowered s = true → s.bit cmd 31 = true → x2.own = [] ∨ x2.swBus = true → Leaves (.mdioComplete p2 data) s
      (fieldAt s cmd 31 1 0 :: if s.bit cmd 26 then [(Reg.ETH_MDIO_DATA p2.val, data.zeroExtend 32)] else [])
      (putEth s p2.val { x2 with swBus := false, mdio := some (mdioSoft s p2.val data) })) ∧
    (∀ st rest, ethPowered s = true → x2.own = st :: rest → x2.swBus = false → Gives (.mdioComplete p2 data) s fun u =>
      u.regs = s.regs ∧ (ethAt u p2.val).mdio = some (dsStep s p2.val x2.saved data st).1 ∧
      (ethAt u p2.val).own = (match st with | .control => .restart (data ||| 0x200#16) :: rest | _ => rest) ∧
      ∀ k < 3, vget (ethAt u p2.val).saved k 0#16 = if st = .save k then data else vget x2.saved k 0#16) ∧
    (ethPowered s = true → may → (ethAt s p.val).settle = false ∨ (ethAt s p.val).returning = true ∨
        reserved s p.val = false ∧ s.bit ctrl 11 = true → Gives (.linkChange p true speed full) s fun u =>
      ethLink u p.val = true ∧ ethSpeed u p.val = speed.toNat ∧ ethFull u p.val = full ∧ u.bit stat 8 = true) ∧
    (ethPowered s = true → ¬ may → Gives (.linkChange p true speed full) s fun u => ethLink u p.val = false ∧
      (p ≠ 2 → speed = 2#2 → full = false → u.bit stat 16 = true)) ∧
    (ethLink s p.val = true → Gives (.linkChange p false speed full) s fun u => ethLink u p.val = false ∧ (ethAt u p.val).now = none ∧
      u.bit stat 8 = true) ∧
    (ethEn s p2.val 10 = true → s.fld (Reg.ETH_CTRL p2.val) 2 2 ≠ 1 → ethLink s p2.val = true → 1 ≤ ethSpeed s p2.val → reserved s p2.val = false → (ethAt s p2.val).now = none →
      s.bit st2 4 = false → (∀ q < 8, vget (ethAt s p2.val).txq q [] = []) → Gives (.lpiEntry p2) s fun u => u.bit st2 4 = true ∧
        counted u 53) ∧
    (hasLpi → Gives (.lpiRx p2 on) s fun u => u.bit st2 5 = on ∧ (on = true → s.bit st2 5 = false → counted u 30)) ∧
    (¬ hasLpi → NoEffect (.lpiRx p2 on) s) ∧
    (quiet → ethEn s p2.val 11 = true → s.bit st2 6 = false → x2.settle = false → ethLink s p2.val = true → dsTarget s p2.val < ethSpeed s p2.val →
      (reserved s p2.val = true → Leaves (.downshift p2) s [flagSet s st2 14] s) ∧
      (reserved s p2.val = false → Gives (.downshift p2) s fun u => u.bit st2 6 = true ∧ ethLink u p2.val = false ∧ counted u 54 ∧
        (ethAt u p2.val).settle = true ∧ (ethAt u p2.val).returning = false ∧ [.save 0, .save 1, .save 2] <+: (ethAt u p2.val).own.drop x2.own.length)) ∧
    (¬ quiet → NoEffect (.downshift p2) s) ∧
    (ground → s.bit st2 6 = true → x2.settle = false → Gives (.downshiftReturn p2) s fun u => u.bit st2 6 = false ∧ ethLink u p2.val = false ∧
      (ethAt u p2.val).settle = true ∧ (ethAt u p2.val).returning = true ∧
      (ethAt u p2.val).own = x2.own ++ [.restore 0, .restore 1, .restore 2, .control]) ∧
    (Leaves (.ethFiltCWrite p f v) s [(Reg.ETH_FILT_C p.val f.val, v &&& 0x81FF7FFF#32)] (putEth s p.val { ethAt s p.val with
      filt := vset (ethAt s p.val).filt f.val (s.reg (Reg.ETH_FILT_A p.val f.val) ++ s.reg (Reg.ETH_FILT_B p.val f.val) ++
        (v &&& 0x81FF7FFF#32)) })) ∧
    (Gives (.txtsPop p) s fun u => (ethAt u p.val).stamps = stamps ∧ u.reg (Reg.ETH_TXTS_STAT p.val) = BitVec.ofNat 32 stamps.length ∧
      ∀ e rest, stamps = e :: rest → u.reg (Reg.ETH_TXTS_NS p.val) = BitVec.ofNat 32 (timeNs e.time) ∧
        (u.reg (Reg.ETH_TXTS_TAG p.val)).extractLsb' 0 16 = e.tag) ∧
    (ethPowered s = false ∨ s.bit cmd 31 = false ∧ (x2.own = [] ∨ x2.swBus = true) → NoEffect (.mdioComplete p2 data) s) ∧
    (ethPowered s = false → NoEffect (.linkChange p true speed full) s) ∧
    (ethLink s p.val = false → NoEffect (.linkChange p false speed full) s) ∧
    (¬ ground ∨ s.bit st2 6 = false ∨ x2.settle = true → NoEffect (.downshiftReturn p2) s)

/-- A plain descriptor of a produced slot on an empty queue whose frame fits, with no read that waits for the yard, queues that frame. A
start at a frame boundary, where every queued frame is within the limits, puts the head of the highest eligible queue, or the pair's
downlink before it, on the wire; a frame that has come to exceed them is not sent and counts; a cut-through frame whose buffer empties
after 256 bytes or more ends there with its FCS inverted, its flag set and counted; the end of a frame on a powered port counts it as
good, clears the wire and keeps the bytes sent, padded and with their FCS. In half duplex the n-th collision below 16 counts and waits a
free number of slots below 2^min(n, 10); a late one ends the frame and counts; in full duplex nothing happens; the end of a wait starts
the frame again at the time it ends. In canonical registers a good frame admitted to a queue with no descriptor waits there and counts; a
bad frame that some filter took, or none, counts in the counter of its first condition and, beside the measure of utilisation, nothing
else; a good frame of the pair's audio EtherType joins the audio frames. An audio cycle boundary of the running pair takes the next cycle
number, drops and counts a downlink frame not sent, holds a new one and starts a new set of uplinks, those of the cycle before playing
unless audio waited; an uplink frame of a claimed channel is kept once, a second counts, any other counts as bad. (13_ethernet_macs.md
Transmit; 13_ethernet_macs.md Receive; 13_ethernet_macs.md Audio on the pair; 15_host_interface.md Ethernet rings) -/
def Obligations.EthernetFramesAndPairAudio : Prop :=
  ∀ (s : State) (p : Fin 3) (q : Fin 8) (c : BitVec 64) (d x fr : List Byte) (al co late : Bool) (ds : List (List Byte))
      (em : Option (BitVec 14)), RegsWf s →
    let qq := ethQueue p.val q.val
    let slot := ringSlot s (txRing p.val qq) (ringCi s (txRing p.val qq))
    let g1 := hostGet s (ethMaster p.val) slot 32 d false
    let n1 := descField g1.1 8 4 % 2 ^ 20
    let g2 := hostGet g1.2.2 (ethMaster p.val) (descField g1.1 0 8) n1 (x.take n1) false
    let e := txEntryOf s p.val qq g1.1 g2.1
    let y := ethAt s p.val
    let s1 := creditsNow (elapse s c.toNat) p.val
    let fits := ∀ k < 8, ∀ e ∈ vget y.txq k [], e.drop = true ∨ ∀ f ∈ e.frames, txTooLong s p.val k f = false
    let meters := fun (u : State) => ∀ k < 3, ethAt u k = { ethAt s k with util := (ethAt u k).util }
    let ready := fits ∧ ethEn s p.val 0 = true ∧ ethLink s p.val = true ∧ ethPowered s = true ∧ y.now = none ∧ s.bit (Reg.ETH_STATUS p.val) 4 = false
    let pair := p = 2 ∧ be16 fr (etypeAt fr) = s.fld Reg.T1S_AUDIO 1 16
    let takes := ethEn s p.val 1 = true ∧ ethLink s p.val = true ∧ ethPowered s = true ∧ ¬ pair
    let cnt := fun (u : State) (i : Nat) => u.reg (Reg.ETH_CNT p.val i) = s.reg (Reg.ETH_CNT p.val i) + 1#32
    let cnt2 := fun (u : State) (i : Nat) => u.reg (Reg.ETH_CNT 2 i) = s.reg (Reg.ETH_CNT 2 i) + 1#32
    let cycle := t1sRuns s = true ∧ acquiring s = false ∧ s.tick.sampleCnt.toNat % (64 * t1sRatio s) = 0 ∧
      s.t1s.last ≠ some s.tick.sampleCnt
    (hostHolds s (ethMaster p.val) slot 32 = false → hostHolds s (ethMaster p.val) (descField g1.1 0 8) n1 = false →
      ethEn s p.val 0 = true → ethPowered s = true → 0 < ringReady s (txRing p.val qq) → txSrc s p.val qq = false → vget y.txq qq [] = [] →
      g1.2.1 = false → g2.2.1 = false → descField g1.1 8 4 / 2 ^ 20 % 8 = 0 → txTooLong s p.val qq g2.1 = false →
      g2.1.length ≤ s.fld (Reg.ETH_TXQ p.val qq) 0 7 * 1024 →
      Gives (.txDescriptor p q d x false) s fun u => vget (ethAt u p.val).txq qq [] = [e.1] ∧
        e.1.frames = [g2.1] ∧ u.bit (Reg.ETH_STATUS p.val) 4 = false) ∧
    (ready → (p = 2 → s.t1s.down = none) → ∀ n, [7, 6, 5, 4, 3, 2, 1, 0].find? (txEligible s1 p.val) = some n →
      ∀ g rest, vget y.txq n [] = g :: rest →
        let sent := g.frames.headD []
        let cut := fun (b : Nat) => g.store = false ∧ ethFull s p.val = true ∧ em.map BitVec.toNat = some b ∧ 256 ≤ b ∧ b < sent.length
        ((∀ b, ¬ cut b) → Gives (.txFrameStart p c late em) s fun u =>
          (ethAt u p.val).now = some ⟨n, sent, (elapse s c.toNat).time.t⟩ ∧ (ethAt u p.val).collisions = 0) ∧
        (∀ b, cut b → Gives (.txFrameStart p c late em) s fun u => (ethAt u p.val).now = none ∧
          (ethAt u p.val).wire = wireBytes (sent.take b) false ∧ cnt u 44 ∧ u.bit (Reg.ETH_STATUS p.val) 9 = true)) ∧
    (ready → p = 2 → ∀ g, s.t1s.down = some g → Gives (.txFrameStart p c late em) s fun u =>
      (ethAt u p.val).now = some ⟨8, g, (elapse s c.toNat).time.t⟩ ∧ u.t1s.down = none) ∧
    (∀ g f, y.now = none → (p = 2 → s.t1s.down = none) → vget y.txq 0 [] = [g] → (∀ k < 8, k ≠ 0 → vget y.txq k [] = []) → g.drop = false →
      g.frames = [f] → txTooLong s p.val 0 f = true → Gives (.txFrameStart p c late em) s fun u =>
        (ethAt u p.val).now = none ∧ vget (ethAt u p.val).txq 0 [] = [] ∧ cnt u 52) ∧
    (∀ g, y.now = some g → y.backoff = none → ethPowered s = true → Gives (.txFrameEnd p c) s fun u => (ethAt u p.val).now = none ∧
      (ethAt u p.val).wire = wireBytes g.bytes true ∧ cnt u 32) ∧
    (y.now.isSome = true → ethFull s p.val = false → y.backoff = none → y.collisions + 1 < 16 → Gives (.collision p false) s fun u =>
      u = putEth { s with freeCtr := s.freeCtr + 1 } p.val { y with
        collisions := y.collisions + 1,
        backoff := some ((Config.freeBackoff s.freeCtr).toNat % 2 ^ min (y.collisions + 1) 10) }) ∧
    (y.now.isSome = true → ethFull s p.val = false → y.backoff = none → Gives (.collision p true) s fun u =>
      (ethAt u p.val).now = none ∧ cnt u 48) ∧
    (ethFull s p.val = true → NoEffect (.collision p late) s) ∧
    (y.backoff.isSome = true → Gives (.backoffEnd p) s fun u =>
      u = putEth s p.val { y with backoff := none, now := y.now.map fun f => { f with time := s.time.t } }) ∧
    (y.backoff = none → NoEffect (.backoffEnd p) s) ∧
    (pair → ethEn s 2 1 = true → ethLink s 2 = true → ethPowered s = true → rxBad s 2 fr al co = none →
      Gives (.rxFrame p fr al co c ds) s fun u => cnt u 0 ∧ u.t1s = { s.t1s with inbox := s.t1s.inbox ++ [fr] } ∧ meters u) ∧
    (takes → ∀ n g, rxClassify s p.val fr = .queue n g → rxOccupied s p.val n + ethMaxLen s p.val ≤ s.fld (Reg.ETH_RXQ p.val n) 0 8 * 1024 →
      rxBad s p.val fr al co = none → ringReady s (rxRing p.val n) = 0 → n < 8 → Gives (.rxFrame p fr al co c ds) s fun u =>
        cnt u 0 ∧ ∃ h : RxFrame, vget (ethAt u p.val).rxq n [] = vget y.rxq n [] ++ [h] ∧ h.bytes = fr ∧ h.filter = g) ∧
    (takes → ∀ b, rxBad s p.val fr al co = some b → (∀ n g, rxClassify s p.val fr ≠ .queue n g) → Gives (.rxFrame p fr al co c ds) s fun u =>
      cnt u b ∧ meters u ∧ u.stream = s.stream ∧ u.host = s.host) ∧
    (cycle → Gives .t1sAudioCycle s fun u => u.t1s.cycle = s.t1s.cycle + 1#16 ∧ u.t1s.down.isSome = true ∧ u.t1s.got = [] ∧
      u.t1s.waits = false ∧ u.t1s.last = some s.tick.sampleCnt ∧
      (s.t1s.down.isSome = true → s.t1s.waits = false → cnt2 u 58) ∧
      u.t1s.plays = if s.t1s.waits then [] else s.t1s.got.filter fun z => s.t1s.up.getLsbD z.1) ∧
    (¬ cycle → NoEffect .t1sAudioCycle s) ∧ (s.t1s.inbox = [] → NoEffect .t1sUplinkFrame s) ∧
    (∀ g rest, s.t1s.inbox = g :: rest → t1sRuns s = true →
      let o := g.drop (etypeAt g + 2)
      let ch := (o.getD 1 0#8).toNat
      let ours := o.headD 0#8 = 2#8 ∧ ch < 16 ∧ s.t1s.up.getLsbD ch = true
      let again := s.t1s.got.any (fun z => decide (z.1 = ch)) = true
      (ours → ¬ again → Gives .t1sUplinkFrame s fun u =>
        u = { s with t1s := { s.t1s with inbox := rest, got := s.t1s.got ++ [(ch, (o.drop 8).take 32)] } }) ∧
      (ours → again → Gives .t1sUplinkFrame s fun u => u.t1s = { s.t1s with inbox := rest } ∧ cnt2 u 57 ∧ u.bit Reg.T1S_ASTATUS 9 = true) ∧
      (¬ ours → Gives .t1sUplinkFrame s fun u => u.t1s = { s.t1s with inbox := rest } ∧ cnt2 u 60))

/-- LOAD sets TIME to TIME_SET, and ADD moves it by the signed nanoseconds of TIME_SET; each sets STEPPED, and the media counter re-
anchors at the next frame tick. An edge captured on an enabled channel whose source is a pin shows TIME as it stands, sets CAP, and
CAP_OVR where the last capture was not read; on any other channel only the cycles pass. An enabled compare that TIME has reached starts
its pulse, sets CMP, and with a period moves its compare time on by it; without one it has fired, and waits no more (the model's choice,
log entry 91). One that has fired or is not reached only lets the cycles pass. The end of a pulse lowers its output. Where the channel
drives its pin, the pin's edge detector sees the level change. In canonical registers a capture channel, or compare channel, that is not
enabled and whose resources are free is enabled with its fields by a write of EN; a capture write without EN takes its fields alone. Where
one of the resources is another's, EN reads 0 and nothing changes but the record of the conflict. (14_media_streams_and_time.md TIME;
14_media_streams_and_time.md Captures and compares) -/
def Obligations.TimeStepsCapturesAndCompares : Prop :=
  ∀ (s : State) (c : Fin 4) (k : Fin 2) (n : BitVec 64) (v : BitVec 32), RegsWf s →
    let e := elapse s n.toNat
    let ns := e.time.t / 2 ^ 28 % 1000000000
    let sec := e.time.t / (1000000000 * 2 ^ 28)
    let unread := s.time.unread.getLsbD c.val
    let set := ((s.reg Reg.TIME_SET_SEC_LO).toNat + s.fld Reg.TIME_SET_SEC_HI 0 16 * 2 ^ 32) * 1000000000 + (s.reg Reg.TIME_SET_NS).toNat
    let stepped := fun (u : State) => u.time.reanchor = true ∧ u.bit Reg.TIME_STATUS 2 = true
    let pin := s.fld (Reg.TIME_CAP_CFG c.val) 1 3 < 3
    let bit := BitVec.ofNat 2 (2 ^ k.val)
    let waits := cmpEn s k.val = true ∧ s.time.fired.getLsbD k.val = false
    let once := s.reg (Reg.TIME_CMP_PERIOD k.val) = 0#32
    let next := cmpTime s k.val + (s.reg (Reg.TIME_CMP_PERIOD k.val)).toNat
    let was := s.time.out.getLsbD k.val
    let edge := fun (lev : Bool) => edgeAt s (92 + k.val) was (if timeDrives s (92 + k.val) then lev else was)
    let refused := fun (l : List (Nat × Nat)) => ∃ r ∈ l, resFree s r.1 r.2 fnTime = false
    let conflict := fun (cfg : Nat) (u : State) => u.bit cfg 0 = false ∧ u = { s with regs := u.regs } ∧
      RegsSameBut [Reg.SYS_CONFLICT, Reg.SYS_STATUS] s u ∧ u.bit Reg.SYS_STATUS 1 = true
    (Gives .timeLoad s fun u => u.time.t = set * 2 ^ 28 % (2 ^ 48 * timeSecond) ∧ stepped u) ∧
    (Gives .timeAdd s fun u => (u.time.t : Int) = ((s.time.t : Int) + (s.reg Reg.TIME_SET_NS).toInt * 2 ^ 28) %
      ((2 ^ 48 * timeSecond : Nat) : Int) ∧ stepped u) ∧
    (s.bit (Reg.TIME_CAP_CFG c.val) 0 = true → pin → Leaves (.timeCapture c n) s
      [(Reg.TIME_CAP_NS c.val, BitVec.ofNat 32 ns), (Reg.TIME_CAP_SEC_LO c.val, BitVec.ofNat 32 sec),
       (Reg.TIME_CAP_SEC_HI c.val, BitVec.ofNat 32 (sec / 2 ^ 32)),
       (Reg.TIME_STATUS, s.reg Reg.TIME_STATUS ||| BitVec.ofNat 32 (2 ^ (8 + c.val) + if unread then 2 ^ (16 + c.val) else 0))]
      { e with time := { e.time with unread := s.time.unread ||| BitVec.ofNat 4 (2 ^ c.val) } }) ∧
    (s.bit (Reg.TIME_CAP_CFG c.val) 0 = false ∨ ¬ pin → Gives (.timeCapture c n) s fun u => u = e) ∧
    (waits → cmpPast e k.val = true → Leaves (.timeCompare k n) s
      (edge true :: flagSet s Reg.TIME_STATUS (12 + k.val) :: if once then [] else
        [(Reg.TIME_CMP_NS k.val, BitVec.ofNat 32 (next % 1000000000)), (Reg.TIME_CMP_SEC k.val, BitVec.ofNat 32 (next / 1000000000))])
      { e with time := { e.time with
        out := s.time.out ||| bit
        fired := if once then s.time.fired ||| bit else s.time.fired &&& ~~~bit } }) ∧
    (¬ waits ∨ cmpPast e k.val = false → Gives (.timeCompare k n) s fun u => u = e) ∧
    (Leaves (.comparePulseEnd k) s [edge false] { s with time := { s.time with out := s.time.out &&& ~~~bit } }) ∧
    (s.bit (Reg.TIME_CAP_CFG c.val) 0 = false → v.getLsbD 0 = true →
      (∀ r ∈ capClaims c.val (v.extractLsb' 1 3).toNat, resFree s r.1 r.2 fnTime = true) → Gives (.timeCapCfgWrite false c v) s fun u =>
        u.reg (Reg.TIME_CAP_CFG c.val) = v &&& 0xF#32 ∧ RegsSameBut [Reg.TIME_CAP_CFG c.val] s u ∧
        u = { s with regs := u.regs, claims := u.claims }) ∧
    (s.bit (Reg.TIME_CAP_CFG c.val) 0 = false → v.getLsbD 0 = false →
      Leaves (.timeCapCfgWrite false c v) s [(Reg.TIME_CAP_CFG c.val, v &&& 0xE#32)] s) ∧
    (s.bit (Reg.TIME_CAP_CFG c.val) 0 = false → v.getLsbD 0 = true → refused (capClaims c.val (v.extractLsb' 1 3).toNat) →
      Gives (.timeCapCfgWrite false c v) s (conflict (Reg.TIME_CAP_CFG c.val))) ∧
    (c.val < 2 → cmpEn s c.val = false → v.getLsbD 0 = true → refused (cmpClaims c.val) →
      Gives (.timeCapCfgWrite true c v) s (conflict (Reg.TIME_CMP_CFG c.val))) ∧
    (c.val < 2 → cmpEn s c.val = false → v.getLsbD 0 = true → (∀ r ∈ cmpClaims c.val, resFree s r.1 r.2 fnTime = true) →
      Gives (.timeCapCfgWrite true c v) s fun u => cmpEn u c.val = true ∧
        u.fld (Reg.TIME_CMP_CFG c.val) 8 8 = (v.extractLsb' 8 8).toNat) ∧
    (2 ≤ c.val → NoEffect (.timeCapCfgWrite true c v) s)

/-- A write is performed where its master has no access waiting. A stopped stream takes any register written, its enable only on a good
configuration, else it sets CFG_REJECT; a running one refuses a change of its fields with CFG_REJECT and an error response, and stops when
its enable is cleared. Beyond the last register a write has no effect but its response. A transmit packet due, its template's bank not
held, on a linked port whose empty queue has room for it is queued with the samples gathered, and counted; on a port without link it is
dropped, counted and flagged; either way the next packet starts empty with the next sequence number. A received frame of no stream in
service counts as unmatched; one whose samples all lie ahead within the stream's depth leaves every tick of it with samples held, and a
lost stream then runs. A loss of a running stream empties it and shows LOST; elsewhere it does nothing. (14_media_streams_and_time.md
Streams) -/
def Obligations.MediaStreams : Prop :=
  ∀ (s : State) (rx : Bool) (i : Fin 64) (o : Fin 8) (v : BitVec 32) (a : Fin 18), RegsWf s →
    let base := if rx then Reg.SRX_CTRL i.val else Reg.STX_CTRL i.val
    let m := if rx then 0xFFFFFFC6#32 else 0x3FFFFFE#32
    let t := s.setReg base (v &&& m)
    let bad := if rx then srxBad t i.val else stxBad t i.val
    let on := s.bit base 0 = true
    let rej := flagSet s Reg.STR_STATUS 0
    let w := Instr.stxCtrlWrite rx i o ⟨v, a⟩
    let now := masterWaits s a.val = false
    let resp := fun (t : State) (err : Bool) => { t with resp := vset t.resp a.val ⟨0#36, [], err⟩ }
    let stop := if rx then putSrx s i.val RxStream.zero else putStx s i.val TxStream.zero
    let x := stxAt s i.val
    let p := stxPort s i.val
    let q := stxQueue s i.val
    let due := x.on = true ∧ x.count = stxP s i.val ∧ x.start + BitVec.ofNat 64 x.count = s.tick.media ∧ streamsWait s = false ∧
      blockHolds s masterStream (s.fld (Reg.STX_HDR i.val) 0 25 / 4 * 4) (stxHdrLen s i.val) false = false
    let started := fun (u : State) => stxAt u i.val = { x with samples := [], count := 0, seq := x.seq + 1#16, ident := x.ident + 1#16 }
    let template := yardReadBytes s masterStream (s.fld (Reg.STX_HDR i.val) 0 25 / 4 * 4) (stxHdrLen s i.val)
    (now → o ≠ 0 → o.val < (if rx then 5 else 4) → ¬ on → Leaves w s [(base + 4 * o.val, v)] (resp s false)) ∧
    (now → o ≠ 0 → o.val < (if rx then 5 else 4) → on → Leaves w s [rej] (resp s true)) ∧
    (now → o = 0 → ¬ on → v.getLsbD 0 = false → Leaves w s [(base, v &&& m)] (resp s false)) ∧
    (now → o = 0 → ¬ on → v.getLsbD 0 = true → bad = false → Leaves w s [(base, (v &&& m) ||| 1#32)] (resp s false)) ∧
    (now → o = 0 → ¬ on → v.getLsbD 0 = true → bad = true → Leaves w s [(base, v &&& m), rej] (resp s false)) ∧
    (now → o = 0 → on → v &&& m = s.reg base &&& m → v.getLsbD 0 = true → Leaves w s [] (resp s false)) ∧
    (now → o = 0 → on → v &&& m ≠ s.reg base &&& m → v.getLsbD 0 = true → Leaves w s [rej] (resp s true)) ∧
    (now → o = 0 → on → v &&& m ≠ s.reg base &&& m → v.getLsbD 0 = false → Leaves w s
      (rej :: fieldAt s base 0 1 0 :: if rx then [fieldAt s (Reg.SRX_STATE i.val) 0 2 0] else []) (resp stop true)) ∧
    (now → (if rx then 5 else 4) ≤ o.val → Leaves w s [] (resp s false)) ∧
    (now → o = 0 → on → v &&& m = s.reg base &&& m → v.getLsbD 0 = false → Leaves w s
      (fieldAt s base 0 1 0 :: if rx then [fieldAt s (Reg.SRX_STATE i.val) 0 2 0] else [])
      (resp stop false)) ∧
    (due → ethLink s p = true → vget (ethAt s p).txq q [] = [] → template.2.1 = false →
      stxHdrLen s i.val + x.samples.length ≤ s.fld (Reg.ETH_TXQ p q) 0 7 * 1024 → Gives (.streamTxPacket i) s fun u => started u ∧
        (∃ (e : TxEntry) (h : List Byte), vget (ethAt u p).txq q [] = [e] ∧ e.frames = [h ++ x.samples] ∧ e.ring = false) ∧
        u.fld (Reg.STX_COUNT i.val) 0 16 = (s.fld (Reg.STX_COUNT i.val) 0 16 + 1) % 65536) ∧
    (due → ethLink s p = false → Gives (.streamTxPacket i) s fun u => started u ∧ u.eth = s.eth ∧ u.bit Reg.STR_STATUS 2 = true ∧
      u.fld (Reg.STX_COUNT i.val) 16 16 = (s.fld (Reg.STX_COUNT i.val) 16 16 + 1) % 65536) ∧
    (¬ due → NoEffect (.streamTxPacket i) s) ∧ (s.stream.inbox = [] → NoEffect .streamRxPacket s) ∧
    (∀ fr rest, s.stream.inbox = fr :: rest →
      let f := fr.take (fr.length - 4)
      let size := strBytes s (Reg.SRX_CTRL i.val) * strCh s (Reg.SRX_CTRL i.val)
      (srxMatch s f = none → Leaves .streamRxPacket s [(Reg.STR_UNMATCHED, s.reg Reg.STR_UNMATCHED + 1#32)]
        { s with stream := { s.stream with inbox := rest } }) ∧
      (∀ pk, srxMatch s f = some i.val → streamsWait s = false →
        streamParse f (strCh s (Reg.SRX_CTRL i.val)) (strBytes s (Reg.SRX_CTRL i.val)) s.rate = some pk → pk.good = true →
        let n := pk.payload.length / size
        let m0 := packetTick s i.val pk
        pk.payload.length % size = 0 → 1 ≤ n → n ≤ 64 → (s.tick.media.toNat : Int) < m0 → m0 ≤ s.tick.media.toNat + srxDepth s i.val →
        Gives .streamRxPacket s fun u => (∀ k < n, srxHolds (srxAt u i.val) (m0 + k).toNat = true) ∧ u.stream.inbox = rest ∧
          (s.fld (Reg.SRX_STATE i.val) 0 2 = 3 → u.fld (Reg.SRX_STATE i.val) 0 2 = 2))) ∧
    ((srxAt s i.val).on = true → s.fld (Reg.SRX_STATE i.val) 0 2 = 2 → Leaves (.streamLoss i) s [fieldAt s (Reg.SRX_STATE i.val) 0 2 3]
      (putSrx s i.val { srxAt s i.val with buf := [] })) ∧
    ((srxAt s i.val).on = false ∨ s.fld (Reg.SRX_STATE i.val) 0 2 ≠ 2 → NoEffect (.streamLoss i) s)

namespace Sys2Proof.Claims

open Sys2Proof Sys2Proof.Machine

/-- The command `i` of opcode `op` completes with a status and its details, and leaves `t` but for the completion. -/
def Answers (i : Instr) (s : State) (op : Nat) (tag : BitVec 16) (status d0 d1 : Nat) (t : State) : Prop :=
  exec i s = .next (settle (cmdComplete t op tag status d0 d1 t.tick.frameCnt))

/-- A command executes: the handler takes it, its fetch as `g` gives it yields `c` and leaves `t`, and nothing bars it. -/
def Runs (s : State) (g c : Command) (t : State) : Prop :=
  cmdReady s = true ∧ cmdFetch s g = (some c, t) ∧ cmdBarred t c.opcode.toNat = none

/-- `i` completes, and the index of ring 0 has moved past its slot. -/
def Finishes (i : Instr) (s : State) (P : State → Prop) : Prop := Gives i s fun u => ringCi u 0 = (ringCi s 0 + 1) % 65536 ∧ P u

/-- The descriptors (Table 15-5) of COMMIT of `mask` with group `g` and the wait `w`, and of MODE_SET of mode `m`, family `f`, group `g`. -/
def commitSlot (tag : BitVec 16) (mask : BitVec 64) (g : BitVec 4) (w : Bool) : Command :=
  { opcode := 0x20#16, tag := tag, arg0 := mask.extractLsb' 0 32, arg1 := mask.extractLsb' 32 32,
    arg2 := g.setWidth 32 ||| if w then 256#32 else 0#32 }
def modeSlot (tag : BitVec 16) (m : BitVec 3) (f : Bool) (g : BitVec 4) : Command :=
  { opcode := 0x30#16, tag := tag, arg0 := m.setWidth 32 ||| (if f then 16#32 else 0#32) ||| (g.setWidth 32 <<< 8) }

end Sys2Proof.Claims

/-- In host mode, with the interrupts of rings 0 and 1 off, a completion writes the 32-byte record with the tag, the status, the opcode,
both details, the command's index and the frame count into the next slot of ring 1, advances both indexes, writes both mirror entries, and
changes nothing else. In host mode a fetch yields the command given, and changes nothing but HOST_TAGS and the free counter (the model's
choice of a free peak, log entry 29); in local mode it yields what the yard holds at the slot, and a command of another opcode than the
slot's, or one of a slot that cannot be read or whose read the yard holds back, does not execute. With no command produced, no free
completion slot, a command that holds the ring or a handler not yet open, no command executes; and one that SAFE or the END state bars
completes with that status and has no effect. A command whose buffer the host cannot read answers HOST_ERR with the offset. A COMMIT that
holds its slot, whose sets have all swapped or whose group was aborted, and whose completion is due with a free completion slot, releases
the ring and answers ABORTED with its group, PARTIAL with the sets refused, or OK; until then, and with none that holds, nothing happens.
(15_host_interface.md Commands; 15_host_interface.md Rings; 15_host_interface.md Failed reads) -/
def Obligations.CompletionsOfCommands : Prop :=
  (∀ (s : State) (op status d0 d1 : Nat) (tag : BitVec 16) (frame : BitVec 64) (mask addr : BitVec 64) (g : BitVec 4) (data : List Byte)
      (a n : BitVec 32) (w late : Bool) (m : BitVec 3) (k : BitVec 16),
      let n0 := (ringCi s 0 + 1) % 65536
      let n1 := (ringCi s 1 + 1) % 65536
      let record := [tag.toNat + status * 65536 + op % 256 * 2 ^ 24, d0, d1, ringCi s 0, frame.toNat % 2 ^ 32, frame.toNat / 2 ^ 32, 0, 0]
      let mem := Cells.setAll (Cells.setAll (Cells.setAll s.host.mem (ringSlot s 1 (ringCi s 1) % 2 ^ 64) (leDwords record))
        (mirrorAddr s 1 % 2 ^ 64) (leNat 4 n1)) (mirrorAddr s 0 % 2 ^ 64) (leNat 4 n0)
      let u := cmdComplete s op tag status d0 d1 frame
      let cmd := fun (o : BitVec 16) => ({ opcode := o, tag := tag } : Command)
      let move := fun (o : BitVec 16) => ({ opcode := o, tag := tag, arg0 := a, len := n, addr := addr } : Command)
      let all := [(cmd 1, Instr.nopCommand 1 tag), ({ cmd 2 with addr := addr }, .identify tag addr), (move 0x10, .loadWords tag a n addr data),
        (move 0x11, .readWords tag a n addr), (move 0x12, .loadBytes tag a n addr data), (move 0x13, .readBytes tag a n addr),
        (commitSlot tag mask g w, .commitCommand tag mask g w),
        ({ cmd 0x21 with arg0 := a, arg1 := n, arg2 := g.setWidth 32 }, .groupMask tag a n g),
        ({ cmd 0x22 with arg2 := g.setWidth 32 }, .abortGroup tag g), (modeSlot tag m w g, .modeSet tag m w g),
        ({ cmd 0x31 with len := n, addr := addr }, .policyLoad tag n addr data), (move 0x40, .flashProgram tag a n addr data),
        ({ cmd 0x41 with arg0 := a, len := n }, .flashErase tag a n), ({ cmd 0x50 with arg0 := a }, .resetCommand tag a)]
      let held := hostHolds s masterHost (ringSlot s 0 (ringCi s 0)) 32
      let slot := hostGet s masterHost (ringSlot s 0 (ringCi s 0)) 32 [] false
      (RegsWf s → hostLocal s = false → s.bit (Reg.RING_CFG 0) 1 = false → s.bit (Reg.RING_CFG 1) 1 = false →
        u.reg (Reg.RING_STATE 0) = putField (s.reg (Reg.RING_STATE 0)) 0 16 n0 ∧ u.reg (Reg.RING_STATE 1) = putField (s.reg (Reg.RING_STATE 1)) 0 16 n1 ∧
        RegsSameBut [Reg.RING_STATE 0, Reg.RING_STATE 1] s u ∧ u = { s with regs := u.regs, host := { s.host with mem := mem } }) ∧
      (RegsWf s → hostLocal s = false → ∀ c, ∃ t, cmdFetch s c = (some c, t) ∧ RegsSameBut [Reg.HOST_TAGS] s t ∧
        t = { s with regs := t.regs, freeCtr := t.freeCtr }) ∧
      (cmdReady s = false → ∀ x ∈ all, NoEffect x.2 s) ∧
      (cmdReady s = true → held = true → ∀ x ∈ all, NoEffect x.2 s) ∧
      (cmdReady s = true → hostLocal s = true → held = false → slot.2.1 = true → ∀ x ∈ all, Gives x.2 s fun u => u = ringFail slot.2.2 0) ∧
      (cmdReady s = true → hostLocal s = true → held = false → slot.2.1 = false → ∀ x ∈ all, x.1.opcode.toNat ≠ descField slot.1 0 2 → NoEffect x.2 s) ∧
      (cmdReady s = true → ∀ x ∈ all, ∀ c t r, cmdFetch s x.1 = (some c, t) → cmdBarred t c.opcode.toNat = some r →
        Answers x.2 s c.opcode.toNat c.tag r.1 r.2 0 t) ∧
      (hostLocal s = false → ∀ c t, Runs (hostReadFail s late) (cmd k) c t →
        Answers (.hostReadError (.command k tag n) late) s k.toNat tag 4 n.toNat 0 t) ∧
      (s.boot.lc = 4#3 → op ∉ [0x01, 0x02, 0x50] → cmdBarred s op = some (5, 8)) ∧
      (inSafe s = true → cmdBarred s op = none → op ∈ [0x01, 0x02, 0x12, 0x13, 0x40, 0x41, 0x50])) ∧
  (∀ (s : State) (h : CommitWait),
      let t := { s with host := { s.host with held := none } }
      let due := h.aborted = true ∨ (h.late = 0#64 ∧ (h.wait = false ∨ h.live = 0#64))
      let frame := if h.wait = true ∧ h.live = 0#64 ∧ h.frame ≠ 0#64 then h.frame else s.tick.frameCnt
      let ends := fun (status d0 d1 : Nat) => exec .commitWaitCompletion s = .next (settle (cmdComplete t 0x20 h.tag status d0 d1 frame))
      (s.host.held = some h → due → ringReady s 1 ≠ 0 →
        (h.aborted = true → ends 7 h.group.toNat 0) ∧
        (h.aborted = false → h.refused ≠ 0#64 → ends 6 (h.refused.toNat % 2 ^ 32) (h.refused.toNat / 2 ^ 32)) ∧
        (h.aborted = false → h.refused = 0#64 → ends 0 0 0)) ∧
      (s.host.held = some h → ¬ due ∨ ringReady s 1 = 0 → NoEffect .commitWaitCompletion s) ∧
      (s.host.held = none → NoEffect .commitWaitCompletion s))

/-- Where a command executes: NOP answers OK and an unlisted opcode BAD_OPCODE, with no effect; a listed opcode's own command has its
effect. IDENTIFY writes its record at the buffer's address. LOAD_WORDS and READ_WORDS of 1 to 1,048,576 words within the word space, and
LOAD_BYTES and READ_BYTES within the yard, which need not wait for an access, for an access made before or for their buffer, move their
data in rising order and answer OK, or TARGET with the index of the first not moved; READ_BYTES within flash answers its bytes; one that
must wait does nothing yet, and any other range is BAD_ARG. A buffer that cannot be read answers HOST_ERR with the offset. GROUP_MASK of a
group sets its masks to the sets that exist, of group 0 is BAD_ARG; ABORT_GROUP discards the group's commits. POLICY_LOAD of a good table
makes it the next in force, and of a bad one answers BAD_ARG with the first bad byte's offset and no effect. (15_host_interface.md
Commands) -/
def Obligations.HostMoves : Prop :=
  ∀ (s t : State) (c : Command) (op tag : BitVec 16) (a n : BitVec 32) (addr : BitVec 64) (data : List Byte) (g : BitVec 4),
    let cmd := fun (o : BitVec 16) => ({ opcode := o, tag := tag } : Command)
    let move := fun (o : BitVec 16) => ({ opcode := o, tag := tag, arg0 := a, len := n, addr := addr } : Command)
    let x := c.arg0.toNat
    let len := c.len.toNat
    let words := wordRange x len = true
    let bytes := yardRange x len = true
    let flash := flashRange x len = true
    let waits := fun (own : Bool) (k : Nat) => masterWaits t masterHost = true ∨ own = true ∨ hostHolds t masterHost c.addr.toNat k = true
    let wordsHeld := waits (wordsWait t x len) (8 * len)
    let bytesHeld := (bytes ∨ flash) ∧ waits (bytesWait t x len) len
    let buf := fun (k : Nat) => cmdBuffer t c.addr k data
    let moved := fun (i : Instr) (k : Nat) (r : Option Nat × State) => match r.1 with
      | none => Answers i s k c.tag 0 0 0 r.2
      | some j => Answers i s k c.tag 3 j 0 r.2
    let unread := fun (i : Instr) (k n : Nat) => ∀ o, (buf n).2.1 = some o → Answers i s k c.tag 4 o 0 (buf n).2.2
    let identity := [(t.reg Reg.SYS_ID).toNat, (t.reg Reg.BOOT_SEQ).toNat,
      (if t.tick.entered then t.tick.mode.toNat + (if t.tick.family then 16 else 0) else 3) + t.boot.lc.toNat * 256,
      t.fld Reg.BOOT_SAFE 0 8 + (if t.boot.slot = some 1 then 256 else 0) + (if t.bit Reg.BOOT_STATUS 2 then 512 else 0), 0, 0, 0, 0]
    let k := (c.arg2.extractLsb' 0 4).toNat
    let group := [(Reg.SL_GMASK_LO (k - 1), c.arg0 &&& 0x1FFFFFFF#32), (Reg.SL_GMASK_HI (k - 1), 0#32)]
    (Runs s (cmd 1) c t → Answers (.nopCommand 1 tag) s 1 c.tag 0 0 0 t) ∧
    (op.toNat ∉ hostOpcodes → Runs s (cmd op) c t → Answers (.nopCommand op tag) s op.toNat c.tag 1 0 0 t) ∧
    (op.toNat ∈ hostOpcodes → op ≠ 1#16 → NoEffect (.nopCommand op tag) s) ∧
    (Runs s { cmd 2 with addr := addr } c t → Answers (.identify tag addr) s 2 c.tag 0 0 0 (hostPut t c.addr.toNat (leDwords identity))) ∧
    (Runs s (move 0x10) c t → let i := Instr.loadWords tag a n addr data
      (words → wordsHeld → NoEffect i s) ∧ (¬ words → Answers i s 0x10 c.tag 2 0 0 t) ∧
      (words → ¬ wordsHeld → unread i 0x10 (8 * len) ∧ ((buf (8 * len)).2.1 = none →
        moved i 0x10 (loadWords (buf (8 * len)).2.2 x 0 ((List.range len).map (bufferWord (buf (8 * len)).1)))))) ∧
    (Runs s (move 0x11) c t → let i := Instr.readWords tag a n addr
      (words → wordsHeld → NoEffect i s) ∧ (¬ words → Answers i s 0x11 c.tag 2 0 0 t) ∧
      (words → ¬ wordsHeld → let r := readWords t x 0 len
        moved i 0x11 (r.2.1, hostPut r.2.2 c.addr.toNat (r.1.flatMap wordBytes)))) ∧
    (Runs s (move 0x12) c t → let i := Instr.loadBytes tag a n addr data
      (bytesHeld → NoEffect i s) ∧ (¬ bytesHeld → ¬ bytes → Answers i s 0x12 c.tag 2 0 0 t) ∧
      (¬ bytesHeld → bytes → unread i 0x12 len ∧ ((buf len).2.1 = none →
        moved i 0x12 (loadBytes (buf len).2.2 0 (buf len).1 (byteChunks (x - 0x10000000) len))))) ∧
    (Runs s (move 0x13) c t → let i := Instr.readBytes tag a n addr
      (bytesHeld → NoEffect i s) ∧ (¬ bytesHeld → ¬ bytes → ¬ flash → Answers i s 0x13 c.tag 2 0 0 t) ∧
      (¬ bytesHeld → bytes → let r := readBytes t 0 (byteChunks (x - 0x10000000) len)
        moved i 0x13 (r.2.1, hostPut r.2.2 c.addr.toNat r.1)) ∧
      (¬ bytesHeld → flash → Answers i s 0x13 c.tag 0 0 0
        (hostPut t c.addr.toNat ((List.range len).map fun j => flashByte t (x + j))))) ∧
    (Runs s { cmd 0x21 with arg0 := a, arg1 := n, arg2 := g.setWidth 32 } c t → let i := Instr.groupMask tag a n g
      (k = 0 → Answers i s 0x21 c.tag 2 0 0 t) ∧
      (k ≠ 0 → RegsWf t → ∃ u, Answers i s 0x21 c.tag 0 0 0 u ∧ (∀ p ∈ group, u.reg p.1 = p.2) ∧
        RegsSameBut (group.map Prod.fst) t u ∧ u = { t with regs := u.regs })) ∧
    (Runs s { cmd 0x22 with arg2 := g.setWidth 32 } c t → ∃ u, Answers (.abortGroup tag g) s 0x22 c.tag 0 0 0 u ∧ u.regs = t.regs ∧
      ∀ j : Fin 29, setAt u j.val = if k ≠ 0 ∧ abortHits t (c.arg2.extractLsb' 0 4) j.val = true then
        { setAt t j.val with committed := false, deferred := false } else setAt t j.val) ∧
    (Runs s { cmd 0x31 with len := n, addr := addr } c t → let i := Instr.policyLoad tag n addr data
      let b := buf len
      let held := hostHolds t masterHost c.addr.toNat len = true
      (held → NoEffect i s) ∧ (¬ held → unread i 0x31 len) ∧ (¬ held → b.2.1 = none → match policyBad b.1 with
        | some o => Answers i s 0x31 c.tag 2 o 0 b.2.2
        | none => ∃ u p, Answers i s 0x31 c.tag 0 0 0 u ∧ u.sup.next = some p ∧ p.rules = (policyOf b.1 true).rules ∧
            p.period = (policyOf b.1 true).period ∧ u.sup.rules = b.2.2.sup.rules))

/-- Where a command executes, in canonical registers: COMMIT of one set that is idle and that no test refuses commits it with the group
given; without the wait the command finishes, and with it the command holds its slot until the set swaps, when its completion is written.
In host mode, MODE_SET of a running mode that no reason refuses starts the sequence, and with a reason changes no tick state; of STANDBY
or SAFE, while a mode runs, it answers OK and then makes the request; before, it is refused with TRANSITION (the model's reading, log
entry 100). FLASH_PROGRAM of one permitted, erased granule makes its bytes those given, FLASH_ERASE of one permitted block makes its bytes
FFH, and neither changes another byte; a range that is no whole number of them within the slot regions is BAD_ARG, one of the running
image's slot REFUSED, and while a flash operation runs both wait. RESET with no argument holds the device in reset with the reason of a
host command; with one it has no effect. (15_host_interface.md Commands; 18_boot_and_lifecycle.md Flash) -/
def Obligations.HostChanges : Prop :=
  ∀ (s t : State) (c : Command) (tag : BitVec 16) (k : Fin 29) (g : BitVec 4) (wait : Bool) (m : BitVec 3) (fam : Bool) (a n : BitVec 32)
    (addr : BitVec 64) (data : List Byte), RegsWf t →
    let move := fun (o : BitVec 16) => ({ opcode := o, tag := tag, arg0 := a, len := n, addr := addr } : Command)
    let finishes := fun (i : Instr) (P : State → Prop) => Gives i s fun u => ringCi u 0 = (ringCi t 0 + 1) % 65536 ∧ P u
    let x := setAt t k.val
    let one := Instr.commitCommand tag (BitVec.ofNat 64 (2 ^ k.val)) g wait
    let committed := fun (u : State) => setAt u k.val = { x with committed := true, group := g } ∧ ∀ j, j ≠ k.val → setAt u j = setAt t j
    let y := c.arg0.toNat
    let len := c.len.toNat
    let program := Instr.flashProgram tag a n addr data
    let erase := Instr.flashErase tag a n
    let eraseSlot : Command := { opcode := 0x41#16, tag := tag, arg0 := a, len := n }
    let busy := t.bit Reg.FL_STATUS 0 = true
    let flash := fun (u : State) (size : Nat) (v : Nat → Byte) => (∀ i < size, flashByte u (y + i) = v i) ∧
      ∀ b, (b < y ∨ y + size ≤ b) → flashByte u b = flashByte t b
    let outside := fun (size : Nat) => y % size ≠ 0 ∨ len % size ≠ 0 ∨ y < 0x10000 ∨ 0x710000 < y + len
    let running := t.boot.slot.isSome ∧ slotOf y = t.boot.slot ∧ len ≠ 0
    (Runs s (commitSlot tag (BitVec.ofNat 64 (2 ^ k.val)) g wait) c t → hostLocal s = false → commitReads t k.val = false →
      x.copying = false → commitRefused (t.setFld (commitReg k.val) 4 4 g.toNat) k.val g false = none →
      (wait = false → finishes one committed) ∧
      (wait = true → Gives one s fun u => committed u ∧ ringCi u 0 = ringCi t 0 ∧ ∃ h, u.host.held = some h ∧ h.tag = tag ∧
        h.live = BitVec.ofNat 64 (2 ^ k.val) ∧ h.late = 0#64 ∧ h.refused = 0#64)) ∧
    (Runs s (modeSlot tag m fam g) c t → hostLocal s = false → let i := Instr.modeSet tag m fam g
      (isRunMode m = true → modeReason t m fam g = 0 → finishes i fun u => u.bit Reg.SUP_STATE 15 = true ∧
        u.tick.seq = ⟨.accepted, .mode, m, fam, g, needsAcquisition t m fam, 0, false⟩ ∧ u.tick.mode = t.tick.mode) ∧
      (isRunMode m = true → modeReason t m fam g ≠ 0 → finishes i fun u => u.tick = t.tick) ∧
      (m = 1#3 ∨ m = 3#3 → modeRuns t = true → Gives i s fun u =>
        u = (modeRequest (cmdComplete t 0x30 tag 0 0 0 t.tick.frameCnt) 0 0 m fam g).2) ∧
      (m = 1#3 ∨ m = 3#3 → modeRuns t = false → finishes i fun u => u.tick = t.tick)) ∧
    (Runs s (move 0x40) c t → hostLocal s = false →
      (busy → NoEffect program s) ∧ (¬ busy → outside 16 → Answers program s 0x40 tag 2 0 0 t) ∧
      (¬ busy → ¬ outside 16 → running → Answers program s 0x40 tag 5 7 0 t) ∧
      (Memory.wf t = true → n = 16#32 → data.length = 16 → ¬ outside 16 → ¬ running → flashRefusal t false y = 0 →
        finishes program fun u => flash u 16 (fun i => data.getD i 0#8) ∧ u.yard = t.yard)) ∧
    (Runs s eraseSlot c t → hostLocal s = false →
      (busy → NoEffect erase s) ∧ (¬ busy → outside 65536 → Answers erase s 0x41 tag 2 0 0 t) ∧
      (¬ busy → ¬ outside 65536 → running → Answers erase s 0x41 tag 5 7 0 t) ∧
      (Memory.wf t = true → n = 65536#32 → ¬ outside 65536 → ¬ running → flashRefusal t true y = 0 →
        finishes erase fun u => flash u 65536 (fun _ => 0xFF#8) ∧ u.yard = t.yard)) ∧
    (Runs s { opcode := 0x50#16, tag := tag, arg0 := a } c t → let i := Instr.resetCommand tag a
      (c.arg0 = 0#32 → t.power.phase = .running → Gives i s fun u => u.power.phase = .held ∧ u.tick.entered = false ∧
        u.reg Reg.PWR_RST = BitVec.ofNat 32 (0x12 + t.fld Reg.PWR_RST 0 8 * 256) ∧ u.boot.flash = t.boot.flash ∧ u.pending = s.pending) ∧
      (c.arg0 ≠ 0#32 → Answers i s 0x50 c.tag 2 0 0 t))

/-- In canonical registers: link-up of a running device, at a speed and width that the table has, shows them and takes the function's
settings, and on a link that is up so does that alone; elsewhere it has no effect. What stops the interface clears every ring's EN, drops
the completion of a command in execution, returns the function's settings to their reset values and sets its flag; it clears the link
fields but for a Function Level Reset and entry to D3hot, which leave the link up; a Function Level Reset returns every ring register to
its reset value as well. A write is performed where its master has no access waiting. An enable of an existing ring with a size of 16 to
4,096, an aligned base and, in SAFE, a number of 0 or 1 sets EN with both indexes 0 and STOPPED clear; clearing EN clears it. A change of
SIZE alone of an enabled ring answers an error, and no other write does. A ring other than an audio ring whose disable is in progress,
with no command held and no frame unsent, stops, and any other does not. A doorbell of an enabled ring that moves PI forward by no more
than the slots shows it; one that moves it back or too far sets ERR and RING_ERR. A failed descriptor read of an enabled ring sets ERR,
STOPPED and RING_ERR. The end of a moderation interval with nothing gathered ends it, and otherwise sends the ring's message. LOCAL
changes only while no ring is enabled; else CFG_REJECT and an error response. ACK with a host source pending, the vector enabled and
unmasked writes its data at its address, and with none pending does nothing. (15_host_interface.md Link; 15_host_interface.md Rings;
15_host_interface.md Interrupts; 15_host_interface.md Local mode; 22_address_map_registers.md Interrupts) -/
def Obligations.HostLinkAndRings : Prop :=
  ∀ (s : State) (r : Fin 64) (v : BitVec 32) (speed width : BitVec 2) (pci : PciSettings) (m : Fin 18)
      (why : LinkStop) (t : Bool), RegsWf s →
    let cfg := Reg.RING_CFG r.val
    let stat := Reg.RING_STATE r.val
    let door := Reg.HOST_DOORBELL r.val
    let size := 2 ^ (v.extractLsb' 2 4).toNat
    let pi := (v.extractLsb' 0 16).toNat
    let ci := ringCi s r.val
    let plain := ∀ a : Fin 16, r.val ≠ 4 + a.val
    let b := BitVec.ofNat 64 (2 ^ r.val)
    let vec := s.fld Reg.HOST_VEC_AGG 0 5
    let now := masterWaits s m.val = false
    let link := 1 + speed.toNat * 2 + width.toNat * 8
    let trained := speed ≠ 0#2 ∧ width ≠ 0#2 ∧ width ≠ 3#2
    let up := Instr.hostLinkUp speed width pci.limits pci.msixOn pci.funcMask
    let stays := why = .flr ∨ why = .d3hot
    let flr := why = .flr
    let ends := s.host.stopping.getLsbD r.val = true ∧ ringEn s r.val = false
    let resp := fun (err : Bool) => vset s.resp m.val ⟨0#36, [], err⟩
    let other := decide (v.getLsbD 0 ≠ hostLocal s) && anyRingEn s
    (s.power.phase = .running → trained → Gives up s fun u => u.fld Reg.HOST_STATUS 0 5 = link ∧ u.host.pci = pci) ∧
    (s.power.phase = .running → trained → s.fld Reg.HOST_STATUS 0 5 = link → s.host.pba = 0#32 → Gives up s fun u =>
      u = { s with host := u.host } ∧ u.host.mem = s.host.mem ∧ u.host.evtSeq = s.host.evtSeq ∧ u.host.pci = pci) ∧
    (s.power.phase ≠ .running ∨ ¬ trained → NoEffect up s) ∧
    (Gives (.hostLinkDown why) s fun u => u.bit cfg 0 = false ∧ u.host.held = none ∧ u.host.pci = HostState.zero.pci ∧
      u.fld Reg.HOST_STATUS 0 5 = (if stays then s.fld Reg.HOST_STATUS 0 5 else 0) ∧
      u.bit Reg.HOST_STATUS (if flr then 9 else 8) = true ∧ (flr → u.reg cfg = regReset cfg ∧ u.reg stat = regReset stat) ∧
      u.yard = s.yard ∧ u.tick = s.tick) ∧
    (now → ringEn s r.val = false → v.getLsbD 0 = true → r ≠ 3 → r.val < 54 → 16 ≤ size → size ≤ 4096 →
      (s.reg (Reg.RING_BASE_LO r.val)).toNat % min 4096 (32 * size) = 0 → (inSafe s = true → r.val ≤ 1) → plain →
      Gives (.ringCfgWrite r ⟨v, m⟩) s fun u => ringEn u r.val = true ∧ ringSize u r.val = size ∧ ringPi u r.val = 0 ∧ ringCi u r.val = 0 ∧
        u.bit stat 17 = false) ∧
    (now → v.getLsbD 0 = false → Gives (.ringCfgWrite r ⟨v, m⟩) s fun u => ringEn u r.val = false) ∧
    (now → Gives (.ringCfgWrite r ⟨v, m⟩) s fun u => u.resp = resp (ringEn s r.val && decide (size ≠ ringSize s r.val))) ∧
    (ends → plain → s.host.held = none → (∀ x, txQueueOf r.val = some x → txOwed s x.1 x.2 = []) → Gives (.ringStopped r) s fun u =>
      u.bit stat 17 = true ∧ u.host.stopping.getLsbD r.val = false) ∧
    (¬ ends → NoEffect (.ringStopped r) s) ∧
    (hostLocal s = t → ringEn s r.val = true → rxQueueOf r.val = none → plain → (pi + 65536 - ci) % 65536 ≤ ringSize s r.val →
      (ringPi s r.val + 65536 - ci) % 65536 ≤ (pi + 65536 - ci) % 65536 → Leaves (.doorbell r v t []) s [(door, BitVec.ofNat 32 pi)] s) ∧
    (hostLocal s = t → ringEn s r.val = true → rxQueueOf r.val = none →
      (ringSize s r.val < (pi + 65536 - ci) % 65536 ∨ (pi + 65536 - ci) % 65536 < (ringPi s r.val + 65536 - ci) % 65536) → r ≠ 2 →
      Gives (.doorbell r v t []) s fun u => u.bit stat 16 = true ∧ u.bit Reg.HOST_STATUS 11 = true ∧ u.reg door = s.reg door) ∧
    (ringEn s r.val = false ∨ hostLocal s ≠ t → NoEffect (.doorbell r v t []) s) ∧
    (hostLocal s = false → ringEn s r.val = true → Gives (.hostReadError (.descriptor r) t) s fun u => u.bit stat 16 = true ∧
      u.bit stat 17 = true ∧ u.bit Reg.HOST_STATUS 11 = true ∧ u.bit Reg.HOST_STATUS (if t then 13 else 12) = true) ∧
    (hostLocal s = true → NoEffect (.hostReadError (.descriptor r) t) s) ∧
    (s.host.modRun.getLsbD r.val = true → s.host.modPend.getLsbD r.val = false → Gives (.moderationEnd r) s fun u =>
      u = { s with host := { s.host with modRun := s.host.modRun &&& ~~~b } }) ∧
    (s.host.modRun.getLsbD r.val = true → s.host.modPend.getLsbD r.val = true → Gives (.moderationEnd r) s fun u =>
      u = msixSend { s with host := { s.host with modPend := s.host.modPend &&& ~~~b } } (s.fld cfg 6 5)) ∧
    (s.host.modRun.getLsbD r.val = false → NoEffect (.moderationEnd r) s) ∧
    (now → Gives (.hostCtrlWrite ⟨v, m⟩) s fun u => (u.bit Reg.HOST_CTRL 0 = if other then hostLocal s else v.getLsbD 0) ∧
      u.bit Reg.HOST_CTRL 1 = (v.getLsbD 1 || inSafe s) ∧ u.bit Reg.HOST_STATUS 15 = (s.bit Reg.HOST_STATUS 15 || other) ∧
      u.resp = resp other ∧ RegsSameBut [Reg.HOST_CTRL, Reg.HOST_STATUS] s u ∧ u = { s with regs := u.regs, resp := u.resp }) ∧
    (irqPendHost s = 0#32 → NoEffect .irqAck s) ∧
    (irqPendHost s ≠ 0#32 → s.bit Reg.HOST_VEC_AGG 8 = true → hostLocal s = false → s.host.pci.msixOn = true → s.host.pci.funcMask = false →
      (msixWord s (4 * vec + 3)).getLsbD 0 = false → Gives .irqAck s fun u => u.regs = s.regs ∧ u.host.mem = Cells.setAll s.host.mem
        (((msixWord s (4 * vec)).toNat + (msixWord s (4 * vec + 1)).toNat * 2 ^ 32) % 2 ^ 64) (leNat 4 (msixWord s (4 * vec + 2)).toNat))

/-- In an input ring in service that does not wait, with no period in progress and EN 1, a period start begins the period at the present
media count with the data fetched for it; where that is missing it plays none and counts LATE. With one slot produced, no period in
progress and nothing fetched or owed, a fetch holds the data for the next period: the host's, or in local mode, where the yard holds
neither read back, what the yard holds at the descriptor's address; a read that is held leaves the period unfetched. In host mode the
oldest period that an output ring ended is written at its descriptor's address, with its descriptor's results and the ring's index
advanced, where its descriptor was produced by its end and none is owed; where it was not, the period counts OVERRUN, and with no
descriptor produced it is owed. A ring out of service, one that waits, and one with no period ended change nothing. (15_host_interface.md
Host audio) -/
def Obligations.HostAudioRings : Prop :=
  ∀ (s : State) (a : Fin 8) (data desc : List Byte), RegsWf s →
    let x := audAt s a.val
    let y := audAt s (8 + a.val)
    let out := 12 + a.val
    let need := 4 * audCh s a.val * audPeriod s a.val
    let cnt := Reg.RING_AUDCNT a.val
    let next := (ringCi s out + 1) % 65536
    let mine := fun (e : Nat × List Byte) => decide (e.1 = x.period) && decide (e.2.length = need)
    let begins := fun (u : State) => (audAt u a.val).begun = true ∧ (audAt u a.val).pos = 0 ∧ (audAt u a.val).period = x.period ∧
      (audAt u a.val).start = s.tick.media
    let slot := ringSlot s (4 + a.val) (ringCi s (4 + a.val))
    let desc0 := hostGet s masterHost slot 32 [] false
    let body := hostGet desc0.2.2 masterHost (descField desc0.1 0 8) need [] false
    let idle := audRuns s a.val = true ∧ x.begun = false ∧ ringEn s (4 + a.val) = true
    (idle → ∀ e, x.fetched.find? mine = some e → Gives (.ainPeriodStart a) s fun u => begins u ∧ (audAt u a.val).data = some e.2 ∧
      u = { s with host := { s.host with aud := u.host.aud } }) ∧
    (idle → x.fetched.find? mine = none → Gives (.ainPeriodStart a) s fun u => begins u ∧ (audAt u a.val).data = none ∧
      u.fld cnt 0 16 = (s.fld cnt 0 16 + 1) % 65536) ∧
    (audRuns s a.val = false → NoEffect (.ainPeriodStart a) s) ∧
    (x.begun = false → x.owed = [] → x.fetched = [] → ringReady s (4 + a.val) ≠ 0 →
      (hostLocal s = false → Leaves (.ainDescriptorFetch a data) s [(Reg.HOST_TAGS, (tagsNote (tagsNote s true 32) true need).reg Reg.HOST_TAGS)]
        { putAud s a.val { x with fetched := [(x.period, data)] } with freeCtr := (tagsNote (tagsNote s true 32) true need).freeCtr }) ∧
      (hostLocal s = true → hostHolds s masterHost slot 32 = true → NoEffect (.ainDescriptorFetch a data) s) ∧
      (hostLocal s = true → hostHolds s masterHost slot 32 = false → hostHolds s masterHost (descField desc0.1 0 8) need = false → desc0.2.1 = false → body.2.1 = false → Gives (.ainDescriptorFetch a data) s fun u =>
        (audAt u a.val).fetched = [(x.period, body.1)] ∧ u.yard = body.2.2.yard)) ∧
    (∀ e rest, y.ended = e :: rest → y.owed = [] → e.slot = true → hostLocal s = false →
      s.bit (Reg.RING_CFG out) 1 = false → Gives (.aoutPeriodEnd a desc) s fun u => (audAt u (8 + a.val)).ended = rest ∧
        ringCi u out = next ∧ u.host.mem = Cells.setAll (Cells.setAll (Cells.setAll s.host.mem (descField desc 0 8 % 2 ^ 64) e.bytes)
          ((ringSlot s out (ringCi s out) + 16) % 2 ^ 64) (leDwords [e.start.toNat % 2 ^ 32, e.start.toNat / 2 ^ 32,
            1 + (if e.interrupted then 8 else 0), e.count])) (mirrorAddr s out % 2 ^ 64) (leNat 4 next)) ∧
    (∀ e rest, y.ended = e :: rest → e.slot = false → Gives (.aoutPeriodEnd a desc) s fun u =>
      (ringReady s out = 0 → audAt u (8 + a.val) = { y with ended := rest, owed := y.owed ++ [(e.index, e.start)] }) ∧
      u.fld (Reg.RING_AUDCNT (8 + a.val)) 16 16 = (s.fld (Reg.RING_AUDCNT (8 + a.val)) 16 16 + 1) % 65536) ∧
    (y.ended = [] → NoEffect (.aoutPeriodEnd a desc) s)

namespace Sys2Proof.Claims

open Sys2Proof Sys2Proof.Machine

/-- The access is served at once: nothing of the master waits, and the access itself need not wait (R378, R385, R389, R416). -/
def Served (s : State) (m : Fin 18) (x : Access) : Prop := masterWaits s m.val = false ∧ accessWaits s m.val x = false

/-- The last response that master `m` received. -/
def respOf (u : State) (m : Fin 18) : Response := vget u.resp m.val ⟨0#36, [], false⟩

/-- The canonical form of the yard. -/
def YardWf (s : State) : Prop := Cells.wf zeroAt s.yard = true

end Sys2Proof.Claims

/-- A word-space access of the yard by a master that reaches it and that is served: where the bank admits the master, a write makes the
word read as written, with no ECC mark, and changes no other word, and a read answers the word, zero where it is uncorrectable, and
changes no yard word; where the bank does not, the response is an error, a read answers zero, no word changes, and in canonical registers
MEM_STATUS.OWN_ERR stands with the access in MEM_OWN_INFO. An admitted and served byte-view write of n bytes at offset o, all within the
yard, leaves byte o + i of the byte view equal to the i-th byte written; every word no byte falls in is unchanged; every word touched has
bits [35:32] as its bank's EXT bit says: zero, or copies of bit 31; a byte of a touched word that is not written keeps its value, where
the word was not uncorrectable. The write-back of a word that is marked for it and still correctable leaves it good, and no yard word and
no other word's condition changes; for a word not marked nothing happens. With SCRUB_EN clear a scrub changes nothing; with it set no yard
word changes, no word's condition does but that of a correctable word in the row of a spare bank that holds no logical bank, which is
corrected, and where an uncorrectable word of the row stands, in canonical registers MEM_STATUS.UE stands. (16_memory_and_crossbar.md) -/
def Obligations.YardAccesses : Prop :=
  (∀ (s : State) (m : Fin 18) (w : BitVec 23) (d : Word), m ≠ 0 → (m = 17 → debugOpen s = true) →
      let a := w.toNat
      let wr := fun (P : State → Prop) => Served s m (.writeWord (BitVec.ofNat 24 a) d) → Gives (.yardWordAccess m w (some d)) s P
      let rd := fun (P : State → Prop) => Served s m (.readWord (BitVec.ofNat 24 a)) → Gives (.yardWordAccess m w none) s P
      let refused := fun (write : Nat) (u : State) => (respOf u m).err = true ∧ (respOf u m).word = 0#36 ∧ u.yard = s.yard ∧ u.ecc = s.ecc ∧
        (RegsWf s → u.bit Reg.MEM_STATUS 2 = true ∧ u.reg Reg.MEM_OWN_INFO = BitVec.ofNat 32 (a / 0x40000 + m.val * 256 + write * 8192))
      (yardAdmits s m.val a = true → wr fun u => (YardWf s → Cells.get u.yard a = d) ∧
        (∀ b, b ≠ a → Cells.get u.yard b = Cells.get s.yard b ∧ u.mark b = s.mark b) ∧ (respOf u m).err = false ∧
        u = { s with yard := u.yard, ecc := u.ecc, wb := u.wb, resp := u.resp }) ∧
      (yardAdmits s m.val a = true → rd fun u => (respOf u m).word = eccWord (s.mark a) (Cells.get s.yard a) ∧ u.yard = s.yard ∧ u.ecc = s.ecc ∧
        ((respOf u m).err = true ↔ s.mark a = 2#2 ∧ uePropagates m.val = true)) ∧
      (yardAdmits s m.val a = false → wr (refused 1)) ∧ (yardAdmits s m.val a = false → rd (refused 0))) ∧
  (∀ (s : State) (m : Fin 18) (o : BitVec 25) (data : List Byte), m ≠ 0 → (m = 17 → debugOpen s = true) → data ≠ [] →
      o.toNat + data.length ≤ 0x2000000 → yardAdmitsBytes s m.val o.toNat data.length = true → Memory.wf s = true →
      Served s m (.writeBytes (BitVec.ofNat 32 (0x10000000 + o.toNat)) (data.map some)) →
      Gives (.yardByteWrite m o data) s fun u =>
        let touched := fun (w : Nat) => o.toNat / 4 ≤ w ∧ w ≤ (o.toNat + data.length - 1) / 4
        let byte := fun (t : State) (b : Nat) => wordByte (Cells.get t.yard (b / 4)) (b % 4)
        (∀ i, (h : i < data.length) → byte u (o.toNat + i) = data[i]) ∧
        (∀ w, ¬ touched w → Cells.get u.yard w = Cells.get s.yard w) ∧
        (∀ w, touched w → (Cells.get u.yard w).extractLsb' 32 4 =
          if s.bit (Reg.MEM_BANK_ATTR (w / 0x40000)) 0 = true ∧ (Cells.get u.yard w).getLsbD 31 = true then 15#4 else 0#4) ∧
        (∀ b, s.mark (b / 4) ≠ 2#2 → (b < o.toNat ∨ o.toNat + data.length ≤ b) → byte u b = byte s b) ∧
        (respOf u m).err = false) ∧
  (∀ (s : State) (w : BitVec 23) (row : BitVec 16),
      (Cells.read (fun _ => false) s.wb w.toNat = true → s.mark w.toNat = 1#2 → Cells.wf zeroAt s.ecc = true →
        Gives (.correctedWordWriteBack w) s fun u => u.mark w.toNat = 0#2 ∧ (∀ b, b ≠ w.toNat → u.mark b = s.mark b) ∧
          u = { s with ecc := u.ecc, wb := u.wb }) ∧
      (Cells.read (fun _ => false) s.wb w.toNat = false → exec (.correctedWordWriteBack w) s = .next (settle s)) ∧
      (s.bit Reg.MEM_CTRL 0 = false → exec (.scrubRow row) s = .next (settle s)) ∧
      (s.bit Reg.MEM_CTRL 0 = true → Gives (.scrubRow row) s fun u => u.yard = s.yard ∧
        (Cells.wf zeroAt s.ecc = true → ∀ k, u.mark k = if s.mark k = 1#2 ∧ spareKey (spareBank s) ≤ k ∧ k < spareKey 36 ∧
          k % 0x40000 / 4 = row.toNat then 0#2 else s.mark k) ∧
        (RegsWf s → (∃ x ∈ s.ecc, x.2 = 2#2 ∧ x.1 < 0x800000 ∧ x.1 % 0x40000 / 4 = row.toNat) → u.bit Reg.MEM_STATUS 1 = true)))

/-- A served write by the control core, the host or the farrier: a program-store word of a rill role is stored when its page is not in
use, and refused with PROG_REJECT and no change of any engine when it is; a code word of a basin role likewise with CODE_REJECT; a word of
a rill role's staged region is stored in the shadow, never in the copy in force, and refused while the set is busy
(SL_STATUS.STAGE_REJECT) or while CVIEW shows the copy in force (WIN_ERR); a fabric table word is stored in the fabric's shadow. A refused
write answers an error. A spare that shadows the role takes the same write, and otherwise does not change; its own windows take writes
only while it is parked, and else set WIN_ERR; its store takes them where that part is not in use. (04_rill_engines.md;
06_basin_engines.md; 09_rill_bus_mix_fabric.md; 10_cascade_eq_and_safe_load.md) -/
def Obligations.WindowWrites : Prop :=
  ∀ (s : State) (m : Fin 18) (re : Fin 16) (be : Fin 8) (k : Fin 98304) (c : BitVec 16) (o : Fin 21248) (t : Fin 202752) (d : Word),
    m ∈ [1, 11, 16] → rillClosed s re.val = false → basinClosed s be.val = false → rillClosed s 16 = false → basinClosed s 8 = false →
    let at_ := fun (a : Nat) => Access.writeWord (BitVec.ofNat 24 a) d
    let pa := rillWin re.val + 0x20000 + k.val
    let ca := basinWin be.val + 0x40000 + c.toNat
    let oa := rillWin re.val + 0x38000 + o.val
    let ta := 0xFA0000 + t.val
    let rex := fun (u : State) => vget u.rill 16 RillEngine.zero
    let rexWith := fun (u : State) (e : RillEngine) => rex u = if rexShadows s re.val then e else rex s
    let sp := rillWin 16 + 0x20000 + k.val
    let sc := basinWin 8 + 0x40000 + c.toNat
    let stored := progPut (rex s).prog k.val d
    let half := decide (0x8000 ≤ c.toNat)
    let eng := fun (u : State) => u.rill = s.rill ∧ u.basin = s.basin ∧ u.fabric = s.fabric ∧ (respOf u m).err = true
    (Served s m (at_ pa) → pageInUse s re.val (k.val / 0x8000) = false → Gives (.programStoreWrite m ⟨re.val, by omega⟩ k d) s fun u =>
      rillEng u re = { rillEng s re with prog := (rillEng u re).prog } ∧ (respOf u m).err = false ∧ u.basin = s.basin ∧
      rexWith u { rex s with prog := stored } ∧ (Cells.wf zeroAt (rillEng s re).prog = true → progWord (rillEng u re).prog k.val = (d.extractLsb' 0 32).zeroExtend 36 ∧
        ∀ j, j ≠ k.val → progWord (rillEng u re).prog j = progWord (rillEng s re).prog j)) ∧
    (Served s m (at_ pa) → pageInUse s re.val (k.val / 0x8000) = true → Gives (.programStoreWrite m ⟨re.val, by omega⟩ k d) s fun u =>
      eng u ∧ (RegsWf s → u.bit (Reg.RILL_STATUS re.val) 4 = true)) ∧
    (Served s m (at_ ca) → halfInUse s be.val half = false → Gives (.codeStoreWrite m ⟨be.val, by omega⟩ c d) s fun u =>
      coreOf u be.val = { coreOf s be.val with code := Cells.set (coreOf s be.val).code c.toNat (d.extractLsb' 0 32) } ∧
      (respOf u m).err = false ∧ u.rill = s.rill ∧ coreOf u 8 = if bexShadows s be.val then
        { coreOf s 8 with code := Cells.set (coreOf s 8).code c.toNat (d.extractLsb' 0 32) } else coreOf s 8) ∧
    (Served s m (at_ ca) → halfInUse s be.val half = true → Gives (.codeStoreWrite m ⟨be.val, by omega⟩ c d) s fun u =>
      eng u ∧ (RegsWf s → u.bit (Reg.BASIN_STATUS be.val) 7 = true)) ∧
    (Served s m (at_ oa) →
      let w := Instr.engineWindowWrite m (BitVec.ofNat 23 (oa - 0x800000)) d
      (s.bit (Reg.RILL_CTRL re.val) 1 = false → stageBusy s re.val = false → Gives w s fun u =>
        rillEng u re = { rillEng s re with stS := Cells.set (rillEng s re).stS o.val d } ∧ (respOf u m).err = false ∧
        rexWith u { rex s with stS := Cells.set (rex s).stS o.val d }) ∧
      (s.bit (Reg.RILL_CTRL re.val) 1 = false → stageBusy s re.val = true → Gives w s fun u =>
        eng u ∧ (RegsWf s → u.bit Reg.SL_STATUS 0 = true ∧ u.fld Reg.SL_STATUS 8 6 = re.val)) ∧
      (s.bit (Reg.RILL_CTRL re.val) 1 = true → Gives w s fun u => eng u ∧ (RegsWf s → u.bit (Reg.RILL_STATUS re.val) 3 = true))) ∧
    (Served s m (at_ sp) → rexParked s = true → pageInUse s 16 (k.val / 0x8000) = false → Gives (.programStoreWrite m 16 k d) s fun u => (respOf u m).err = false ∧
      rex u = { rex s with prog := stored } ∧ rillEng u re = rillEng s re) ∧
    (Served s m (at_ sp) → rexParked s = false → Gives (.programStoreWrite m 16 k d) s fun u => eng u ∧
      (RegsWf s → u.bit (Reg.RILL_STATUS 16) 3 = true)) ∧
    (Served s m (at_ sc) → bexParked s = true → halfInUse s 8 half = false → Gives (.codeStoreWrite m 8 c d) s fun u => (respOf u m).err = false ∧
      coreOf u 8 = { coreOf s 8 with code := Cells.set (coreOf s 8).code c.toNat (d.extractLsb' 0 32) } ∧ coreOf u be.val = coreOf s be.val) ∧
    (Served s m (at_ sc) → bexParked s = false → Gives (.codeStoreWrite m 8 c d) s fun u => eng u ∧
      (RegsWf s → u.bit (Reg.BASIN_STATUS 8) 6 = true)) ∧
    (Served s m (at_ ta) → s.bit Reg.FABRIC_CTRL 0 = false → stageBusy s 25 = false →
      Gives (.engineWindowWrite m (BitVec.ofNat 23 (ta - 0x800000)) d) s fun u =>
        u.fabric = { s.fabric with stS := Cells.set s.fabric.stS t.val d } ∧ u.rill = s.rill ∧ u.basin = s.basin ∧ (respOf u m).err = false)

/-- A served write of MEM_BANK_OWNER(b) that names another owner of code 0 to 16, with no handover pending, takes the code and sets
PENDING, and CUR stays; one with a code above 16, or while a handover is pending, changes no owner and sets MEM_STATUS.OWN_BUSY. While a
handover is pending the old owner's masters other than the farrier and an open debug port are refused, unless the bank is shared for the
control core's reads. With no access waiting, its completion makes the code CUR and clears PENDING; with none pending, or while an access
accepted for the old owner is outstanding, nothing happens. (16_memory_and_crossbar.md Bank ownership) -/
def Obligations.BankHandover : Prop :=
  ∀ (s : State) (m : Fin 18) (b : Fin 32) (v : BitVec 32), RegsWf s →
    let r := Reg.MEM_BANK_OWNER b.val
    let code := (v.extractLsb' 0 5).toNat
    (m ∈ [1, 11] → Served s m (.writeBytes (BitVec.ofNat 32 r) ((leBytes v 4).map some)) →
      (code < 17 → bankPending s b.val = false → code ≠ bankCur s b.val → Gives (.memBankOwnerWrite m b v) s fun u =>
        u.fld r 0 5 = code ∧ bankPending u b.val = true ∧ bankCur u b.val = bankCur s b.val ∧ RegsSameBut [r] s u) ∧
      (17 ≤ code ∨ bankPending s b.val = true → Gives (.memBankOwnerWrite m b v) s fun u =>
        u.bit Reg.MEM_STATUS 3 = true ∧ RegsSameBut [Reg.MEM_STATUS] s u)) ∧
    (∀ w, bankOf w = b.val → bankPending s b.val = true → (m.val ≤ 1 → s.bit (Reg.MEM_BANK_ATTR b.val) 1 = false) → m ≠ 16 →
      (m = 17 → debugOpen s = false) → yardAdmits s m.val w = false) ∧
    (bankPending s b.val = true → s.heldAcc = [] → Gives (.handoverComplete b) s fun u =>
      bankPending u b.val = false ∧ bankCur u b.val = s.fld r 0 5 ∧ RegsSameBut [r] s u ∧ u = { s with regs := u.regs }) ∧
    ((∃ h ∈ s.heldAcc, b.val ∈ h.accepted) → NoEffect (.handoverComplete b) s) ∧
    (bankPending s b.val = false → exec (.handoverComplete b) s = .next (settle s))

/-- A served write of 1, 2 or 4 bytes by the control core, with no wipe, tamper or lock, stores its bytes little-endian; with one of them
it stores nothing, answers an error and sets TACK_REJECT; a served access of a master that Table 16-5 does not admit stores nothing and
answers an error. WLOCK written 1 stands; written 0 it stays as it is. TAMPER empties the tack room and shuts it until TAMPER_RELEASE and
the end of the wipe, which clears WLOCK. (16_memory_and_crossbar.md Tack room) -/
def Obligations.TackRoom : Prop :=
  ∀ (s : State) (m : Fin 18) (o : BitVec 14) (size : Fin 3) (v : BitVec 32), RegsWf s →
    let n := 2 ^ size.val
    let x := Access.writeBytes (BitVec.ofNat 32 (0x20000000 + o.toNat)) ((leBytes v n).map some)
    let shut := s.bit Reg.MEM_STATUS 9 = true ∨ s.power.tamperLow = true ∨ s.bit Reg.TACK_CTRL 0 = true
    let write := Instr.tackRoomAccess m o size (some v)
    let byte := fun (t : State) (b : Nat) => (Cells.get t.boot.tack (b / 4)).extractLsb' (8 * (b % 4)) 8
    (m = 1 → o.toNat + n ≤ 0x4000 → Served s m x → ¬ shut → Memory.wf s = true → Gives write s fun u =>
      (∀ i < n, byte u (o.toNat + i) = v.extractLsb' (8 * i) 8) ∧ (respOf u m).err = false ∧ u.yard = s.yard ∧
      ∀ w, w * 4 + 3 < o.toNat ∨ o.toNat + n ≤ w * 4 → Cells.get u.boot.tack w = Cells.get s.boot.tack w) ∧
    (m = 1 → o.toNat + n ≤ 0x4000 → Served s m x → shut → Gives write s fun u =>
      u.boot = s.boot ∧ (respOf u m).err = true ∧ u.bit Reg.MEM_STATUS 5 = true) ∧
    (m ≠ 1 → (m = 17 → debugOpen s = false ∨ 2 ≤ lifeCycle s) → Served s m x → Gives write s fun u =>
      u.boot = s.boot ∧ (respOf u m).err = true ∧ u.bit Reg.MEM_STATUS 4 = true) ∧
    (m = 1 → o.toNat + n ≤ 0x4000 → Served s m (.readBytes (BitVec.ofNat 32 (0x20000000 + o.toNat)) n) → tackShut s = false →
      (∀ w, tackMark s w = 0#2) → Gives (.tackRoomAccess m o size none) s fun u => u.boot = s.boot ∧ (respOf u m).err = false ∧
        (respOf u m).bytes = (List.range n).map fun i => byte s (o.toNat + i)) ∧
    (Gives (.wlock v) s fun u => (u.bit Reg.TACK_CTRL 0 = true ↔ v.getLsbD 0 = true ∨ s.bit Reg.TACK_CTRL 0 = true) ∧
      RegsSameBut [Reg.TACK_CTRL] s u) ∧
    (Gives .tamper s fun u => u.boot.tack = [] ∧ tackShut u = true ∧ u.power.tamperLow = true ∧ u.bit Reg.MEM_STATUS 6 = true ∧
      RegsSameBut [Reg.MEM_STATUS] s u) ∧
    (Gives .tamperRelease s fun u => u = { s with power := { s.power with tamperLow := false } }) ∧
    (s.bit Reg.MEM_STATUS 9 = true → Gives .tackWipeEnd s fun u => u.boot.tack = [] ∧ u.bit Reg.MEM_STATUS 9 = false ∧
      u.bit Reg.TACK_CTRL 0 = false ∧ tackShut u = s.power.tamperLow) ∧
    (s.bit Reg.MEM_STATUS 9 = false → exec .tackWipeEnd s = .next (settle s))

/-- A served access with no target answers an error and zero, changes no memory, and in canonical registers records its address, master
and kind with MEM_STATUS.DEC_ERR; an access that must wait, or whose master has one waiting, joins the accesses held and does nothing
else. The end of the clear with nothing held clears the clearing flag, and with no clear running does nothing. A BAR4 request with BAR4
disabled, or a BAR0 request that crosses a register, reaches no target: a read answers an error, a write is recorded in HOST_INB_ERRADDR.
A BAR0 read within one register is that access by the host, and its failure an error of the function (the model's choice of record, log
entry 115); the first DWORD of configuration space reads the Device and Vendor IDs. A byte-space access of the debug bridge with the debug
port open is that access by the debug master, its data register returning the result before, with bit 0 set on an error; with the port
closed it acts as BYPASS. A register write of a master with an access that waits joins it and does nothing else, whichever of the table's
rows makes it. (16_memory_and_crossbar.md; 15_host_interface.md; 22_address_map_registers.md) -/
def Obligations.DefaultTargetAndHeldAccesses : Prop :=
  (∀ (s : State) (m : Fin 18) (a v : BitVec 32) (p : Fin 4) (q : Fin 3) (i : Fin 64) (k : Fin 8) (rx : Bool), masterWaits s m.val = true →
    let x : MasterWrite := ⟨v, m⟩
    let rows := [(Reg.TICK_SWITCH, v, Instr.tickSwitch v m), (Reg.TDM_CTRL p.val, v, .tdmCtrlWrite p x), (Reg.TDM_FRAME p.val, v, .tdmFrameWrite p x),
      (Reg.MNCO_ADJ, v, .mncoAdjWrite x), (Reg.ETH_CTRL q.val, v, .ethCtrlWrite q x), (Reg.RING_CFG i.val, v, .ringCfgWrite i x),
      ((if rx then Reg.SRX_CTRL i.val else Reg.STX_CTRL i.val) + 4 * k.val, v, .stxCtrlWrite rx i k x), (Reg.HOST_CTRL, v, .hostCtrlWrite x),
      (Reg.FL_CMD, 1#32, .programGranule m), (Reg.FL_CMD, 2#32, .eraseBlock m)]
    ∀ y ∈ rows, Gives y.2.2 s fun u => u = { s with heldAcc := s.heldAcc ++
      [{ master := m.val, access := .writeBytes (BitVec.ofNat 32 y.1) ((leBytes y.2.1 4).map some) }] }) ∧
  ∀ (s : State) (m : Fin 18) (a : BitVec 32) (w : BitVec 23) (d : Word) (o : BitVec 25) (n : Nat) (bs : List (Option Byte)), RegsWf s →
    let last := vget s.resp masterDebug ⟨0#36, [], false⟩
    let result := (if last.bytes.isEmpty then last.word.setWidth 32 else leWord last.bytes) ||| (if last.err then 1#32 else 0#32)
    let up := s.host.d3 = false
    let faults := fun (t u : State) => u = { t with resp := u.resp, host := { t.host with aer := u.host.aer } }
    (noTarget s m.val a.toNat false false = true → Served s m (.readBytes a 1) → Gives (.defaultTargetAccess m a false false) s fun u =>
      (respOf u m).err = true ∧ (respOf u m).bytes = [0#8] ∧ u.yard = s.yard ∧ u.boot = s.boot ∧ u.bit Reg.MEM_STATUS 4 = true ∧
      u.reg Reg.MEM_DEC_ADDR = a ∧ u.reg Reg.MEM_DEC_INFO = BitVec.ofNat 32 m.val) ∧
    (¬ Served s m (.writeWord (BitVec.ofNat 24 w.toNat) d) → Gives (.yardWordAccess m w (some d)) s fun u =>
      u = { s with heldAcc := s.heldAcc ++ [{ master := m.val, access := .writeWord (BitVec.ofNat 24 w.toNat) d }] }) ∧
    (memClearing s = true → s.heldAcc = [] → Gives .wakeClearEnd s fun u => memClearing u = false ∧ RegsSameBut [Reg.MEM_STATUS] s u ∧
      u = { s with regs := u.regs }) ∧
    (memClearing s = false → exec .wakeClearEnd s = .next (settle s)) ∧
    (up → s.bit Reg.HOST_CTRL 1 = false →
      (Gives (.barRequest 2 o (.read n)) s fun u => respOf u 11 = ⟨0#36, List.replicate n 0#8, true⟩ ∧ faults s u) ∧
      (Gives (.barRequest 2 o (.write bs)) s fun u => u.reg Reg.HOST_INB_ERRADDR = BitVec.ofNat 32 (o.toNat + 2 * 2 ^ 25) ∧
        u.bit Reg.HOST_STATUS 10 = true ∧ RegsSameBut [Reg.HOST_INB_ERRADDR, Reg.HOST_STATUS] s u ∧ u.yard = s.yard)) ∧
    (up → 4 < o.toNat % 4 + n → Gives (.barRequest 0 o (.read n)) s fun u => (respOf u 11).err = true ∧ faults s u) ∧
    (up → o.toNat % 4 + n ≤ 4 → Gives (.barRequest 0 o (.read n)) s fun u =>
      let t := masterAccess s 11 (.readBytes (BitVec.ofNat 32 (0x40000000 + o.toNat % 2 ^ 24)) n)
      u = { t with host := { t.host with aer := u.host.aer } }) ∧
    (o.toNat % 4096 = 0 → Gives (.barRequest 3 o (.read 4)) s fun u => respOf u 11 = ⟨0#36, leBytes 0x18361F5C#32 4, false⟩ ∧
      u = { s with resp := u.resp }) ∧
    (debugOpen s = true → exec (.debugBridgeAccess .byteSpace a none) s = .next (settle
      (masterAccess { s with boot := { s.boot with tap := .byteSpace, bridge := result } } 17 (.readBytes (BitVec.ofNat 32 (a.toNat / 4 * 4)) 4)))) ∧
    (debugOpen s = false → Gives (.debugBridgeAccess .byteSpace a none) s fun u => u = { s with boot := { s.boot with tap := .bypass } })


namespace Sys2Proof.Claims

open Sys2Proof Sys2Proof.Machine

/-- `c` completes, and leaves a state with `P` once the edge detectors of the CSP's pins have seen the levels they passed through, with those
of the slave role's words `word` where one came in and one went out. -/
def Moves (c : Instr) (s : State) (P : State → Prop) (word : Option (BitVec 32 × BitVec 32) := none) : Prop :=
  Gives c s fun u => ∃ v, u = cspMoved s v word ∧ P v

/-- In canonical registers, `c` leaves the registers of `l` with the values given, every other register as in `r`, and every other part of
the machine as in `t`, but for those edge detectors. -/
def MovesTo (c : Instr) (s r : State) (l : List (Nat × BitVec 32)) (t : State) (word : Option (BitVec 32 × BitVec 32) := none) : Prop :=
  RegsWf s → Moves c s (fun v => (∀ p ∈ l, v.reg p.1 = p.2) ∧ RegsSameBut (l.map Prod.fst) r v ∧ v = { t with regs := v.regs }) word

end Sys2Proof.Claims

/-- In canonical registers a write of CSP_CTRL takes INT_EN. One made while BUSY or while CSP_SEL_N is low leaves ROLE and sets
CFG_REJECT; otherwise one that keeps ROLE does no more, the master role is taken when its nine pins are free, and refused with
SYS_CONFLICT and no change of CSP_CTRL when one is not, and the slave role is taken. A write of CSP_M_LEN takes LEN; with START it sets
CFG_REJECT in the cases of R404, and otherwise empties the FIFOs, sets BUSY and opens with the command, its most significant bits first,
each cycle sampled at the edge of the SPI mode. A push joins the TX FIFO, after the words sent before it left, and a pop takes the oldest
word of the RX FIFO; a full or an empty one sets FIFO_ERR. The lanes sampled in the cycles of a received word spell it, its first byte in
bits [7:0], each byte the most significant bits first, from CSP_D1 where the phase has one lane. A sequence whose data has all been
pushed, or all been received, ends with BUSY clear and M_DONE set; one not running does nothing. The edge detectors of the port's pins see
each change. (17_control_serial_port.md Roles and pins; 17_control_serial_port.md Master role) -/
def Obligations.SerialMaster : Prop :=
  ∀ (s : State) (v : BitVec 32) (l : List (BitVec 8)), RegsWf s →
    let x := s.csp
    let selected := cspSelected s
    let is := s.bit Reg.CSP_CTRL 0
    let busy := s.bit Reg.CSP_M_STATUS 16
    let ctrl := fieldAt s Reg.CSP_CTRL 8 8 (v.extractLsb' 8 8).toNat
    let reject := flagSet s Reg.CSP_STATUS 7
    let free := ∀ i < 9, resFree s 0 (94 + i) fnCsp = true
    let lanes := fun (lo : Nat) => 2 ^ s.fld Reg.CSP_M_PHASE lo 2
    let bits := 8 * min 2 (s.fld Reg.CSP_M_PHASE 2 2)
    let byte := 8 / lanes 20
    let cyc := fun (drive level : BitVec 8) => CspCycle.mk drive level (s.bit Reg.CSP_M_CFG 8 == s.bit Reg.CSP_M_CFG 9) (!s.bit Reg.CSP_M_CFG 9)
    let word := min 4 x.left
    let sample := fun (i : Nat) => let y := l.getD i 0#8; if lanes 20 = 1 then (y.toNat / 2) % 2 else y.toNat % 2 ^ lanes 20
    let n := min 65536 (v.extractLsb' 0 17).toNat
    let addr := s.fld Reg.CSP_M_PHASE 6 6
    let bad := is = false ∨ busy = true ∨ addr ∉ [0, 8, 16, 24, 32] ∨ bits % lanes 0 ≠ 0 ∨
      addr % lanes 4 ≠ 0 ∨ 8 * n % lanes 20 ≠ 0 ∨ (s.bit Reg.CSP_M_PHASE 19 = true ∧ s.fld Reg.CSP_M_PHASE 14 5 < 8 / lanes 12)
    let len := (Reg.CSP_M_LEN, v &&& 0x1FFFF#32)
    let done_ := [fieldAt s Reg.CSP_M_STATUS 16 1 0, flagSet s Reg.CSP_STATUS 5]
    let reads := s.bit Reg.CSP_M_PHASE 22
    (busy = false → selected = false → v.getLsbD 0 = is → MovesTo (.cspRole v) s s [ctrl] s) ∧
    (busy = true ∨ selected = true → MovesTo (.cspRole v) s s [ctrl, reject] s) ∧
    (busy = false → selected = false → v.getLsbD 0 = true → is = false → free → Moves (.cspRole v) s fun u =>
      u.reg Reg.CSP_CTRL = putField ctrl.2 0 1 1 ∧ (Memory.wf s = true → ∀ i < 9, resHolder u 0 (94 + i) = fnCsp) ∧
      RegsSameBut [Reg.CSP_CTRL] s u ∧ u = { s with regs := u.regs, claims := u.claims }) ∧
    (busy = false → selected = false → v.getLsbD 0 = true → is = false → ¬ free → Moves (.cspRole v) s fun u =>
      u.bit Reg.SYS_STATUS 1 = true ∧ u.fld Reg.SYS_CONFLICT 24 8 = 9 ∧ RegsSameBut [Reg.SYS_CONFLICT, Reg.SYS_STATUS] s u ∧ u = { s with regs := u.regs }) ∧
    (busy = false → selected = false → v.getLsbD 0 = false → is = true → Moves (.cspRole v) s fun u =>
      u.reg Reg.CSP_CTRL = putField ctrl.2 0 1 0 ∧ (Memory.wf s = true → ∀ i < 9, resHolder u 0 (94 + i) ≠ fnCsp) ∧
      RegsSameBut [Reg.CSP_CTRL] s u ∧ u = { s with regs := u.regs, claims := u.claims }) ∧
    (v.getLsbD 31 = false → MovesTo (.cspStart v) s s [len] s) ∧
    (v.getLsbD 31 = true → bad → MovesTo (.cspStart v) s s [len, reject] s) ∧
    (v.getLsbD 31 = true → ¬ bad → MovesTo (.cspStart v) s s [len, fieldAt s Reg.CSP_M_STATUS 16 1 1]
      { s with csp := { x with tx := [], rx := [], left := n, wire := cspOpening s, part := [] } }) ∧
    (∀ k < bits / lanes 0, (cspOpening s)[k]? = some (cyc (BitVec.ofNat 8 (2 ^ lanes 0 - 1))
      (BitVec.ofNat 8 (s.fld Reg.CSP_M_CMD 0 bits / 2 ^ (bits - lanes 0 * (k + 1)) % 2 ^ lanes 0)))) ∧
    (x.tx.length < 64 → Moves (.cspFifoPush v 0) s fun u => u = { s with csp := { x with tx := x.tx ++ [v] } }) ∧
    (∀ q rest, busy = true → reads = false → x.left ≠ 0 → x.tx = q :: rest → x.tx.length ≤ 64 → Moves (.cspFifoPush v 1) s fun u =>
      u = { s with csp := { x with tx := rest ++ [v], left := x.left - 4, wire := x.wire ++ cspData s x.left (some q) } }) ∧
    (64 ≤ x.tx.length → MovesTo (.cspFifoPush v 0) s s [flagSet s Reg.CSP_STATUS 6] s) ∧
    (∀ q rest, x.part = [] → x.rx = q :: rest → Moves (.cspFifoPop []) s fun u => u = { s with csp := { x with rx := rest } }) ∧
    (x.part = [] → x.rx = [] → MovesTo (.cspFifoPop []) s s [flagSet s Reg.CSP_STATUS 6] s) ∧
    (busy = true → reads = true → x.left ≠ 0 → x.rx = [] → x.part = [] → l.length = word * byte → Moves (.cspFifoPop l) s fun u =>
      u = { s with csp := { x with left := x.left - 4, wire := x.wire ++ List.replicate (word * byte) (cyc 0#8 0#8) } }) ∧
    (busy = true → reads = true → x.left ≠ 0 → x.left ≤ 4 → x.rx.length < 64 → x.part = [] → l.length = word * byte → Moves (.mDone l) s fun u =>
      (∀ p ∈ done_, u.reg p.1 = p.2) ∧ u.csp.left = 0 ∧ ∃ w : BitVec 32, u.csp.rx = x.rx ++ [w] ∧ w.toNat < 256 ^ word ∧
        ∀ k < word, ∀ j < byte, w.toNat / 256 ^ k % 256 / 2 ^ (lanes 20 * (byte - 1 - j)) % 2 ^ lanes 20 = sample (k * byte + j)) ∧
    (busy = true → reads = false → x.left ≤ 256 → x.left ≤ 4 * x.tx.length → Moves (.mDone []) s fun v =>
      (∀ p ∈ done_, v.reg p.1 = p.2) ∧ RegsSameBut (done_.map Prod.fst) s v ∧ v.csp.wire.length = x.wire.length + x.left * byte ∧
      v = { s with regs := v.regs, csp := { x with tx := x.tx.drop ((x.left + 3) / 4), left := 0, wire := v.csp.wire } }) ∧
    (busy = true → reads = true → x.left = 0 → MovesTo (.mDone []) s s done_ { s with csp := { x with part := [] } }) ∧
    (busy = false → NoEffect (.mDone l) s)

/-- Out of reset and STANDBY a selection starts with the status word and the configuration written; elsewhere, in the master role, or
while selected, an assertion does nothing but its pin's change, and a word without a selection nothing. A NOP answers the status word. A
read command that finds its word ready answers the word at its offset, one whose word is late is an underrun, one whose read must wait is
an underrun whose read is performed later, and one past the end answers zero with END. A write command opens its transaction; its answer
is a free value. A data word in the yard is stored as its low 32 bits and echoed; one past the end is dropped, counted and flagged; one
that must wait joins a buffer of four words and is echoed (a word written: the model's reading, log entry 120); one not ready, or for
which the buffer is full, is an underrun that repeats the word sent before. The last filler of a read is answered by the trailer with its
flags and count; the end of a transaction returns to the status word. A release ends the selection: cut off within a word it counts
FRAME_ERR, and a waiting ROLE is applied. The edge detectors of the port's pins see each change. (17_control_serial_port.md Slave role) -/
def Obligations.SerialSlave : Prop :=
  ∀ (s : State) (v : BitVec 32) (ready : Bool) (t : CspTxn), RegsWf s →
    let x := s.csp
    let z := { x with prev := some (x.out.getLsbD 0) }
    let answer := some (v, x.out)
    let word := fun (b : Bool) (P : State → Prop) => Moves (.cspSlaveWord v b) s P answer
    let held := s.heldAcc.filter fun h => h.slave.isSome
    let status := 0x50000000#32 ||| (s.reg Reg.CSP_STATUS &&& 0xFFFF#32)
    let cmd := v.extractLsb' 29 3
    let off := (v.extractLsb' 0 23).toNat
    let n := (v.extractLsb' 23 5).toNat
    let fell := gpioEdge s 103 false
    let rose := gpioEdge s 103 true
    let live := s.power.phase = .running ∨ s.power.phase = .entering
    let left := (if n = 0 then 32 else n) + 1
    let with_ := fun (y : CspState) => { s with csp := y }
    let trailer := BitVec.ofNat 32 (0xE0000000 + (if t.passed then 2 ^ 27 else 0) + (if t.under then 2 ^ 26 else 0) +
      (if t.erred then 2 ^ 25 else 0) + (if t.dropped then 2 ^ 24 else 0) + t.count)
    let open_ := x.sel = true ∧ x.txn = some t
    let yard := t.yard = true ∧ t.last = some 0x7FFFFF ∧ t.off ≤ 0x7FFFFF ∧ (x.cfg.getLsbD 3 = true ∨ inSafe s = true)
    let read := fun (o : Nat) => Access.readBytes (BitVec.ofNat 32 (0x10000000 + 4 * o)) 4
    let late := fun (o : Nat) => accessWaits s 11 (read o) = true
    let store := Access.writeBytes (BitVec.ofNat 32 (0x10000000 + 4 * t.off)) ((leBytes v 4).map some)
    let mine := fun (y : Access) => s.heldAcc ++ [{ master := 11, access := y, slave := some true }]
    let opens := x.sel = true ∧ x.txn = none ∧ held = []
    (s.bit Reg.CSP_CTRL 0 = false → x.sel = false → live → Moves .cspSelNAssert s fun u =>
      u = { fell with csp := { x with sel := true, cfg := s.reg Reg.CSP_SL_CFG, txn := none, out := status, prev := none } }) ∧
    (s.bit Reg.CSP_CTRL 0 = true ∨ x.sel = true ∨ ¬ live → Moves .cspSelNAssert s fun u => u = fell) ∧
    (x.sel = false → NoEffect (.cspSlaveWord v ready) s) ∧
    (x.sel = true → x.txn = none → cmd ≠ 5#3 → cmd ≠ 6#3 → word ready fun u => u = with_ { z with out := status }) ∧
    (opens → cmd = 6#3 → word ready fun u => ∃ y, u.csp.txn = some y ∧ y.write = true ∧
      y.yard = v.getLsbD 28 ∧ y.off = off ∧ y.left = left ∧ y.count = 0 ∧ (v.getLsbD 28 = true → y.last = some 0x7FFFFF) ∧
      u = { s with csp := { z with txn := some y, out := u.csp.out }, freeCtr := s.freeCtr + 1 }) ∧
    (opens → cmd = 5#3 → v.getLsbD 28 = true → (x.cfg.getLsbD 3 = true ∨ inSafe s = true) → ¬ late off →
      yardAdmits s 11 off = true → s.mark off = 0#2 → word true fun u =>
        u.csp.out = (Cells.get s.yard off).extractLsb' 0 32 ∧ u.yard = s.yard ∧ u.regs = s.regs ∧ ∃ y, u.csp.txn = some y ∧
          y.off = off + 1 ∧ y.left = left ∧ y.count = 1 ∧ y.write = false ∧ y.erred = false) ∧
    (opens → cmd = 5#3 → v.getLsbD 28 = true → (x.cfg.getLsbD 3 = true ∨ inSafe s = true) → ¬ late off →
      yardAdmits s 11 off = true → s.mark off = 0#2 → word false fun u => u.csp.out = x.out ∧
        u.bit Reg.CSP_STATUS 0 = true ∧ u.fld Reg.CSP_SL_ERRS 0 16 = (s.fld Reg.CSP_SL_ERRS 0 16 + 1) % 65536 ∧ ∃ y, u.csp.txn = some y ∧
          y.off = off + 1 ∧ y.left = left ∧ y.count = 0 ∧ y.under = true) ∧
    (opens → cmd = 5#3 → v.getLsbD 28 = true → (x.cfg.getLsbD 3 = true ∨ inSafe s = true) → late off → word ready fun u =>
      u.csp.out = x.out ∧ u.heldAcc = mine (read off) ∧ u.bit Reg.CSP_STATUS 0 = true ∧ u.yard = s.yard ∧
        ∃ y, u.csp.txn = some y ∧ y.off = off + 1 ∧ y.count = 0 ∧ y.under = true) ∧
    (opens → cmd = 5#3 → v.getLsbD 28 = true → x.cfg.getLsbD 3 = false → inSafe s = false →
      word true fun u => u.csp.out = 0#32 ∧ u.bit Reg.CSP_STATUS 2 = true ∧ RegsSameBut [Reg.CSP_STATUS] s u ∧
        (∃ y, u.csp.txn = some y ∧ y.passed = true ∧ y.count = 0 ∧ y.left = left) ∧ u = { s with regs := u.regs, csp := u.csp }) ∧
    (open_ → t.write = true → 2 ≤ t.left → t.under = false → yard → held = [] → accessWaits s 11 store = false → yardAdmits s 11 t.off = true →
      Memory.wf s = true → word true fun u => (Cells.get u.yard t.off).extractLsb' 0 32 = v ∧
        (∀ b, b ≠ t.off → Cells.get u.yard b = Cells.get s.yard b) ∧ (s.mark t.off = 0#2 → u.regs = s.regs) ∧
        u.csp = { z with txn := some { t with off := t.off + 1, left := t.left - 1, count := t.count + 1 }, out := v }) ∧
    (open_ → t.write = true → 2 ≤ t.left → t.under = false → yard → held.length < 4 → held ≠ [] ∨ accessWaits s 11 store = true → word true fun u =>
      u = { s with heldAcc := mine store, csp := { z with txn := some { t with off := t.off + 1, left := t.left - 1, count := t.count + 1 }, out := v } }) ∧
    (open_ → t.write = true → 2 ≤ t.left → t.under = false → (∃ l, t.last = some l ∧ l < t.off) → MovesTo (.cspSlaveWord v ready) s s
      [(Reg.CSP_STATUS, s.reg Reg.CSP_STATUS ||| 12#32), (Reg.CSP_SL_DROP, s.reg Reg.CSP_SL_DROP + 1#32)]
      (with_ { z with txn := some { t with off := t.off + 1, left := t.left - 1, passed := true, dropped := true }, out := v }) answer) ∧
    (open_ → t.write = true → 2 ≤ t.left → t.under = false → yard → ready = false ∨ 4 ≤ held.length → MovesTo (.cspSlaveWord v ready) s s
      [flagSet s Reg.CSP_STATUS 0, countedAt s Reg.CSP_SL_ERRS 0 16]
      (with_ { z with txn := some { t with off := t.off + 1, left := t.left - 1, under := true, dropped := true } }) answer) ∧
    (open_ → t.under = true → (if t.write then 2 else 3) ≤ t.left → word ready fun u =>
      u = with_ { z with txn := some { t with off := t.off + 1, left := t.left - 1, dropped := t.dropped || t.write } }) ∧
    (open_ → t.write = false → t.left = 2 → word ready fun u =>
      u = with_ { z with txn := some { t with left := 1 }, out := trailer }) ∧
    (open_ → t.left ≤ 1 → word ready fun u => u = with_ { z with txn := none, out := if t.write then trailer else status }) ∧
    (x.sel = true → x.role = none →
      Moves (.cspSelNRelease false) s (fun u => u = { rose with csp := { x with sel := false, txn := none, prev := none } }) ∧
      MovesTo (.cspSelNRelease true) s rose [flagSet s Reg.CSP_STATUS 1, countedAt s Reg.CSP_SL_ERRS 16 16]
        { rose with csp := { x with sel := false, txn := none, prev := none } }) ∧
    (x.sel = true → x.role = some true → s.bit Reg.CSP_CTRL 0 = false → (∀ i < 9, resFree s 0 (94 + i) fnCsp = true) →
      Moves (.cspSelNRelease ready) s fun u => u.bit Reg.CSP_CTRL 0 = true ∧ u.csp = { x with sel := false, txn := none, role := none, prev := none }) ∧
    (x.sel = false → Moves (.cspSelNRelease ready) s fun u => u = rose)

/-- The fields of this type are BOOT_WDT.TIMEOUT (writable in BLANK and DEVELOP) and BOOT_OTP_CMD.PROG_HASH (BLANK and DEVELOP) and REVOKE
(DEVELOP and DEPLOYED). A served register write by the control core or the host that writes one of them in another state changes no
register but SYS_STATUS, whose LC_REJECT it sets, programs and revokes nothing, and answers no error; so do the commands of OTP
programming themselves. (R9) -/
def Obligations.LifeCycleFieldsOutsideTheirStates : Prop :=
  ∀ (s : State) (m : Fin 18) (v : BitVec 32) (k : Fin 4), RegsWf s → m ∈ [1, 11] →
    let lc := s.boot.lc.toNat
    let write := fun (off : BitVec 24) (P : State → Prop) =>
      Served s m (.writeBytes (BitVec.ofNat 32 (0x40000000 + off.toNat)) ((leBytes v 4).map some)) → Gives (.registerWrite m off 2 v) s P
    let rejects := fun (u : State) => u.bit Reg.SYS_STATUS 0 = true ∧ RegsSameBut [Reg.SYS_STATUS] s u ∧ u.boot = s.boot
    (1 < lc → write 0x30018#24 fun u => rejects u ∧ (respOf u m).err = false) ∧
    (v.getLsbD 2 = true ∨ v.getLsbD 3 = true → (v.getLsbD 2 = true → 1 < lc) → (v.getLsbD 3 = true → lc ≠ 1 ∧ lc ≠ 2) →
      write 0x30024#24 fun u => rejects u ∧ (respOf u m).err = false) ∧
    (1 < lc → Gives (.progHash k) s rejects) ∧ (lc ≠ 1 → lc ≠ 2 → Gives (.revoke k) s rejects)

/-- The release of a reset with nothing pending in BLANK or DEVELOP enters SAFE with reason 1 where neither slot is a candidate, with
reason 4 where the one candidate is confirmed and has failed to start three times, starts a confirmed one that passes its checks and was
not the image counted, and starts an unconfirmed one with fewer than three attempts on trial with its lowest clear mark programmed; a
fault of the OTP or END enters SAFE with reason 6. SAFE's entry empties and locks the tack room, but while its accesses are turned away
only locks it. STARTED clears the count, ends the watch, and with the journal read applies a retirement it records, takes the stored
policy and the first mode it names once, or names CONFERENCE; CONFIRM programs a trial's marker. BOOT_SAFE_REQ with its key and a listed
reason, and a debug unlock request, hold the device in reset with the reason; others are ignored. GO in SAFE waits for the end of the
yard's clear, and then starts an image in the yard that passes, and sets RUN_ERR for one that does not, with what its reads found of
errors. A life-cycle request to a later state with its key waits for the reset; any other sets LC_REFUSED. (18_boot_and_lifecycle.md Stage
0; 18_boot_and_lifecycle.md Choosing an image; 18_boot_and_lifecycle.md SAFE and recovery; 18_boot_and_lifecycle.md Life cycle) -/
def Obligations.StartsOfImages : Prop :=
  ∀ (s : State) (k : Fin 2) (v : BitVec 32) (key : BitVec 2) (offset : BitVec 25), RegsWf s →
    let b := s.boot
    let n := k.val
    let safe := fun (r : Nat) (u : State) => inSafe u = true ∧ u.fld Reg.BOOT_STATUS 0 2 = 3 ∧ u.reg Reg.BOOT_SAFE = BitVec.ofNat 32 r ∧
      u.reg Reg.BOOT_SEQ = 0#32 ∧ u.bit Reg.HOST_CTRL 1 = true ∧ u.bit Reg.CSP_SL_CFG 3 = true ∧ (tackShut s = false → u.boot.tack = []) ∧ u.bit Reg.TACK_CTRL 0 = true ∧
      u.cc.held = false ∧ u.power.phase = .running
    let image := slotImage s n
    let runs := fun (status : Nat) (u : State) => u.boot.slot = some n ∧ u.boot.armed = true ∧ u.reg Reg.BOOT_SEQ = slotSeq s n ∧
      u.fld Reg.BOOT_STATUS 0 3 = status ∧ inSafe u = false ∧ u.reg Reg.BOOT_SAFE = 0#32 ∧ u.cc.held = false ∧ u.power.phase = .running ∧
      (coreOf u 9).pc = BitVec.ofNat 32 (slotBase n + 0x200 + image.field 0x14 4)
    let clear := s.power.phase = .held ∧ b.lcReq = none ∧ b.otpFault = false ∧ b.lc.toNat ≤ 1 ∧ s.fld Reg.PWR_RST 0 8 ≠ 0x16 ∧ b.safeReq = none
    let only := slotCandidate s n = true ∧ slotCandidate s (1 - n) = false ∧ checksPass s image = true
    let attempt := fun (t : State) (i : Nat) => marker t n (0x140 + 16 * i) 0xB0#8 true
    let target := (v.extractLsb' 0 3).toNat
    let reason := (v.extractLsb' 0 8).toNat
    let o := offset.toNat / 256 * 256
    let yard := yardImage s o
    let started := { s with boot := { b with armed := false }, power := { s.power with started := true } }
    let asks := b.slot.isSome = true ∧ s.bit Reg.FAR_STATUS 10 = true ∧ s.sup.named = none
    let retires := if s.far.inited then [] else journalRetired s
    let counts := [Reg.MEM_STATUS, Reg.MEM_ECC, Reg.MEM_ERRADDR] ++ (List.range 32).map Reg.MEM_BANK_STAT
    let held := fun (code : Nat) (u : State) => u.power.phase = .held ∧ u.fld Reg.PWR_RST 0 8 = code ∧ u.fld Reg.PWR_RST 8 8 = s.fld Reg.PWR_RST 0 8
    (s.power.phase = .held → b.lcReq = none → b.otpFault = true ∨ b.lc = 4#3 → Gives .resetRelease s (safe 6)) ∧
    (clear → slotCandidate s n = false → slotCandidate s (1 - n) = false → Gives .resetRelease s (safe 1)) ∧
    (clear → only → slotConfirmed s n = true → b.failSlot = some (n, slotSeq s n) → 3 ≤ s.fld Reg.BOOT_FAILCNT 0 4 → Gives .resetRelease s (safe 4)) ∧
    (clear → only → slotConfirmed s n = true → b.failSlot ≠ some (n, slotSeq s n) → Gives .resetRelease s fun u =>
      runs n u ∧ u.boot.flash = b.flash ∧ u.reg Reg.BOOT_FAILCNT = 0#32) ∧
    (clear → only → slotConfirmed s n = false → (attempts s n).length < 3 → Memory.wf s = true → Gives .resetRelease s fun u => runs (n + 4) u ∧
      ∀ i < 8, attempt s i = false → (∀ j < i, attempt s j = true) → attempt u i = true) ∧
    (s.power.phase ≠ .held → NoEffect .resetRelease s) ∧
    (b.slot.isSome = true → s.bit Reg.FAR_STATUS 10 = false ∨ s.sup.named.isSome = true → Leaves .bootStarted s [(Reg.BOOT_FAILCNT, 0#32)] started) ∧
    (asks → retires = [] → storedPolicy s = none →
      Leaves .bootStarted s [(Reg.BOOT_FAILCNT, 0#32)] { started with sup := { s.sup with named := some (4#3, false) } }) ∧
    (∀ r t, asks → retires = [] → storedPolicy s = some (r, t) →
      Gives .bootStarted s fun u => u.sup.rules = (policyOf t true).rules ∧ u.sup.named = some (startMode t) ∧ u.boot = started.boot ∧
        u.power = started.power ∧ u.reg Reg.BOOT_FAILCNT = 0#32) ∧
    (∀ e, asks → retires = [e] → Gives .bootStarted s fun u => u = policyStart (initUnit (bootStart s) e.1 e.2)) ∧
    (b.slot = none → NoEffect .bootStarted s ∧ NoEffect .bootConfirm s) ∧
    (s.bit Reg.BOOT_STATUS 2 = false → NoEffect .bootConfirm s) ∧
    (b.slot = some n → s.bit Reg.BOOT_STATUS 2 = true → Memory.wf s = true → Gives .bootConfirm s fun u => u.bit Reg.BOOT_STATUS 2 = false ∧
      (∀ i < 16, flashByte u (slotBase n + 0x120 + i) = 0xE0#8) ∧ u.reg Reg.BOOT_FAILCNT = 0#32 ∧ u.boot.armed = false) ∧
    (s.power.phase = .running → v.extractLsb' 24 8 = 0xA5#8 → reason ∈ [5, 7, 8] → Gives (.bootSafeReq v) s fun u =>
      held 0x11 u ∧ u.boot.safeReq = some (BitVec.ofNat 8 reason)) ∧
    (v.extractLsb' 24 8 ≠ 0xA5#8 ∨ reason ∉ [5, 7, 8] → NoEffect (.bootSafeReq v) s) ∧
    (inSafe s = false → Leaves (.bootGo offset) s [(Reg.BOOT_RUN, offset.zeroExtend 32)] s) ∧
    (inSafe s = true → memClearing s = true → Leaves (.bootGo offset) s [(Reg.BOOT_RUN, offset.zeroExtend 32)] { s with boot := { b with goWait := true } }) ∧
    (inSafe s = true → memClearing s = false → b.lc = 4#3 ∨ checksPass s yard = false → Gives (.bootGo offset) s fun u =>
      u.reg Reg.BOOT_RUN = offset.zeroExtend 32 ∧ u.bit Reg.BOOT_STATUS 15 = true ∧ u = { s with regs := u.regs, wb := u.wb, far := { s.far with bankLog := u.far.bankLog } } ∧
      RegsSameBut (Reg.BOOT_RUN :: Reg.BOOT_STATUS :: if b.lc = 4#3 then [] else counts) s u) ∧
    (inSafe s = true → memClearing s = false → b.lc ≠ 4#3 → checksPass s yard = true → Gives (.bootGo offset) s fun u => u.boot.slot = some 2 ∧ u.boot.armed = b.armed ∧
      u.fld Reg.BOOT_STATUS 0 8 = 2 ∧ u.reg Reg.BOOT_SEQ = BitVec.ofNat 32 (yard.field 8 4) ∧ u.reg Reg.BOOT_SAFE = 0#32 ∧ u.yard = s.yard ∧
      u.power.started = true ∧ (coreOf u 9).pc = BitVec.ofNat 32 (0x10000000 + o + 0x200 + yard.field 0x14 4)) ∧
    (v.extractLsb' 16 16 = 0x4C43#16 → b.lc.toNat < target → target ≤ 4 → Leaves (.bootLcReq v) s [fieldAt s Reg.BOOT_STATUS 12 1 0]
      { s with boot := { b with lcReq := some (BitVec.ofNat 3 target, s.bit Reg.BOOT_STATUS 13) } }) ∧
    (v.extractLsb' 16 16 ≠ 0x4C43#16 ∨ target ≤ b.lc.toNat ∨ 4 < target → Leaves (.bootLcReq v) s [flagSet s Reg.BOOT_STATUS 12] s) ∧
    (s.power.phase = .running → Gives (.dbgReq key) s fun u => held 0x10 u ∧ u.boot.dbgReq = true ∧ u.fld Reg.DBG_CTL 0 2 = key.toNat)

/-- In a state that permits it, a free key takes the hash in DBG_RESP0 to DBG_RESP7 and shows as present, with the device secrets
programmed (their values open: the model's choice, log entry 113), and a programmed one sets OTP_ERR; revocation of a key other than the
running image's shows as revoked, and of that key sets OTP_ERR. A flash operation of a master that has no access waiting, by a master
other than the control core's data port sets MASTER_ERR and answers an error; one that is busy, not permitted, misaligned or not erased
sets its flags and changes no byte; a program makes the granule FL_DATA's bytes and an erase the block FFH, and neither changes another
byte, with BUSY set until its end, which sets DONE. Where the verify fails, a spare block takes the logical block's place in the spare-
sector table, and with no spare left the program's granule reads as torn. (18_boot_and_lifecycle.md Flash; 18_boot_and_lifecycle.md Life
cycle; 19_supervisor_and_farrier.md Spares) -/
def Obligations.OtpAndFlashController : Prop :=
  ∀ (s : State) (k : Fin 4) (m : Fin 18), RegsWf s →
    let b := s.boot
    let lc := b.lc.toNat
    let a := s.fld Reg.FL_ADDR 0 23
    let err := flagSet s Reg.BOOT_STATUS 20
    let refused := fun (r : Nat) => [(Reg.FL_STATUS, s.reg Reg.FL_STATUS ||| BitVec.ofNat 32 r)]
    let resp := fun (err : Bool) => { s with resp := vset s.resp m.val ⟨0#36, [], err⟩ }
    let started := fun (erase : Bool) (size : Nat) (x : Nat → Byte) (u : State) => (∀ i < size, flashByte u (a + i) = x i) ∧
      (∀ j, j < a ∨ a + size ≤ j → flashByte u j = flashByte s j) ∧ u.bit Reg.FL_STATUS 0 = true ∧ RegsSameBut [Reg.FL_STATUS] s u ∧
      u.boot.op = some (a, erase) ∧ u.yard = s.yard ∧ u.resp = (resp false).resp
    let quiet := s.heldAcc = [] ∧ s.power.stbyWait = false
    let now := masterWaits s m.val = false
    let ended := (Reg.FL_STATUS, (s.reg Reg.FL_STATUS &&& ~~~1#32) ||| 16#32)
    (lc ≤ 1 → vget b.keys k.val none = none → Gives (.progHash k) s fun u => RegsSameBut [Reg.BOOT_OTP, Reg.BOOT_STATUS] s u ∧
      u.bit Reg.BOOT_OTP k.val = true ∧ u.boot = { b with secrets := u.boot.secrets, keys := vset b.keys k.val (some (BitVec.ofNat 256 (beVal (respBytes s 0 8)))) }) ∧
    (lc ≤ 1 → (vget b.keys k.val none).isSome = true → Leaves (.progHash k) s [err] s) ∧
    (lc = 1 ∨ lc = 2 → b.key ≠ some k.val → Gives (.revoke k) s fun u => RegsSameBut [Reg.BOOT_OTP, Reg.BOOT_STATUS] s u ∧
      u.bit Reg.BOOT_OTP (4 + k.val) = true ∧ u.boot = { b with revoked := b.revoked ||| BitVec.ofNat 4 (2 ^ k.val) }) ∧
    (lc = 1 ∨ lc = 2 → b.key = some k.val → Leaves (.revoke k) s [err] s) ∧
    (now → m ≠ 1 → ∀ c ∈ [Instr.programGranule m, .eraseBlock m], Leaves c s [flagSet s Reg.SYS_STATUS 4] (resp true)) ∧
    (now → m = 1 → flashRefusal s false a ≠ 0 → Leaves (.programGranule m) s (refused (flashRefusal s false a)) (resp false)) ∧
    (now → m = 1 → flashRefusal s true a ≠ 0 → Leaves (.eraseBlock m) s (refused (flashRefusal s true a)) (resp false)) ∧
    (now → m = 1 → flashRefusal s false a = 0 → Memory.wf s = true → Gives (.programGranule m) s
      (started false 16 fun i => (s.reg (Reg.FL_DATA (i / 4))).extractLsb' (8 * (i % 4)) 8)) ∧
    (now → m = 1 → flashRefusal s true a = 0 → Memory.wf s = true → Gives (.eraseBlock m) s (started true 65536 fun _ => 0xFF#8)) ∧
    (quiet → b.op.isSome = true → Leaves (.flashOperationDone false) s [ended] { s with boot := { b with op := none } }) ∧
    (∀ g, quiet → b.op = some (g, false) → 8 ≤ b.spareTable.length → Gives (.flashOperationDone true) s fun u => u.reg ended.1 = ended.2 ∧
      u.bit Reg.FAR_STATUS 5 = true ∧ granuleTorn u (g / 16) = true ∧ u.boot.op = none ∧ u.boot.flash = b.flash) ∧
    (∀ g erase, quiet → b.op = some (g, erase) → b.spareTable.length < 8 → Gives (.flashOperationDone true) s fun u => u.reg ended.1 = ended.2 ∧
      u.boot.spareTable = b.spareTable ++ [(g / 65536, 128 + b.spareTable.length)] ∧ u.boot.op = none) ∧
    (quiet → b.op = none → NoEffect (.flashOperationDone false) s)

/-- An evaluation with EN, in a running device outside SAFE, takes the sensors and a waiting table, moves a cap rule through ARMED,
HOLDING and FIRED by its condition and times, and writes the shedding level of a fired SHED rule unless a mode change is in progress, when
it is made up later; without those it does nothing. A droop sets its flag and counts. A rotation starts the copy of the next role that
runs, or its BIST when no spare is left, parks under PARK, and does nothing while it may not run. The end of a copy leaves the spare with
the role's memories, uncorrectable words as zero, and is noted where the role may follow; SKIPPED parks a copy not noted. With no role to
run it parks. A BIST in which the unit alone fails waits for the takeover, in which both fail for the loss of the role, in which the spare
alone fails parks and retires the spare, and in which both pass starts again and counts. Without a spare the unit's own BIST parks or
waits for the loss. A lane that agrees, or differs and passes its BIST, is followed by the next; one that fails it waits for its remap, or
with no spare lane left, or once it serves another lane, fails its engine. A bank that needs it (more corrected errors within a second
than its limit, an uncorrectable one, or the request register) starts its migration when a spare is left and none runs, and waits for the
one that runs; its end waits for the frame tick, or remaps at once. FAR_INIT acts while open: a retired engine's role goes to the spare or
is lost, a lane or bank to its spare. (19_supervisor_and_farrier.md Evaluation; 19_supervisor_and_farrier.md The policy table;
19_supervisor_and_farrier.md The farrier; 19_supervisor_and_farrier.md The persist journal; 21_power_reset_pins.md Rails and sequencing)
-/
def Obligations.SupervisorAndFarrier : Prop :=
  ∀ (s : State) (temps : List (BitVec 12)) (rail : Fin 5) (basin : Bool) (be : Fin 8) (b : Fin 32) (cause : Fin 3) (v : BitVec 32) (r : Rule)
    (x : RuleState) (p : Policy), RegsWf s →
    let y := s.sup
    let eval := Instr.policyEvaluation temps
    let runs := s.bit Reg.SUP_CTRL 0 = true ∧ s.power.phase = .running ∧ inSafe s = false
    let busy := s.bit Reg.SUP_STATE 15
    let holds := ruleHolds (samplePeriod s temps) r = true
    let one := y.rules = [r] ∧ y.states = [x] ∧ y.next = none ∧ r.en = true
    let next := match x with
      | .armed => if holds then (if r.hold = 0 then RuleState.fired none else .holding 0) else .armed
      | .holding ms => if holds then (if r.hold ≤ ms + y.period then .fired none else .holding (ms + y.period)) else .armed
      | .fired quiet => if holds ∨ r.sticky = true then .fired none else
          if r.rel ≤ (quiet.map (· + y.period)).getD 0 then .armed else .fired (some ((quiet.map (· + y.period)).getD 0))
    let level := if r.arg / 256 % 256 = 0 ∨ (BitVec.ofNat 8 (r.arg / 256)).getLsbD be.val = true then min 16 (r.arg % 32) else 16
    let f := farOf basin
    let role := farRole s f
    let phase := farPhase s f
    let phys := farPhys s (f.base + role)
    let spare := farPhys s f.spare
    let rot := s.bit Reg.FAR_CTRL f.kind = true ∧ s.tick.entered = true ∧ s.listen = false ∧ acquiring s = false ∧ phase ≠ 1 ∧ phase ≠ 3
    let turn := farNext s f (if farTurn s f then role + 1 else role)
    let parked := fun (u : State) => farPhase u f = 0 ∧ u.bit Reg.FAR_STATUS f.parked = true
    let bist := phase = 3 ∧ farMove s f = none ∧ farSpare s f = true
    let late := fun (u : State) => farLate u f = s.tick.gateSeen.isSome
    let alone := phase = 3 ∧ farMove s f = none ∧ farSpare s f = false
    let result := fun (bits : Nat) (u : State) => u.reg Reg.FAR_BIST = BitVec.ofNat 32 (f.kind + phys * 16 + bits * 65536)
    let lane := (vget s.far.lanes be.val 0#3).toNat
    let laneBist := fun (bits : Nat) (u : State) => u.bit Reg.FAR_STATUS 0 = true ∧ (bits = 2 → u.bit Reg.FAR_STATUS 1 = true) ∧
      u.fld Reg.FAR_COUNTS 0 16 = (s.fld Reg.FAR_COUNTS 0 16 + 1) % 65536 ∧
      u.reg Reg.FAR_BIST = BitVec.ofNat 32 (kindLane + (8 * be.val + lane) * 16 + bits * 65536)
    let laneOn := s.bit Reg.FAR_CTRL 2 = true
    let laneTaken := s.bit (Reg.FAR_LANE_MAP be.val) 3 = true ∨ ∃ m ∈ s.far.laneMove, m.1 = be.val
    let moved := fun (u : State) => vget u.far.lanes be.val 0#3 = BitVec.ofNat 3 (lane + 1) ∧ u.fld Reg.FAR_TARGET 16 3 = be.val ∧
      u.fld Reg.FAR_TARGET 19 3 = (lane + 1) % 8
    let copied := if basin then s.far.basinMem else s.far.rillMem
    let idle := basin = false ∨ basinIdle s role = true
    let log := s.far.bankLog
    let needs := if cause = 0 then s.fld Reg.FAR_BANK_CFG 0 16 < log.countP fun e => decide (e.1 = b.val) && !e.2.2 && decide (s.time.cyc < e.2.1 + 393216000)
      else if cause = 1 then (log.any fun e => decide (e.1 = b.val) && e.2.2) = true else True
    let forgotten := { s.far with bankLog := log.filter fun e => decide (e.1 ≠ b.val) }
    let map := Reg.MEM_BANK_MAP b.val
    let banks := sparesLeft s kindBank 0
    let unit := (v.extractLsb' 4 6).toNat
    let plain := ∀ k < f.roles, farPhys s (f.base + k) = k
    let noted := { s with far := { s.far with inited := true } }
    let init := fun (kind : Nat) => v.getLsbD 31 = true ∧ s.bit Reg.FAR_STATUS 10 = true ∧ (v.extractLsb' 0 3).toNat = kind
    (¬ runs → NoEffect eval s) ∧
    (runs → y.rules = [] → y.next = none → Gives eval s fun u => u.sup.late = (busy || y.late) ∧ u.sup.droops = [] ∧ u.sup.gov = [] ∧
      ∀ i, (h : i < temps.length) → i < 4 → u.reg (Reg.SUP_TEMP i) = temps[i].zeroExtend 32) ∧
    (runs → y.next = some p → p.rules = [] → Gives eval s fun u => u.sup.rules = [] ∧ u.sup.next = none ∧ u.sup.period = p.period ∧
      u.fld Reg.SUP_STATE 0 6 = 0 ∧ u.bit Reg.SUP_STATE 14 = p.persist ∧ u.reg Reg.SUP_FIRED = 0#32) ∧
    (runs → one → r.action = 1 ∨ r.action = 2 → Gives eval s fun u => u.sup.states = [next] ∧ u.sup.rules = [r] ∧ (busy = true → u.sup.late = true)) ∧
    (runs → one → r.action = 1 → x = .fired none → r.sticky = true → busy = false → level ≠ vget y.levels be.val 16 → Gives eval s fun u =>
      u.fld (Reg.BASIN_SHED be.val) 0 5 = level ∧ vget u.sup.levels be.val 16 = level) ∧
    Leaves (.railDroop rail) s [flagSet s Reg.SUP_RAIL rail.val, countedAt s Reg.SUP_RAIL_CNT 0 32]
      { s with sup := { y with droops := Cells.write (fun _ => 0) y.droops rail.val (Cells.read (fun _ => 0) y.droops rail.val + 1) } } ∧
    (¬ rot → NoEffect (.shadowRotate basin) s) ∧
    (rot → s.bit Reg.FAR_CTRL 4 = true → Gives (.shadowRotate basin) s fun u => parked u ∧ RegsSameBut [Reg.FAR_TARGET, Reg.FAR_STATUS] s u) ∧
    (rot → s.bit Reg.FAR_CTRL 4 = false → turn = none → Gives (.shadowRotate basin) s parked) ∧
    (∀ n, rot → s.bit Reg.FAR_CTRL 4 = false → turn = some n → Gives (.shadowRotate basin) s fun u =>
      farRole u f = n ∧ farPhase u f = (if farSpare s f then 1 else 3) ∧ RegsSameBut [Reg.FAR_TARGET, Reg.FAR_STATUS] s u) ∧
    (phase = 1 → copied = true → idle → Gives (.shadowCopyEnd basin) s fun u => u = setCopied s f true) ∧
    (phase = 1 → copied = false → Gives (.shadowCopyEnd basin) s fun u => (idle → farCopied u f = true) ∧
      (basin = false → ∀ k < 0x20000, Cells.get (vget u.rill 16 RillEngine.zero).cistern k =
        if s.mark (rillWin role + k) = 2#2 then 0#36 else Cells.get (vget s.rill role RillEngine.zero).cistern k) ∧
      (basin = true → ∀ k < 0x40000, Cells.get (vget u.basin 8 BasinEngine.zero).ls k =
        if s.mark (basinWin role + k) = 2#2 then 0#36 else Cells.get (vget s.basin role BasinEngine.zero).ls k)) ∧
    (phase ≠ 1 ∨ (copied = true ∧ ¬ idle) → NoEffect (.shadowCopyEnd basin) s) ∧
    (basin = true → phase = 1 → farCopied s f = false → Gives .skipped s fun u => parked u ∧ u.bit Reg.FAR_STATUS 6 = true) ∧
    (basin = true → phase ≠ 1 ∨ farCopied s f = true → NoEffect .skipped s) ∧
    (phase ≠ 3 ∨ (farMove s f).isSome = true → NoEffect (.bistEnd basin false false) s) ∧
    (bist → Gives (.bistEnd basin false true) s (fun u => farMove u f = some true ∧ late u ∧ result 2 u ∧ u.bit Reg.FAR_STATUS 1 = true) ∧
      Gives (.bistEnd basin false false) s (fun u => farMove u f = some false ∧ late u ∧ result 0 u ∧ u.bit f.retired spare = true) ∧
      Gives (.bistEnd basin true false) s (fun u => parked u ∧ result 1 u ∧ u.bit f.retired spare = true ∧ farSpare u f = false) ∧
      Gives (.bistEnd basin true true) s (fun u => farPhase u f = 1 ∧ farRole u f = role ∧ result 3 u ∧
        u.fld Reg.FAR_COUNTS 16 16 = (s.fld Reg.FAR_COUNTS 16 16 + 1) % 65536)) ∧
    (∀ pass, alone → Gives (.bistEnd basin true pass) s (fun u => parked u ∧ result 3 u) ∧
      Gives (.bistEnd basin false pass) s fun u => farMove u f = some false ∧ late u ∧ result 2 u) ∧
    (¬ laneOn → ∀ y, NoEffect (.laneShadow be y) s) ∧
    (laneTaken → NoEffect (.laneShadow be .same) s ∧ NoEffect (.laneShadow be .transient) s) ∧
    (laneOn → ¬ laneTaken → Gives (.laneShadow be .same) s (fun u => moved u ∧ RegsSameBut [Reg.FAR_TARGET] s u) ∧
      Gives (.laneShadow be .transient) s fun u => moved u ∧ laneBist 3 u) ∧
    (laneOn → ¬ laneTaken → 0 < sparesLeft s kindLane be.val → Gives (.laneShadow be .fails) s fun u =>
      u.far.laneMove = s.far.laneMove ++ [(be.val, lane)] ∧ laneBist 2 u) ∧
    (laneOn → laneTaken ∨ sparesLeft s kindLane be.val = 0 → be.val ∉ s.far.engineMove → Gives (.laneShadow be .fails) s fun u =>
      u.far.engineMove = s.far.engineMove ++ [be.val] ∧ u.far.laneMove = s.far.laneMove ∧ laneBist 2 u) ∧
    (¬ needs ∨ (banks = 0 ∧ cause = 2) ∨ (0 < banks ∧ s.bit Reg.FAR_CTRL 3 = false) ∨ (0 < banks ∧ migrating s = true ∧ cause = 2) →
      NoEffect (.bankMigrationStart b cause) s) ∧
    (needs → s.bit Reg.FAR_CTRL 3 = true → 0 < banks → migrating s = false → Leaves (.bankMigrationStart b cause) s [fieldAt s map 6 1 1]
      { s with far := forgotten }) ∧
    (needs → s.bit Reg.FAR_CTRL 3 = true → 0 < banks → migrating s = true → cause ≠ 2 → s.bit map 6 = false → (∀ e ∈ s.far.bankQueue, e.1 ≠ b.val) →
      Leaves (.bankMigrationStart b cause) s [] { s with far := { s.far with bankQueue := s.far.bankQueue ++ [(b.val, cause.val)] } }) ∧
    (needs → banks = 0 → cause ≠ 2 → s.far.worn.getLsbD b.val = false → Gives (.bankMigrationStart b cause) s fun u =>
      u.far.worn.getLsbD b.val = true ∧ u.bit Reg.FAR_STATUS 0 = true ∧ u.power = s.power) ∧
    (needs → banks = 0 → cause = 1 → s.far.worn.getLsbD b.val = true → s.power.phase = .running → Gives (.bankMigrationStart b cause) s fun u =>
      u.power.phase = .held ∧ u.boot.safeReq = some 8#8) ∧
    (s.bit map 6 = false → NoEffect (.bankRemap b) s) ∧
    (s.bit map 6 = true → s.tick.entered = true → Gives (.bankRemap b) s fun u => u.far.bankMove = some b.val ∧ u.reg map = s.reg map) ∧
    (s.bit map 6 = true → s.tick.entered = false → s.far.bankQueue = [] → Gives (.bankRemap b) s fun u => u.far.bankMove = none ∧ u.reg map = BitVec.ofNat 32 (36 - banks)) ∧
    (v.getLsbD 31 = false ∨ s.bit Reg.FAR_STATUS 10 = false → NoEffect (.farApply v) s) ∧
    (init f.kind → plain → unit < f.roles → s.bit f.retired unit = false → farSpare s f = true → Gives (.farApply v) s fun u =>
      farPhys u (f.base + unit) = f.roles ∧ u.bit f.retired unit = true ∧ farSpare u f = false) ∧
    (init f.kind → plain → unit < f.roles → s.bit f.retired unit = false → farSpare s f = false → Leaves (.farApply v) s
      [flagSet s f.retired unit, fieldAt s (Reg.FAR_ROLE (f.base + unit)) 8 1 1] noted) ∧
    (init f.kind → plain → unit = f.roles → s.bit f.retired unit = false → Gives (.farApply v) s fun u => u.bit f.retired unit = true ∧
      farSpare u f = false) ∧
    (init 2 → 0 < sparesLeft s kindLane (unit / 8) → Gives (.farApply v) s fun u => u.fld (Reg.FAR_LANE_MAP (unit / 8)) 0 4 = unit % 8 + 8) ∧
    (init 3 → unit = b.val → 0 < banks → s.fld map 0 6 < 32 → Gives (.farApply v) s fun u => u.reg map = BitVec.ofNat 32 (36 - banks) ∧
      sparesLeft u kindBank 0 = banks - 1)

namespace Sys2Proof.Claims

open Sys2Proof Sys2Proof.Machine

/-- The tether message `m` follows those already on port `p`'s wire in `u`, where the port's link is up in `s`; where it is down nothing does. -/
def SentOn (s u : State) (p : Nat) (m : TetherMsg) : Prop :=
  (tetherAt u p).wire = (tetherAt s p).wire ++ (if s.bit (Reg.TETH_PSTAT p) 0 then [m] else [])

end Sys2Proof.Claims

/-- HELLO goes out on both linked ports at every sixteenth frame tick and at no other. A message on a port without a link does nothing. An
unrelayed MARK of another device shows it as the peer with its phase, ends the count of missed marks, and is relayed on the other port;
the leader's gives its frame count. An unrelayed HELLO notes that the peer said it, and a leader's names the leader. A firmware message
seen before is ignored; one of an unknown type, or one for this device that finds 16 messages waiting, sets MSG_DROP; any other new one is
relayed unless this device sent it, and one for this device or for all joins the messages received with its missing body words zero. MODE
on a follower that runs no change, for a running mode and a frame at least 3 of the leader's frames ahead, is taken as the change to make
(that the leader's count is that of its MARKs: log entry 105). Words written gather until the message is whole, and it is then queued on
both linked ports with this device's number and count, or dropped with MSG_DROP where a queue holds 16; a header within a message drops
that one. A read answers the next word of the oldest message, or zero with none; a message without a body leaves at the read after its
header. (20_tether_link.md Control messages; 20_tether_link.md Ticks across the ring; 20_tether_link.md Registers) -/
def Obligations.TetherMessages : Prop :=
  ∀ (s : State) (p : Fin 2) (c : BitVec 64) (d : BitVec 2) (host leader : Bool) (mem wit : BitVec 4) (ring : BitVec 8) (h v phase : BitVec 32)
    (body : List (BitVec 32)) (m : Fin 18), RegsWf s →
    let t := s.tether
    let id := s.fld Reg.TETH_CFG 0 2
    let link := fun (q : Nat) => s.bit (Reg.TETH_PSTAT q) 0
    let other := 1 - p.val
    let hello := TetherMsg.hello (BitVec.ofNat 2 id) (s.bit Reg.TETH_CFG 3) (s.bit Reg.TETH_CFG 2) ((s.reg Reg.TETH_CFG).extractLsb' 16 8)
      (if t.witness then (s.reg Reg.TETH_WITNESS).extractLsb' 0 4 else 0#4) false
    let get := fun (x : TetherMsg) => Instr.tetherMessageReceive p x phase
    let key := ((h.extractLsb' 16 2).toNat, (h.extractLsb' 24 8).toNat)
    let ty := (h.extractLsb' 0 8).toNat
    let known := 0x10 ≤ ty ∧ ty ≤ 0x7F ∧ ¬ (0x15 ≤ ty ∧ ty ≤ 0x1F)
    let new := link p.val = true ∧ key ∉ t.seen
    let mine := h.getLsbD 20 = true ∨ (h.extractLsb' 18 2).toNat = id
    let words := fun (x : BitVec 32) => (min 252 (x.extractLsb' 8 8).toNat + 3) / 4
    let whole := h :: (List.range (words h)).map fun k => body.getD k 0#32
    let relayed := fun (u : State) =>
      (tetherAt u other).wire = (tetherAt s other).wire ++ (if link other = true ∧ key.1 ≠ id then [.firmware h body] else [])
    let asked := whole.getD 1 0#32
    let run := isRunMode (asked.extractLsb' 0 3) = true ∧ ¬ (asked.extractLsb' 0 3 = 2#3 ∧ asked.getLsbD 4 = true)
    let ahead := (whole.getD 2 0#32 - (s.tick.frameCnt.setWidth 32 + t.ahead)).toInt
    let noted := fun (u : State) => u.tether.seen = (key :: t.seen).take 64
    let drop := flagSet s Reg.TETH_STATUS 4
    let room := ∀ q < 2, (tetherAt s q).queue.length < 16
    let queued := fun (x : BitVec 32) (xs : List (BitVec 32)) (u : State) => u.tether.push = [] ∧ u.tether.seq = t.seq + 1#8 ∧
      ∀ q < 2, (tetherAt u q).queue = (tetherAt s q).queue ++
        (if link q then [.firmware ((x &&& 0x001CFFFF#32) ||| BitVec.ofNat 32 (id * 2 ^ 16 + t.seq.toNat * 2 ^ 24)) xs] else [])
    let read := fun (w : BitVec 32) (u : State) => respOf u m = ⟨0#36, leBytes w 4, false⟩
    (s.tick.frameCnt.toNat % 16 = 0 → Gives .tetherHello s fun u => SentOn s u 0 hello ∧ SentOn s u 1 hello ∧ u = { s with tether := u.tether }) ∧
    (s.tick.frameCnt.toNat % 16 ≠ 0 → NoEffect .tetherHello s) ∧
    (link p.val = false → NoEffect (get (.mark c d host mem false)) s ∧ NoEffect (get (.firmware h body)) s) ∧
    (link p.val = true → d.toNat ≠ id → Gives (get (.mark c d host mem false)) s fun u => (tetherAt u p.val).marks = 0 ∧
      vget (tetherAt u p.val).heard d.toNat 4 = 0 ∧ u.reg (Reg.TETH_PHASE p.val) = phase ∧ u.tether.hosts.getLsbD d.toNat = host ∧
      u.fld (Reg.TETH_PSTAT p.val) 1 3 = d.toNat + (if host then 4 else 0) ∧ SentOn s u other (.mark c d host mem true) ∧
      (t.leader = some d → u.tether.ahead = c.setWidth 32 - s.tick.frameCnt.setWidth 32) ∧ RegsSameBut [Reg.TETH_PSTAT p.val, Reg.TETH_PHASE p.val] s u) ∧
    (link p.val = true → d.toNat ≠ id → Gives (get (.hello d host leader ring wit false)) s fun u => (tetherAt u p.val).peerHello = true ∧
      u.fld (Reg.TETH_PSTAT p.val) 1 3 = d.toNat + (if host then 4 else 0) ∧ SentOn s u other (.hello d host leader ring wit true) ∧
      (leader = true → u.tether.leader = some d)) ∧
    (key ∈ t.seen → NoEffect (get (.firmware h body)) s) ∧
    (new → ¬ known → Gives (get (.firmware h body)) s fun u => u.reg drop.1 = drop.2 ∧ noted u ∧ u.tether.rxq = t.rxq) ∧
    (new → known → mine → t.rxq.length < 16 → Gives (get (.firmware h body)) s fun u => u.tether.rxq = t.rxq ++ [whole] ∧ noted u ∧
      relayed u ∧ (ty ≠ 0x11 → ty ≠ 0x14 → u.regs = s.regs)) ∧
    (new → mine → t.rxq.length < 16 → ty = 0x11 → isFollower s = true → run → 3 ≤ ahead → s.tick.seq.phase = .idle → s.tick.pending = false →
      Gives (get (.firmware h body)) s fun u => u.tether.change = some (asked.extractLsb' 0 3, asked.getLsbD 4, whole.getD 2 0#32)) ∧
    (new → known → mine → 16 ≤ t.rxq.length → Gives (get (.firmware h body)) s fun u => u.tether.rxq = t.rxq ∧ u.reg drop.1 = drop.2 ∧
      relayed u) ∧
    (new → known → ¬ mine → Gives (get (.firmware h body)) s fun u => u.tether.rxq = t.rxq ∧ relayed u ∧ u.regs = s.regs) ∧
    (t.push = [] → words v = 0 → room → Gives (.tethMsgTxWrite true v) s (queued v [])) ∧
    (t.push = [] → words v = 0 → ¬ room → Leaves (.tethMsgTxWrite true v) s [drop] s) ∧
    (t.push = [] → words v ≠ 0 → Gives (.tethMsgTxWrite true v) s fun u => u = { s with tether := { t with push := [v] } }) ∧
    (∀ xs, t.push = h :: xs → xs.length + 1 < words h → Gives (.tethMsgTxWrite false v) s fun u =>
      u = { s with tether := { t with push := h :: xs ++ [v] } }) ∧
    (∀ xs, t.push = h :: xs → words h = xs.length + 1 → room → Gives (.tethMsgTxWrite false v) s (queued h (xs ++ [v]))) ∧
    (t.push ≠ [] → words v ≠ 0 → Leaves (.tethMsgTxWrite true v) s [drop] { s with tether := { t with push := [v] } }) ∧
    (t.rxq = [] → Gives (.tethMsgRxRead m) s (read 0#32)) ∧
    (∀ x rest, t.rxq = [x] :: rest → t.read = 0 → Gives (.tethMsgRxRead m) s fun u => read x u ∧ u.tether = { t with read := 1 }) ∧
    (∀ x, t.rxq = [[x]] → t.read = 1 → Gives (.tethMsgRxRead m) s fun u => read 0#32 u ∧ u.tether = { t with rxq := [], read := 0 }) ∧
    (∀ x y ys rest, t.rxq = [x] :: (y :: ys) :: rest → ys ≠ [] → t.read = 1 → Gives (.tethMsgRxRead m) s fun u =>
      read y u ∧ u.tether = { t with rxq := (y :: ys) :: rest, read := 1 }) ∧
    (∀ x xs rest, t.rxq = (x :: xs) :: rest → xs ≠ [] → t.read < xs.length → Gives (.tethMsgRxRead m) s fun u =>
      read ((x :: xs).getD t.read 0#32) u ∧ u.tether = { t with read := t.read + 1 }) ∧
    (∀ x xs rest, t.rxq = (x :: xs) :: rest → xs ≠ [] → t.read = xs.length → Gives (.tethMsgRxRead m) s fun u =>
      read ((x :: xs).getD t.read 0#32) u ∧ u.tether = { t with rxq := rest, read := 0 })

/-- An enabled, powered port without a link comes up where at least two lanes locked or are on the spare, with its lanes shown and the
peer told of a lane on the spare; a disabled, unpowered or linked one does not change. Every receive lane that fails is announced; the
first, with the spare free, moves to it; a later one goes out of use, and with fewer than two of a direction left the link goes down; a
port without a link and a lane already failed change nothing. A failed spare takes the lane on it, announced, out of use. The peer's
notice of a lane moves this device's transmit lane at the frame named, or with the spare taken puts it out of use; a lane noticed before
does not change. Each lane that fails is retired, and the event recorded. The spare mirrors the next lane on each rotation while it
carries none. GO for a later frame arms the commit, and for an earlier one sets SYNC_LATE and leaves GROUP; at its frame the sets of the
group are committed with it, and for one that keeps a commit with another group the authority gets REPLY with BUSY. A rejoin after the
peer's HELLO mutes the channels until T. The end of the witness leaves authority to the lowest host-attached device of the ring, and with
none in it the partition without authority. (20_tether_link.md Ports and lanes; 20_tether_link.md Partitions and authority;
19_supervisor_and_farrier.md The persist journal) -/
def Obligations.TetherLinksAndAuthority : Prop :=
  ∀ (s : State) (p : Fin 2) (lanes : BitVec 5) (lane : BitVec 2) (frame v : BitVec 32) (k : Fin 29) (g : BitVec 4), RegsWf s →
    let t := s.tether
    let x := tetherAt s p.val
    let stat := Reg.TETH_PSTAT p.val
    let link := s.bit stat 0
    let put := fun (y : TetherPort) => { s with tether := { t with ports := vset t.ports p.val y } }
    let spare := match x.rxOnSpare with
      | some l => BitVec.ofNat 4 (2 ^ l.toNat)
      | none => 0#4
    let notice := match x.rxOnSpare with
      | some l => [TetherMsg.lane l ((s.tick.frameCnt + 1#64).setWidth 32)]
      | none => []
    let up := { x with fails := x.rxGone ||| (~~~(lanes.extractLsb' 0 4) &&& ~~~spare), spareBad := !lanes.getLsbD 4, marks := 0 }
    let enabled := s.bit Reg.TETH_CFG (4 + p.val) = true ∧ s.power.phase = .running ∧ s.listen = false ∧ inSafe s = false
    let fail := Instr.laneFail p ⟨lane.toNat, by have := lane.isLt; omega⟩
    let free := x.rxOnSpare = none ∧ x.rxMove = none ∧ x.spareBad = false
    let bit := fun (l : BitVec 2) => BitVec.ofNat 4 (2 ^ l.toNat)
    let out := { x with fails := x.fails ||| bit lane }
    let txOut := { x with txFails := x.txFails ||| bit lane }
    let carried := match x.rxOnSpare with
      | some l => some l
      | none => x.rxMove
    let announced := fun (l : BitVec 2) (u : State) => SentOn s u p.val (.lane l ((s.tick.frameCnt + 1#64).setWidth 32))
    let retired := fun (rx : Bool) (l : Nat) (u : State) => u.boot =
      (laneRetire (if rx then s.raise Reg.TETH_STATUS 2#32 else s) p.val rx l).boot
    let noticed := x.txOnSpare = some lane ∨ x.txMove.map Prod.fst = some lane ∨ x.txFails.getLsbD lane.toNat = true
    let ctl := (Reg.TETH_SYNC_CTL, v &&& 0xF#32)
    let at_ := s.reg Reg.TETH_SYNC_FRAME
    let later := 0 < (at_ - 1#32 - s.tick.frameCnt.setWidth 32).toInt
    let now := s.tick.frameCnt.setWidth 32
    let y := setAt s k.val
    let id := s.fld Reg.TETH_CFG 0 2
    let ring := (s.reg Reg.TETH_STATUS).extractLsb' 12 4 ||| members s
    let attached := ring &&& (t.hosts ||| (if s.bit Reg.TETH_CFG 3 then BitVec.ofNat 4 (2 ^ id) else 0#4))
    (enabled → link = false → 2 ≤ lanesWorking up → Gives (.tetherLinkUp p lanes) s fun u =>
      tetherAt u p.val = { up with wire := x.wire ++ notice } ∧ u.bit stat 0 = true ∧ u.fld stat 4 4 = (~~~(up.fails ||| up.txFails)).toNat ∧
      RegsSameBut [stat] s u) ∧
    (¬ enabled ∨ link = true ∨ lanesWorking up < 2 → NoEffect (.tetherLinkUp p lanes) s) ∧
    (link = false ∨ x.fails.getLsbD lane.toNat = true → NoEffect fail s) ∧
    (link = true → x.fails.getLsbD lane.toNat = false → free → Gives fail s fun u => (tetherAt u p.val).rxMove = some lane ∧
      u.bit Reg.TETH_STATUS 1 = true ∧ announced lane u ∧ (tetherAt u p.val).fails = x.fails ∧ retired true lane.toNat u) ∧
    (link = true → x.fails.getLsbD lane.toNat = false → ¬ free → Gives fail s fun u => (tetherAt u p.val).fails = out.fails ∧
      u.bit Reg.TETH_STATUS 1 = true ∧ announced lane u ∧ retired true lane.toNat u ∧ u.bit stat 0 = decide (2 ≤ lanesWorking out)) ∧
    (link = true → x.spareBad = false → carried = none → Gives (.laneFail p 4) s fun u => tetherAt u p.val = { x with spareBad := true } ∧
      u.bit Reg.TETH_STATUS 1 = true ∧ retired true 4 u) ∧
    (∀ l, link = true → x.spareBad = false → carried = some l → Gives (.laneFail p 4) s fun u => (tetherAt u p.val).spareBad = true ∧
      u.bit Reg.TETH_STATUS 1 = true ∧ (tetherAt u p.val).fails = x.fails ||| bit l ∧ announced l u ∧ retired true 4 u) ∧
    (link = false ∨ x.spareBad = true → NoEffect (.laneFail p 4) s) ∧
    (link = true → ¬ noticed → x.txOnSpare = none → x.txMove = none → Gives (.laneMessage p lane frame) s fun u =>
      (tetherAt u p.val).txMove = some (lane, frame) ∧ retired false lane.toNat u) ∧
    (link = true → ¬ noticed → (x.txOnSpare ≠ none ∨ x.txMove ≠ none) → Gives (.laneMessage p lane frame) s fun u =>
      (tetherAt u p.val).txFails = txOut.txFails ∧ u.bit stat 0 = decide (2 ≤ lanesWorking txOut) ∧ retired false lane.toNat u) ∧
    (link = false ∨ noticed → NoEffect (.laneMessage p lane frame) s) ∧
    (link = true → x.rxOnSpare = none → Gives (.spareLaneRotate p) s fun u => u = put { x with mirror := x.mirror + 1#2 }) ∧
    (link = false ∨ x.rxOnSpare ≠ none → NoEffect (.spareLaneRotate p) s) ∧
    (v.getLsbD 31 = false → Leaves (.syncGo v) s [ctl] s) ∧
    (v.getLsbD 31 = true → later → Leaves (.syncGo v) s [ctl] { s with tether := { t with sync := some (v.extractLsb' 0 4, at_, !s.bit Reg.TETH_STATUS 17) } }) ∧
    (v.getLsbD 31 = true → ¬ later → Leaves (.syncGo v) s [flagSet s Reg.TETH_STATUS 3] s) ∧
    (∀ f b, t.sync = some (g, f, b) → now = f - 1#32 → g ≠ 0#4 → (∀ j < 29, groupHas s g.toNat j = decide (j = k.val)) → commitReads s k.val = false →
      y.copying = false → commitRefused s k.val g (b && !(s.bit Reg.TETH_STATUS 17 && setUnread s k.val)) = none → Gives .syncCommit s fun u =>
        setAt u k.val = { y with committed := true, group := g } ∧ (∀ j, j ≠ k.val → setAt u j = setAt s j) ∧ u.regs = s.regs) ∧
    (∀ f b d, t.sync = some (g, f, b) → now = f - 1#32 → g ≠ 0#4 → (∀ j < 29, groupHas s g.toNat j = decide (j = k.val)) → y.committed = true →
      y.group ≠ g → authorityDevice s ((s.reg Reg.TETH_STATUS).extractLsb' 12 4) = some d → d ≠ id → (∀ q < 2, (tetherAt s q).queue.length < 16) →
      Gives .syncCommit s fun u => setAt u k.val = y ∧ ∀ q < 2, (tetherAt u q).queue = (tetherAt s q).queue ++
        (if s.bit (Reg.TETH_PSTAT q) 0 then [.firmware (BitVec.ofNat 32 (0x814 + id * 2 ^ 16 + d * 2 ^ 18 + t.seq.toNat * 2 ^ 24))
          [BitVec.ofNat 32 (0x413 + k.val * 65536), now]] else [])) ∧
    ((∀ f h b, t.sync = some (h, f, b) → now ≠ f - 1#32) → NoEffect .syncCommit s) ∧
    (x.lost = true → x.peerHello = true → link = true → Gives (.rejoin p) s fun u => tetherAt u p.val = { x with lost := false, muted := true } ∧
      RegsSameBut [Reg.TETH_STATUS] s u) ∧
    (x.lost = false ∨ x.peerHello = false ∨ link = false → NoEffect (.rejoin p) s) ∧
    (Gives .witnessExpiry s fun u => u.tether.witness = false ∧ RegsSameBut [Reg.TETH_STATUS] s u ∧ u = { s with regs := u.regs, tether := u.tether }) ∧
    (∀ d < 4, attached.getLsbD d = true → (∀ j < d, attached.getLsbD j = false) → Gives .witnessExpiry s fun u =>
      u.fld Reg.TETH_STATUS 16 2 = (if (members s).getLsbD d then 1 else 2) ∧ u.tether.commits = decide (d = id)) ∧
    (attached = 0#4 → Gives .witnessExpiry s fun u => u.fld Reg.TETH_STATUS 16 2 = 2 ∧ u.tether.commits = false)

/-- Power-on resets every register but the sensed bank levels, empties the yard and the tack room, keeps the flash, and holds reset.
RESET_N, a rail fault, a clock fault and a start whose time has passed each take a running device, or one on its way to STANDBY, to a warm
reset: reset is held, the reason is recorded and the one before moved on, the ticks are at their reset state, no claim and no held access
is left, FAULT_N is low, flash and life cycle stay, and yard, engine memories and staged copies keep their contents with RETAIN and no
rail fault and are empty otherwise; a kept transmit entry of the tether sends nothing before its next swap, and the real-time clock
stands. While a reset is held a rail fault replaces the reason and empties the memories, a clock fault replaces the reason, and RESET_N
does nothing; in STANDBY no cause does anything. A start that no image is timed for has no effect. (21_power_reset_pins.md Resets;
12_clocking.md; 18_boot_and_lifecycle.md Choosing an image; 04_rill_engines.md; 06_basin_engines.md) -/
def Obligations.ResetKindsAndWhatTheyKeep : Prop :=
  ∀ (s : State) (io : BitVec 3),
    let p := s.power
    let reason := s.fld Reg.PWR_RST 0 8
    let empty := fun (u : State) => u.yard = [] ∧ (∀ re : Fin 16, (rillEng u re).cistern = [] ∧ (rillEng u re).prog = [] ∧ (rillEng u re).stS = []) ∧
      ∀ n < 8, (coreOf u n).ls = [] ∧ (coreOf u n).code = [] ∧ (coreOf u n).stS = []
    let kept := fun (u : State) => u.yard = s.yard ∧
      (∀ re : Fin 16, (rillEng u re).cistern = (rillEng s re).cistern ∧ (rillEng u re).prog = (rillEng s re).prog ∧
        (rillEng u re).stS = (rillEng s re).stS ∧ (rillEng u re).stA = (rillEng s re).stA ∧ (rillEng u re).runA = false) ∧
      (∀ q < 2, (tetherAt u q).txA = (tetherAt s q).txA ∧ (tetherAt u q).live = false) ∧
      ∀ n < 8, (coreOf u n).ls = (coreOf s n).ls ∧ (coreOf u n).code = (coreOf s n).code ∧ (coreOf u n).stS = (coreOf s n).stS
    let warm := fun (code : Nat) (u : State) => u.power.phase = .held ∧ u.power.faultLow = true ∧ u.boot.flash = s.boot.flash ∧
      u.boot.lc = s.boot.lc ∧ u.tick = TickState.zero ∧ u.claims = [] ∧ u.heldAcc = [] ∧ u.pending = s.pending ∧ u.power.rtc = p.rtc ∧
      (s.bit Reg.PWR_CTRL 0 = true → code ≠ 0x17 → kept u) ∧ (s.bit Reg.PWR_CTRL 0 = false ∨ code = 0x17 → empty u) ∧
      (RegsWf s → u.reg Reg.PWR_RST = BitVec.ofNat 32 (code + reason * 256) ∧ u.bit Reg.PWR_CTRL 0 = s.bit Reg.PWR_CTRL 0)
    let powered := p.phase = .running ∨ p.phase = .entering
    (Gives (.powerOn io) s fun u => u.power.phase = .held ∧ empty u ∧ u.boot.tack = [] ∧ u.tick = TickState.zero ∧
      u.boot.flash = s.boot.flash ∧ u.boot.lc = s.boot.lc ∧ u.fld Reg.PWR_STATUS 12 3 = io.toNat ∧
      ∀ a, a ≠ Reg.PWR_STATUS → u.reg a = regReset a) ∧
    (powered → Gives .resetN s (warm 0x13)) ∧ (powered → Gives .railFault s (warm 0x17)) ∧ (powered → Gives .clockFault s (warm 0x16)) ∧
    (powered → s.boot.armed = true → Gives .startTimeout s (warm 0x14)) ∧
    (p.phase = .held → Leaves .clockFault s [fieldAt s Reg.PWR_RST 0 8 0x16] s) ∧
    (p.phase = .held → Gives .railFault s fun u => u.power.phase = .held ∧ empty u ∧ u.boot = s.boot ∧
      (RegsWf s → u.fld Reg.PWR_RST 0 8 = 0x17 ∧ u.fld Reg.PWR_RST 8 8 = s.fld Reg.PWR_RST 8 8)) ∧
    (p.phase = .held → NoEffect .resetN s ∧ NoEffect .startTimeout s) ∧
    (p.phase = .standby → NoEffect .resetN s ∧ NoEffect .railFault s ∧ NoEffect .clockFault s ∧ NoEffect .startTimeout s) ∧
    (s.boot.armed = false → NoEffect .startTimeout s)

/-- The STANDBY write acts with its key alone and in a running device, and with a wake source only while a mode runs, not in SAFE or
before the first mode (log entry 100): it waits for a flash operation, without a wake source it is refused with STBY_REFUSED, and
otherwise it starts the entry: CORE stops, MUTE_N is low, every Ethernet link is down, and HOST_STATUS tells the loss of the PCIe link.
The fall of PWR_ON ends the entry, with the CSP isolated. An enabled wake is latched from the write to that fall, its timer leaving the
real-time clock at the wake time, its fraction zero. In STANDBY a wake, or one latched, starts the wake reset with every active source in
WAKE_SRC, reason 1 where the pin is one of them and else 2, the yard and the tack room empty, and the always-on scratch words kept. At any
other time a wake does nothing. A write of PWR_RTC_SEC sets the seconds and clears the fraction. (21_power_reset_pins.md Rails and
sequencing; 21_power_reset_pins.md Standby and wake; 22_address_map_registers.md) -/
def Obligations.StandbyWakesAndTheRealTimeClock : Prop :=
  ∀ (s : State) (v : BitVec 32) (edge : Option Bool) (timer : Bool),
    let p := s.power
    let reason := s.fld Reg.PWR_RST 0 8
    let stby := v.extractLsb' 0 8 = 0x5B#8
    let armed := s.bit Reg.PWR_CTRL 3 = true ∨ s.bit Reg.PWR_CTRL 4 = true
    let idle := p.phase = .running ∧ stby ∧ s.bit Reg.FL_STATUS 0 = false
    let runs := s.tick.entered = true ∧ inSafe s = false
    let due := s.reg Reg.PWR_WAKE_TIME ++ 0#15
    let pin := decide (s.bit Reg.PWR_CTRL 3 = true ∧ edge = some (s.bit Reg.PWR_CTRL 5))
    let tmr := decide (s.bit Reg.PWR_CTRL 4 = true ∧ timer = true)
    let w := BitVec.ofNat 2 ((if pin then 1 else 0) + (if tmr then 2 else 0))
    let wakes := fun (x : BitVec 2) (u : State) => u.power.phase = .held ∧ u.yard = [] ∧ u.boot.tack = [] ∧ u.boot.flash = s.boot.flash ∧
      u.boot.lc = s.boot.lc ∧ (RegsWf s → u.fld Reg.PWR_STATUS 8 2 = x.toNat ∧
        u.reg Reg.PWR_RST = BitVec.ofNat 32 ((if x.getLsbD 0 then 1 else 2) + reason * 256) ∧
        ∀ k < 4, u.reg (Reg.PWR_SCRATCH k) = s.reg (Reg.PWR_SCRATCH k))
    let latches := p.phase = .entering ∨ p.phase = .running ∧ p.stbyWait = true
    (idle → armed → runs → Gives (.stbyReq v) s fun u => u.power = { p with phase := .entering, stbyWait := false } ∧ u.boot = s.boot ∧
      u.ports.muteN = false ∧ (RegsWf s → coreSrc u = 0 ∧ u.bit Reg.HOST_STATUS 8 = true ∧ ∀ q < 3, ethLink u q = false)) ∧
    (idle → ¬ armed → Leaves (.stbyReq v) s [flagSet s Reg.PWR_STATUS 0] { s with power := { p with stbyWait := false, wake := 0#2 } }) ∧
    (p.phase = .running → stby → s.bit Reg.FL_STATUS 0 = true → runs ∨ ¬ armed → Gives (.stbyReq v) s fun u => u = { s with power := { p with stbyWait := true } }) ∧
    (p.phase ≠ .running ∨ ¬ stby ∨ (armed ∧ ¬ runs) → NoEffect (.stbyReq v) s) ∧
    (p.phase = .entering → Gives .pwrOnFall s fun u =>
      u = { s with power := { p with phase := .standby, pwrOn := false, alive := false, faultBoot := false, faultLow := false },
                   csp := { s.csp with sel := false, txn := none } }) ∧
    (p.phase ≠ .entering → NoEffect .pwrOnFall s) ∧
    (latches → Gives (.wake edge timer) s fun u =>
      u = { s with power := { p with wake := p.wake ||| w, rtc := if tmr then due else p.rtc } }) ∧
    (p.phase = .standby → w ≠ 0#2 → p.wake = 0#2 → Gives (.wake edge timer) s fun u => wakes w u ∧ (tmr = true → u.power.rtc = due)) ∧
    (¬ latches → ¬ (p.phase = .standby ∧ w ≠ 0#2 ∧ p.wake = 0#2) → NoEffect (.wake edge timer) s) ∧
    (p.phase = .standby → p.wake ≠ 0#2 → Gives .latchedWake s (wakes p.wake)) ∧
    (p.phase ≠ .standby ∨ p.wake = 0#2 → NoEffect .latchedWake s) ∧
    Leaves (.pwrRtcSecWrite v) s [(Reg.PWR_RTC_SUB, 0#32)] { s with power := { p with rtc := v ++ 0#15 } }

/-- A write of GPIO_CFG takes its fields; with EN it claims a free pin, and on a pin of another holder EN reads 0, SYS_CONFLICT is raised
and nothing else changes; without EN it releases the pin. SET and CLR set and clear OUT of exactly the pins named. An edge makes the level
of a pin that neither GPIO, a compare output nor the CSP drives the one given, and does not move one that they drive; one of CSP_SEL_N's
pin is that signal's assertion or release. In each case a pin's edge flag is set where its level changed in a direction that its IRQ field
selects, and stays as it was otherwise. (21_power_reset_pins.md GPIO and pin registers; 21_power_reset_pins.md Shared resources and
claims) -/
def Obligations.GeneralPurposePins : Prop :=
  ∀ (s : State) (i : Fin 124) (k : Fin 4) (v : BitVec 32) (level : Bool), RegsWf s →
    let cfg := Reg.GPIO_CFG i.val
    let irq := Reg.GPIO_IRQ (i.val / 32)
    let flagged := fun (j : Nat) (u : State) => u.bit (Reg.GPIO_IRQ (j / 32)) (j % 32) = (s.bit (Reg.GPIO_IRQ (j / 32)) (j % 32) ||
      (pinLevel u j ^^ pinLevel s j) && (if pinLevel u j then u.bit (Reg.GPIO_CFG j) 8 else u.bit (Reg.GPIO_CFG j) 9))
    let named := fun (j : Nat) => j / 32 = k.val ∧ v.getLsbD (j % 32) = true
    let moves := fun (c : Instr) (f : BitVec 32 → BitVec 32) => Gives c s fun u =>
      (∀ j < 124, u.reg (Reg.GPIO_CFG j) = (if named j then f (s.reg (Reg.GPIO_CFG j)) else s.reg (Reg.GPIO_CFG j)) ∧
        (named j → flagged j u) ∧ (¬ named j → u.bit (Reg.GPIO_IRQ (j / 32)) (j % 32) = s.bit (Reg.GPIO_IRQ (j / 32)) (j % 32))) ∧
      RegsSameBut (Reg.GPIO_IRQ k.val :: (List.range 124).map Reg.GPIO_CFG) s u ∧ u = { s with regs := u.regs }
    let b := BitVec.ofNat 128 (2 ^ i.val)
    let driven := gpioDrives s i.val || timeDrives s i.val || (decide (94 ≤ i.val) && decide (i.val < 104) && (cspLevel s (i.val - 94)).isSome)
    (v.getLsbD 0 = true → resFree s 0 i.val fnGpio = true → Gives (.gpioCfgWrite i v) s fun u => u.reg cfg = (v &&& 0x3F6#32) ||| 1#32 ∧
      (Memory.wf s = true → resHolder u 0 i.val = fnGpio) ∧ flagged i.val u ∧ RegsSameBut [cfg, irq] s u ∧
      u = { s with regs := u.regs, claims := u.claims }) ∧
    (v.getLsbD 0 = true → resFree s 0 i.val fnGpio = false → Gives (.gpioCfgWrite i v) s fun u => u.reg cfg = s.reg cfg &&& ~~~1#32 ∧
      u.bit Reg.SYS_STATUS 1 = true ∧ RegsSameBut [cfg, Reg.SYS_CONFLICT, Reg.SYS_STATUS] s u ∧ u = { s with regs := u.regs }) ∧
    (v.getLsbD 0 = false → Gives (.gpioCfgWrite i v) s fun u => u.reg cfg = v &&& 0x3F6#32 ∧ (Memory.wf s = true → resHolder u 0 i.val ≠ fnGpio) ∧
      flagged i.val u ∧ RegsSameBut [cfg, irq] s u ∧ u = { s with regs := u.regs, claims := u.claims }) ∧
    moves (.gpioSet k v) (· ||| 4#32) ∧ moves (.gpioClr k v) (· &&& ~~~4#32) ∧
    (i.val = 103 → exec (.gpioEdge i level) s = exec (if level then .cspSelNRelease false else .cspSelNAssert) s) ∧
    (i.val ≠ 103 → Gives (.gpioEdge i level) s fun u => flagged i.val u ∧ pinLevel u i.val = (if driven then pinLevel s i.val else level) ∧
      RegsSameBut [irq] s u ∧ u = { s with regs := u.regs, power := { s.power with pins := u.power.pins, driven := u.power.driven } } ∧
      u.power.driven = (if funcDrives s i.val then s.power.driven else s.power.driven ||| b) ∧
      u.power.pins = if level then s.power.pins ||| b else s.power.pins &&& ~~~b)

/-- A served write in a block's range, by the control core or the host: in a closed window it is refused with no effect; across a register
boundary, or of 1 or 2 bytes at a listed offset, it is not performed and sets SIZE_ERR with an error response; at an unlisted offset it is
discarded with no error and recorded in SYS_UNMAPPED; one of 32 bits at a register of the SYS, ASRC, SUP and DEBUG blocks, SUP_CTRL apart,
whose fields are plain takes the RW fields from the value, clears the W1C flags written 1, and keeps every other field, with no error and
no other effect. (22_address_map_registers.md Register blocks; 00_scope.md) -/
def Obligations.RegisterWrites : Prop :=
  ∀ (s : State) (m : Fin 18) (off : BitVec 24) (size : Fin 3) (v : BitVec 32), RegsWf s → m ∈ [1, 11] →
    let a := 0x40000000 + off.toNat
    let n := 2 ^ size.val
    let write := Instr.registerWrite m off size v
    let refused := fun (u : State) => (respOf u m).err = true ∧ u.bit Reg.SYS_STATUS 3 = true ∧ RegsSameBut [Reg.SYS_STATUS] s u ∧
      u = { s with regs := u.regs, resp := u.resp }
    Served s m (.writeBytes (BitVec.ofNat 32 a) ((leBytes v n).map some)) → inRegBlock a = true →
    (regClosed s (a / 4 * 4) = true → Gives write s fun u => (respOf u m).err = true ∧ u = { s with resp := u.resp }) ∧
    (regClosed s (a / 4 * 4) = false → 4 < a % 4 + n → Gives write s refused) ∧
    (regClosed s (a / 4 * 4) = false → a % 4 + n ≤ 4 → (regFind (a / 4 * 4)).isSome = true → n < 4 → Gives write s refused) ∧
    (regClosed s (a / 4 * 4) = false → a % 4 + n ≤ 4 → regFind (a / 4 * 4) = none → Gives write s fun u => (respOf u m).err = false ∧
      u.bit Reg.SYS_STATUS 2 = true ∧ u.reg Reg.SYS_UNMAPPED = BitVec.ofNat 32 (off.toNat + m.val * 2 ^ 24 + 2 ^ 29) ∧
      RegsSameBut [Reg.SYS_STATUS, Reg.SYS_UNMAPPED] s u ∧ u = { s with regs := u.regs, resp := u.resp }) ∧
    (∀ d, regFind a = some d → a % 4 = 0 → n = 4 → a / 0x10000 ∈ [0x4000, 0x4043, 0x4070, 0x40F0] → a ≠ Reg.SYS_IRQ_HOST_ACK → a ≠ Reg.SUP_CTRL → Gives write s fun u =>
      u.reg a = ((s.reg a &&& ~~~d.rw) ||| (v &&& d.rw)) &&& ~~~(v &&& d.w1c) ∧ (respOf u m).err = false ∧ RegsSameBut [a] s u ∧
      u = { s with regs := u.regs, resp := u.resp })

/-- After reset every register that the summaries give a value other than zero holds it: the identity, the clock and PLL settings, the
bank owners and the bank map, the mode code, the shedding levels, the cache, the Ethernet and T1S settings, the stream and time settings,
the port of the flash, the farrier's spares and roles, the tether's identity and the pins' settings; the run, enable and control registers
of the engines, ports, rings and streams are zero. No mode is entered, no tick has been counted, no set is committed, no pin or channel is
claimed, the control core is held, no command waits, and the memories are in canonical form with the yard and the tack room zero. The
model starts with reset held: its choice (log entry 3). (12_clocking.md Registers; 13_ethernet_macs.md Registers;
16_memory_and_crossbar.md Registers; 19_supervisor_and_farrier.md Registers; 21_power_reset_pins.md GPIO and pin registers;
22_address_map_registers.md SYS; 22_address_map_registers.md TICK) -/
def Obligations.ResetValues : Prop :=
  let r := fun (a : Nat) (v : Nat) => State.reset.reg a = BitVec.ofNat 32 v
  (r Reg.SYS_ID 0x18360A01 ∧ r Reg.CLK_STATUS 0xC0 ∧ r Reg.MPLL_DIV 0x100001 ∧ r Reg.MPLL_ACQ 0x100 ∧ r Reg.MNCO_FW_HI 0x200 ∧ r Reg.BOOT_WDT 10 ∧
    r Reg.MEM_CTRL 0x100000 ∧ r Reg.TICK_MODE 3 ∧ r Reg.CC_CACHE 1 ∧ r Reg.T1S_PLCA 0x8100 ∧ r Reg.T1S_AUDIO 0x1116A ∧ r Reg.STR_CFG 10 ∧
    r Reg.TIME_INC 0x28B0AAAB ∧ r Reg.TIME_SERVO 0x3E80A12 ∧ r Reg.CSP_M_CFG 0x13 ∧ r Reg.SUP_STATE 0x3000 ∧ r Reg.FAR_STATUS 0x700 ∧
    r Reg.FAR_PERIOD 2000 ∧ r Reg.FAR_SPARES 0x713FF ∧ r Reg.FAR_BANK_CFG 64 ∧ r Reg.TETH_CFG 0x300) ∧
  (∀ b < 32, r (Reg.MEM_BANK_OWNER b) 0x10001 ∧ r (Reg.MEM_BANK_MAP b) b) ∧ (∀ n < 9, r (Reg.BASIN_SHED n) 16) ∧
  (∀ p < 2, r (Reg.ETH_MAXLEN p) 1522 ∧ r (Reg.ETH_EEE p) 0x110064 ∧ r (Reg.ETH_DS p) 0xF1E0A) ∧
  (∀ k < 17, r (Reg.FAR_ROLE k) k) ∧ (∀ k < 9, r (Reg.FAR_ROLE (17 + k)) k) ∧
  (∀ i < 124, r (Reg.GPIO_CFG i) (if 94 ≤ i ∧ i ≤ 107 then 0x40 else 0x50)) ∧
  (∀ n < 16, r (Reg.RILL_CTRL n) 0 ∧ r (Reg.RILL_STATUS n) 0) ∧ (∀ n < 8, r (Reg.BASIN_CTRL n) 0 ∧ r (Reg.BASIN_STATUS n) 0) ∧
  (∀ p < 4, r (Reg.TDM_CTRL p) 0) ∧ (∀ q < 64, r (Reg.RING_CFG q) 0 ∧ r (Reg.RING_STATE q) 0) ∧ (∀ p < 2, r (Reg.ETH_CTRL p) 0) ∧
  (∀ a ∈ [Reg.SYS_STATUS, Reg.MEM_STATUS, Reg.PDM_CLK_EN, Reg.ANA_CTRL, Reg.FABRIC_CTRL, Reg.CSP_CTRL, Reg.CSP_SL_CFG, Reg.HOST_CTRL, Reg.HOST_STATUS,
    Reg.SUP_CTRL, Reg.FAR_CTRL, Reg.BOOT_STATUS, Reg.PWR_CTRL, Reg.PWR_RST], r a 0) ∧
  (let s := State.reset
   Memory.wf s = true ∧ s.pending = [] ∧ s.yard = [] ∧ s.boot.tack = [] ∧ s.claims = [] ∧ s.bus.claims = [] ∧ s.heldAcc = [] ∧ s.host.held = none ∧
     s.tick.entered = false ∧ s.tick.mode = 3#3 ∧ s.tick.sampleCnt = 0#64 ∧ s.tick.frameCnt = 0#64 ∧ s.tick.gain = 0 ∧ s.cc.held = true ∧
     s.cc.ie = false ∧ s.cc.exl = false ∧ s.csp.sel = false ∧ s.tether.sync = none ∧ s.sup.rules = [] ∧ s.power.phase = .held ∧
     ∀ k < 29, (setAt s k).committed = false ∧ (setAt s k).copying = false)

/-- The step word of a well-formed rill step decodes on some engine to the step itself, every operand as it was, and the step that any
word decodes to encodes to that word: no bit of a step word is dropped. The slot word of a well-formed slot command decodes, with the
opcode it holds and the command's own head, to that command on some engine. A bundle built from the slot words of three commands of one
engine, whose heads carry the bundle's flags and whose last is the V slot unless the bundle stops, decodes to the three in order, and to
the end of the bundle where it stops. (05_rill_instructions.md Table 05-1; 05_rill_instructions.md Table 05-7; 07_basin_instructions.md
Tables 07-1 to 07-10) -/
def Obligations.DecodingUndoesEncoding : Prop :=
  (∀ (c : Instr) (w : BitVec 64), c.wellFormed = true → encodeRill c = some w → ∃ re, decodeRill re w = c) ∧
  (∀ (re : Fin 16) (w : BitVec 64), encodeRill (decodeRill re w) = some w ∧ (decodeRill re w).wellFormed = true) ∧
  (∀ (c : Instr) (h : SlotHead) (w : BitVec 40), c.wellFormed = true → encodeS c = some (h, w) → ∃ be, decodeS be h (w.extractLsb' 34 6) w = c) ∧
  (∀ (c : Instr) (h : SlotHead) (w : BitVec 40), c.wellFormed = true → encodeM c = some (h, w) → ∃ be, decodeM be h (w.extractLsb' 36 4) w = c) ∧
  (∀ (c : Instr) (h : SlotHead) (w : BitVec 44), c.wellFormed = true → encodeV c = some (h, w) → ∃ be, decodeV be h (w.extractLsb' 37 7) w = c) ∧
  (∀ (be : Fin 10) (cs cm cv : Instr) (hs hm hv : SlotHead) (ws wm : BitVec 40) (wv : BitVec 44) (stop : Bool),
    encodeS cs = some (hs, ws) → encodeM cm = some (hm, wm) → encodeV cv = some (hv, wv) →
    decodeS be hs (ws.extractLsb' 34 6) ws = cs → decodeM be hm (wm.extractLsb' 36 4) wm = cm → decodeV be hv (wv.extractLsb' 37 7) wv = cv →
    hs.last = false → hm.last = false → hv.last = !stop → hm.atomic = hs.atomic → hv.atomic = hs.atomic → hm.rsv = hs.rsv → hv.rsv = hs.rsv →
    decodeBundle be (bundleOf stop hs.atomic hs.rsv ws wm wv) = [cs, cm, cv] ++ if stop then stopCommand be hs.atomic else [])

end
end

