-- ==== Sys2Proof/Laws/KeepBase.lean ====
section
/-! SUPPORT. What every command keeps of the queue, the registers and the addressed memories: the registers, the yard, the flash, the
tack room, the ECC conditions and the claims change only by the store's own operations, and the queue not at all. `MemInv Q` says that `Q` holds of the eight. -/
namespace Sys2Proof.Machine

/-- A property of the queue, the registers, the yard, the flash, the tack room, the ECC conditions and the claims that the store's operations keep. -/
structure MemKeeps (Q : List Instr → Cells (BitVec 32) → Cells Word → Cells Byte → Cells (BitVec 32) → Cells (BitVec 2) → Cells (BitVec 2) → Cells Byte → Prop) : Prop where
  regSet : ∀ {p r y f t e m c} (k : Nat) (x : BitVec 32), Q p r y f t e m c → Q p (Cells.write regReset r k x) y f t e m c
  regKeep : ∀ {p r y f t e m c} (q : Nat → Bool), Q p r y f t e m c → Q p (Cells.keep q r) y f t e m c
  regClear : ∀ {p r y f t e m c}, Q p r y f t e m c → Q p [] y f t e m c
  yardSet : ∀ {p r y f t e m c} (k : Nat) (x : Word), Q p r y f t e m c → Q p r (Cells.set y k x) f t e m c
  yardClear : ∀ {p r y f t e m c}, Q p r y f t e m c → Q p r [] f t e m c
  flashWrite : ∀ {p r y f t e m c} (k : Nat) (x : Byte), Q p r y f t e m c → Q p r y (Cells.write flashErased f k x) t e m c
  flashKeep : ∀ {p r y f t e m c} (q : Nat → Bool), Q p r y f t e m c → Q p r y (Cells.keep q f) t e m c
  tackSet : ∀ {p r y f t e m c} (k : Nat) (x : BitVec 32), Q p r y f t e m c → Q p r y f (Cells.set t k x) e m c
  tackClear : ∀ {p r y f t e m c}, Q p r y f t e m c → Q p r y f [] e m c
  eccSet : ∀ {p r y f t e m c} (k : Nat) (x : BitVec 2), Q p r y f t e m c → Q p r y f t (Cells.set e k x) m c
  eccKeep : ∀ {p r y f t e m c} (q : Nat → Bool), Q p r y f t e m c → Q p r y f t (Cells.keep q e) m c
  eccClear : ∀ {p r y f t e m c}, Q p r y f t e m c → Q p r y f t [] m c
  markSet : ∀ {p r y f t e m c} (k : Nat) (x : BitVec 2), Q p r y f t e m c → Q p r y f t e (Cells.set m k x) c
  markClear : ∀ {p r y f t e m c}, Q p r y f t e m c → Q p r y f t e [] c
  claimSet : ∀ {p r y f t e m c} (k : Nat) (x : Byte), Q p r y f t e m c → Q p r y f t e m (Cells.set c k x)
  claimClear : ∀ {p r y f t e m c}, Q p r y f t e m c → Q p r y f t e m []

/-- `Q` of a state's queue and addressed memories. -/
def MemInv (Q : List Instr → Cells (BitVec 32) → Cells Word → Cells Byte → Cells (BitVec 32) → Cells (BitVec 2) → Cells (BitVec 2) → Cells Byte → Prop) (s : State) : Prop :=
  Q s.pending s.regs s.yard s.boot.flash s.boot.tack s.ecc s.boot.tackEcc s.claims

/-- `Q` of a command's next state. -/
def MemOut (Q : List Instr → Cells (BitVec 32) → Cells Word → Cells Byte → Cells (BitVec 32) → Cells (BitVec 2) → Cells (BitVec 2) → Cells Byte → Prop) (o : Host.Outcome State Fault Refusal) : Prop :=
  ∀ t, o = .next t → MemInv Q t

variable {Q : List Instr → Cells (BitVec 32) → Cells Word → Cells Byte → Cells (BitVec 32) → Cells (BitVec 2) → Cells (BitVec 2) → Cells Byte → Prop}

theorem MemInv.of {s : State} (h : MemInv Q s) : Q s.pending s.regs s.yard s.boot.flash s.boot.tack s.ecc s.boot.tackEcc s.claims := h

theorem MemInv.mk {a1 a2 a3 a4 a5 a6 a7 a8 a9 a10 a11 a12 a13 a14 a15 a16 a17 a18 a19 a20 a21 a22 a23 a24 a25 a26 a27 a28 a29 a30}
    (h : Q a1 a2 a11 a24.flash a24.tack a12 a24.tackEcc a14) :
    MemInv Q (State.mk a1 a2 a3 a4 a5 a6 a7 a8 a9 a10 a11 a12 a13 a14 a15 a16 a17 a18 a19 a20 a21 a22 a23 a24 a25 a26 a27 a28 a29 a30) := h

theorem MemInv.ite {c : Prop} [Decidable c] {a b : State} (h : MemInv Q a) (g : MemInv Q b) : MemInv Q (if c then a else b) := by
  split <;> assumption

theorem MemInv.ite2 {α : Type} {c : Prop} [Decidable c] {a b : α × State} (h : MemInv Q a.2) (g : MemInv Q b.2) :
    MemInv Q (if c then a else b).2 := by
  split <;> assumption

theorem MemInv.ite22 {α β : Type} {c : Prop} [Decidable c] {a b : α × β × State} (h : MemInv Q a.2.2) (g : MemInv Q b.2.2) :
    MemInv Q (if c then a else b).2.2 := by
  split <;> assumption

theorem MemInv.ite1 {α : Type} {c : Prop} [Decidable c] {a b : State × α} (h : MemInv Q a.1) (g : MemInv Q b.1) :
    MemInv Q (if c then a else b).1 := by
  split <;> assumption

theorem MemInv.slotOut {s : State} {f : Option SlotFault} {w : Bool} (h : MemInv Q s) : MemInv Q (SlotOut.mk s f w).s := h

theorem MemInv.cmdResult {s : State} {a b c : Nat} (h : MemInv Q s) : MemInv Q (CmdResult.mk a b c s).st := h

theorem MemInv.iteS {c : Prop} [Decidable c] {a b : SlotOut} (h : MemInv Q a.s) (g : MemInv Q b.s) :
    MemInv Q (if c then a else b).s := by
  split <;> assumption

theorem MemInv.iteR {c : Prop} [Decidable c] {a b : CmdResult} (h : MemInv Q a.st) (g : MemInv Q b.st) :
    MemInv Q (if c then a else b).st := by
  split <;> assumption

theorem MemInv.pair1 {α : Type} {a : State} {b : α} (h : MemInv Q a) : MemInv Q (a, b).1 := h

theorem MemInv.pair2 {α : Type} {a : α} {b : State} (h : MemInv Q b) : MemInv Q (a, b).2 := h

theorem MemInv.pair22 {α β : Type} {a : α} {b : β × State} (h : MemInv Q b.2) : MemInv Q (a, b).2.2 := h

theorem MemInv.foldl {α : Type} {f : State → α → State} {l : List α} {s : State} (h : MemInv Q s)
    (k : ∀ t x, MemInv Q t → MemInv Q (f t x)) : MemInv Q (l.foldl f s) := by
  induction l generalizing s with
  | nil => exact h
  | cons a l ih => exact ih (k s a h)

theorem MemInv.foldl2 {α β : Type} {f : β × State → α → β × State} {l : List α} {s : β × State} (h : MemInv Q s.2)
    (k : ∀ t x, MemInv Q t.2 → MemInv Q (f t x).2) : MemInv Q (l.foldl f s).2 := by
  induction l generalizing s with
  | nil => exact h
  | cons a l ih => exact ih (k s a h)

theorem MemInv.foldl1 {α β : Type} {f : State × β → α → State × β} {l : List α} {s : State × β} (h : MemInv Q s.1)
    (k : ∀ t x, MemInv Q t.1 → MemInv Q (f t x).1) : MemInv Q (l.foldl f s).1 := by
  induction l generalizing s with
  | nil => exact h
  | cons a l ih => exact ih (k s a h)

theorem MemKeeps.flashFold (K : MemKeeps Q) {α : Type} {k : α → Nat} {v : α → Byte} {l : List α} {p : List Instr} {r : Cells (BitVec 32)}
    {y : Cells Word} {f : Cells Byte} {t : Cells (BitVec 32)} {e m : Cells (BitVec 2)} {c : Cells Byte} (h : Q p r y f t e m c) :
    Q p r y (l.foldl (fun z x => Cells.write flashErased z (k x) (v x)) f) t e m c := by
  induction l generalizing f with
  | nil => exact h
  | cons a l ih => exact ih (K.flashWrite _ _ h)

theorem MemKeeps.regFold (K : MemKeeps Q) {α : Type} {k : α → Nat} {v : α → BitVec 32} {l : List α} {p : List Instr}
    {r : Cells (BitVec 32)} {y : Cells Word} {f : Cells Byte} {t : Cells (BitVec 32)} {e m : Cells (BitVec 2)} {c : Cells Byte} (h : Q p r y f t e m c) :
    Q p (l.foldl (fun z x => Cells.write regReset z (k x) (v x)) r) y f t e m c := by
  induction l generalizing r with
  | nil => exact h
  | cons a l ih => exact ih (K.regSet _ _ h)

theorem MemKeeps.tackAll (K : MemKeeps Q) {l : List (BitVec 32)} {k : Nat} {p : List Instr} {r : Cells (BitVec 32)} {y : Cells Word}
    {f : Cells Byte} {t : Cells (BitVec 32)} {e m : Cells (BitVec 2)} {c : Cells Byte} (h : Q p r y f t e m c) : Q p r y f (Cells.setAll [] k l) e m c := by
  have go : ∀ (l : List (BitVec 32)) (k : Nat) (t : Cells (BitVec 32)), Q p r y f t e m c → Q p r y f (Cells.setAll t k l) e m c := by
    intro l
    induction l with
    | nil => exact fun _ _ h => h
    | cons a l ih => exact fun k t h => ih _ _ (K.tackSet _ _ h)
  exact go l k [] (K.tackClear h)

theorem MemKeeps.eccFold (K : MemKeeps Q) {α : Type} {k : α → Nat} {v : α → BitVec 2} {l : List α} {p : List Instr}
    {r : Cells (BitVec 32)} {y : Cells Word} {f : Cells Byte} {t : Cells (BitVec 32)} {e m : Cells (BitVec 2)} {c : Cells Byte} (h : Q p r y f t e m c) :
    Q p r y f t (l.foldl (fun z x => Cells.set z (k x) (v x)) e) m c := by
  induction l generalizing e with
  | nil => exact h
  | cons a l ih => exact ih (K.eccSet _ _ h)

end Sys2Proof.Machine
end

