-- ==== Sys2Proof/Laws/KeepOps.lean ====
section
/-! SUPPORT. The definitions of Machine/Ops.lean keep what MemKeeps keeps. -/
namespace Sys2Proof.Machine

variable {Q : List Instr → Cells (BitVec 32) → Cells Word → Cells Byte → Cells (BitVec 32) → Cells (BitVec 2) → Cells (BitVec 2) → Cells Byte → Prop} (K : MemKeeps Q)
include K

set_option linter.unusedSectionVars false

theorem State.setReg_mem {s : State} {a : Nat} {v : BitVec 32} (mh : MemInv Q s) : MemInv Q (State.setReg s a v) := by
  unfold State.setReg
  exact (by
    refine MemInv.mk ?_
    try dsimp only
    exact (K.regSet _ _ (MemInv.of mh)))

theorem State.raise_mem {s : State} {a : Nat} {m : BitVec 32} (mh : MemInv Q s) : MemInv Q (State.raise s a m) := by
  unfold State.raise
  exact (State.setReg_mem K mh)

theorem State.lower_mem {s : State} {a : Nat} {m : BitVec 32} (mh : MemInv Q s) : MemInv Q (State.lower s a m) := by
  unfold State.lower
  exact (State.setReg_mem K mh)

theorem State.raiseIf_mem {s : State} {c : Bool} {a : Nat} {m : BitVec 32} (mh : MemInv Q s) : MemInv Q (State.raiseIf s c a m) := by
  unfold State.raiseIf
  exact (MemInv.ite (State.raise_mem K mh) mh)

theorem State.setFld_mem {s : State} {a lo w v : Nat} (mh : MemInv Q s) : MemInv Q (State.setFld s a lo w v) := by
  unfold State.setFld
  exact (State.setReg_mem K mh)

theorem State.setBit_mem {s : State} {a k : Nat} {b : Bool} (mh : MemInv Q s) : MemInv Q (State.setBit s a k b) := by
  unfold State.setBit
  exact (State.setFld_mem K mh)

theorem State.count_mem {s : State} {a lo w n : Nat} (mh : MemInv Q s) : MemInv Q (State.count s a lo w n) := by
  unfold State.count
  exact (State.setFld_mem K mh)

theorem State.raiseAt_mem {s : State} {a k : Nat} (mh : MemInv Q s) : MemInv Q (State.raiseAt s a k) := by
  unfold State.raiseAt
  exact (State.raise_mem K mh)

theorem State.lowerAt_mem {s : State} {a k : Nat} (mh : MemInv Q s) : MemInv Q (State.lowerAt s a k) := by
  unfold State.lowerAt
  exact (State.lower_mem K mh)

theorem State.answered_mem {m : Nat} {r : Bool × State} (h : MemInv Q r.2) : MemInv Q (State.answered m r) := h

theorem State.hold_mem {s : State} {h : HeldAccess} (mh : MemInv Q s) : MemInv Q (State.hold s h) := by
  unfold State.hold
  exact (MemInv.mk (MemInv.of mh))

theorem State.takeFree_mem {s : State} (mh : MemInv Q s) : MemInv Q (State.takeFree s).2 := by
  unfold State.takeFree
  exact (MemInv.pair2 (MemInv.mk (MemInv.of mh)))

theorem State.eccEvent_mem {s : State} {e : EccSite} {mark : BitVec 2} {addrField : Nat} (mh : MemInv Q s) : MemInv Q (State.eccEvent s e mark addrField) := by
  unfold State.eccEvent
  exact (MemInv.ite mh (MemInv.ite (State.setReg_mem K (State.count_mem K (State.raise_mem K mh))) (State.count_mem K (State.raise_mem K mh))))

theorem State.eccEvents_mem {s : State} {e : EccSite} {l : List (BitVec 2 × Nat)} (mh : MemInv Q s) : MemInv Q (State.eccEvents s e l) := by
  unfold State.eccEvents
  exact (MemInv.foldl mh fun _ _ mh1 => (State.eccEvent_mem K mh1))

end Sys2Proof.Machine
end

