-- ==== Sys2Proof/Laws/KeepYard.lean ====
section
/-! SUPPORT. The definitions of Machine/Yard.lean keep what MemKeeps keeps. -/
namespace Sys2Proof.Machine

variable {Q : List Instr → Cells (BitVec 32) → Cells Word → Cells Byte → Cells (BitVec 32) → Cells (BitVec 2) → Cells (BitVec 2) → Cells Byte → Prop} (K : MemKeeps Q)
include K

set_option linter.unusedSectionVars false

theorem ownErr_mem {s : State} {master w : Nat} {write : Bool} (mh : MemInv Q s) : MemInv Q (ownErr s master w write) := by
  unfold ownErr
  exact (State.raise_mem K (State.setReg_mem K (State.count_mem K mh)))

theorem defaultTarget_mem {s : State} {master addr : Nat} {word write : Bool} (mh : MemInv Q s) : MemInv Q (defaultTarget s master addr word write) := by
  unfold defaultTarget
  exact (State.raise_mem K (State.setReg_mem K (State.setReg_mem K (State.count_mem K mh))))

theorem yardEcc_mem {s : State} {mark : BitVec 2} {w : Nat} (mh : MemInv Q s) : MemInv Q (yardEcc s mark w) := by
  unfold yardEcc
  exact (MemInv.ite mh (MemInv.ite (State.count_mem K (MemInv.mk (MemInv.of (State.eccEvent_mem K mh)))) (State.count_mem K (MemInv.mk (MemInv.of (State.eccEvent_mem K mh))))))

theorem yardFetch_mem {s : State} {w : Nat} (mh : MemInv Q s) : MemInv Q (yardFetch s w).2.2 := by
  unfold yardFetch
  exact (MemInv.pair22 (MemInv.pair2 (yardEcc_mem K mh)))

theorem yardPut_mem {s : State} {w : Nat} {x : Word} (mh : MemInv Q s) : MemInv Q (yardPut s w x) := by
  unfold yardPut
  exact (by
    refine MemInv.mk ?_
    try dsimp only
    exact (K.yardSet _ _ (K.eccSet _ _ (MemInv.of mh))))

theorem yardRead_mem {s : State} {master w : Nat} (mh : MemInv Q s) : MemInv Q (yardRead s master w).2.2 := by
  unfold yardRead
  exact (MemInv.ite22 (MemInv.pair22 (MemInv.pair2 (yardFetch_mem K mh))) (MemInv.pair22 (MemInv.pair2 (ownErr_mem K mh))))

theorem yardWrite_mem {s : State} {master w : Nat} {x : Word} (mh : MemInv Q s) : MemInv Q (yardWrite s master w x).2 := by
  unfold yardWrite
  exact (MemInv.ite2 (MemInv.pair2 (yardPut_mem K mh)) (MemInv.pair2 (ownErr_mem K mh)))

theorem yardFetchBytes_mem {s : State} {o n : Nat} (mh : MemInv Q s) : MemInv Q (yardFetchBytes s o n).2.2 := by
  unfold yardFetchBytes
  exact (MemInv.pair22 (MemInv.pair2 (MemInv.foldl mh fun _ _ mh1 => (yardEcc_mem K mh1))))

theorem yardPutBytes_mem {s : State} {o : Nat} {l : List Byte} (h : MemInv Q s) : MemInv Q (yardPutBytes s o l) := by
  induction l generalizing s o with
  | nil => exact h
  | cons b t ih => exact ih (yardPut_mem K (yardFetch_mem K h))

theorem yardRefused_mem {s : State} {master o n : Nat} {write : Bool} (mh : MemInv Q s) : MemInv Q (yardRefused s master o n write) := by
  unfold yardRefused
  exact (MemInv.ite (defaultTarget_mem K mh) (ownErr_mem K mh))

theorem yardReadBytes_mem {s : State} {master o n : Nat} (mh : MemInv Q s) : MemInv Q (yardReadBytes s master o n).2.2 := by
  unfold yardReadBytes
  exact (MemInv.ite22 (MemInv.ite22 (MemInv.pair22 (MemInv.pair2 (yardFetchBytes_mem K mh))) (MemInv.pair22 (MemInv.pair2 (yardFetchBytes_mem K mh)))) (MemInv.pair22 (MemInv.pair2 (yardRefused_mem K mh))))

theorem yardWriteBytes_mem {s : State} {master o : Nat} {bs : List Byte} (mh : MemInv Q s) : MemInv Q (yardWriteBytes s master o bs).2 := by
  unfold yardWriteBytes
  exact (MemInv.ite2 (MemInv.pair2 (yardPutBytes_mem K mh)) (MemInv.pair2 (yardRefused_mem K mh)))

theorem blockWrite_mem {s : State} {m o : Nat} {bs : List Byte} (mh : MemInv Q s) : MemInv Q (blockWrite s m o bs) := by
  unfold blockWrite
  exact (MemInv.ite (State.hold_mem K mh) (yardWriteBytes_mem K mh))

theorem State.asked_mem {s : State} {m a : Nat} {v : BitVec 32} {r : Bool × State} (h : MemInv Q s) (hr : MemInv Q r.2) :
    MemInv Q (State.asked s m a v r) := by
  unfold State.asked
  split
  · exact State.hold_mem K h
  · exact State.answered_mem K hr

end Sys2Proof.Machine
end

