-- ==== Sys2Proof/Laws/KeepClaims.lean ====
section
/-! SUPPORT. The definitions of Machine/Claims.lean keep what MemKeeps keeps. -/
namespace Sys2Proof.Machine

variable {Q : List Instr → Cells (BitVec 32) → Cells Word → Cells Byte → Cells (BitVec 32) → Cells (BitVec 2) → Cells (BitVec 2) → Cells Byte → Prop} (K : MemKeeps Q)
include K

set_option linter.unusedSectionVars false

theorem claimRefused_mem {s : State} {cls idx holder req : Nat} (mh : MemInv Q s) : MemInv Q (claimRefused s cls idx holder req) := by
  unfold claimRefused
  exact (State.raise_mem K (State.setReg_mem K mh))

theorem resTake_mem {s : State} {cls idx fn : Nat} (mh : MemInv Q s) : MemInv Q (resTake s cls idx fn) := by
  unfold resTake
  exact (by
    refine MemInv.mk ?_
    try dsimp only
    exact (K.claimSet _ _ (MemInv.of mh)))

theorem resRelease_mem {s : State} {cls idx fn : Nat} (mh : MemInv Q s) : MemInv Q (resRelease s cls idx fn) := by
  unfold resRelease
  exact (MemInv.ite (by
    refine MemInv.mk ?_
    try dsimp only
    exact (K.claimSet _ _ (MemInv.of mh))) mh)

theorem claimAll_mem {s : State} {fn : Nat} {l : List (Nat × Nat)} (mh : MemInv Q s) : MemInv Q (claimAll s fn l).2 := by
  unfold claimAll
  exact (by
    first | (extract_lets; split) | (dsimp only; split) | split
    · exact (MemInv.pair2 (claimRefused_mem K mh))
    · exact (MemInv.pair2 (MemInv.foldl mh fun _ _ mh1 => (resTake_mem K mh1))))

theorem releaseAll_mem {s : State} {fn : Nat} {l : List (Nat × Nat)} (mh : MemInv Q s) : MemInv Q (releaseAll s fn l) := by
  unfold releaseAll
  exact (MemInv.foldl mh fun _ _ mh1 => (resRelease_mem K mh1))

theorem claimStall_mem {s : State} {k cls idx : Nat} (mh : MemInv Q s) : MemInv Q (claimStall s k cls idx).2 := by
  unfold claimStall
  exact (MemInv.ite2 (MemInv.pair2 mh) (MemInv.ite2 (MemInv.pair2 (MemInv.mk (MemInv.of mh))) (MemInv.pair2 (State.raise_mem K (claimRefused_mem K mh)))))

theorem releaseStall_mem {s : State} {k cls idx : Nat} (mh : MemInv Q s) : MemInv Q (releaseStall s k cls idx) := by
  unfold releaseStall
  exact (MemInv.ite (MemInv.mk (MemInv.of mh)) mh)

theorem claimInputs_mem {s : State} {taken : Nat → Bool} {fn : Nat} {ks : List Nat} (mh : MemInv Q s) : MemInv Q (claimInputs s taken fn ks).2 := by
  unfold claimInputs
  exact (by
    first | (extract_lets; split) | (dsimp only; split) | split
    · exact (MemInv.pair2 (State.raise_mem K (claimRefused_mem K mh)))
    · exact (MemInv.ite2 (MemInv.foldl2 (MemInv.pair2 mh) fun _ _ mh1 => (MemInv.ite2 (claimStall_mem K mh1) mh1)) (MemInv.pair2 (MemInv.foldl (MemInv.foldl2 (MemInv.pair2 mh) fun _ _ mh1 => (MemInv.ite2 (claimStall_mem K mh1) mh1)) fun _ _ mh1 => (releaseStall_mem K mh1)))))

theorem stallWrite_mem {s : State} {k cls idx : Nat} {w : Word} (mh : MemInv Q s) : MemInv Q (stallWrite s k cls idx w) := by
  unfold stallWrite
  exact (MemInv.ite (by
    refine MemInv.mk ?_
    try dsimp only
    exact (K.eccSet _ _ (MemInv.of mh))) mh)

theorem portWrite_mem {s : State} {k : Nat} {w : Word} (mh : MemInv Q s) : MemInv Q (portWrite s k w) := by
  unfold portWrite
  exact (stallWrite_mem K mh)

end Sys2Proof.Machine
end

