-- ==== Sys2Proof/Laws/KeepRings.lean ====
section
/-! SUPPORT. The definitions of Machine/Rings.lean keep what MemKeeps keeps. -/
namespace Sys2Proof.Machine

variable {Q : List Instr → Cells (BitVec 32) → Cells Word → Cells Byte → Cells (BitVec 32) → Cells (BitVec 2) → Cells (BitVec 2) → Cells Byte → Prop} (K : MemKeeps Q)
include K

set_option linter.unusedSectionVars false

theorem hostPut_mem {s : State} {a : Nat} {bs : List Byte} (mh : MemInv Q s) : MemInv Q (hostPut s a bs) := by
  unfold hostPut
  exact (MemInv.ite (by
    first | (extract_lets; split) | (dsimp only; split) | split
    · exact (blockWrite_mem K mh)
    · exact (defaultTarget_mem K mh)) (MemInv.mk (MemInv.of mh)))

theorem tagsNote_mem {s : State} {audioIn : Bool} {n : Nat} (mh : MemInv Q s) : MemInv Q (tagsNote s audioIn n) := by
  unfold tagsNote
  exact (MemInv.ite mh (MemInv.ite (State.setFld_mem K mh) (State.setFld_mem K (State.takeFree_mem K mh))))

theorem hostGet_mem {s : State} {master a n : Nat} {given : List Byte} {bad : Bool} (mh : MemInv Q s) : MemInv Q (hostGet s master a n given bad).2.2 := by
  unfold hostGet
  exact (MemInv.ite22 (by
    first | (extract_lets; split) | (dsimp only; split) | split
    · exact (yardReadBytes_mem K mh)
    · exact (MemInv.pair22 (MemInv.pair2 (defaultTarget_mem K mh)))) (MemInv.pair22 (MemInv.pair2 (tagsNote_mem K mh))))

theorem msixSend_mem {s : State} {v : Nat} (mh : MemInv Q s) : MemInv Q (msixSend s v) := by
  unfold msixSend
  exact (MemInv.ite (State.raise_mem K mh) (MemInv.ite mh (MemInv.ite (MemInv.mk (MemInv.of mh)) (hostPut_mem K (MemInv.mk (MemInv.of mh))))))

theorem msixUnmask_mem {s : State} (mh : MemInv Q s) : MemInv Q (msixUnmask s) := by
  unfold msixUnmask
  exact (MemInv.foldl mh fun _ _ mh1 => (MemInv.ite (msixSend_mem K mh1) mh1))

theorem ringSignal_mem {s : State} {r : Nat} (mh : MemInv Q s) : MemInv Q (ringSignal s r) := by
  unfold ringSignal
  exact (MemInv.ite mh (MemInv.ite (MemInv.mk (MemInv.of mh)) (MemInv.ite (msixSend_mem K mh) (MemInv.mk (MemInv.of (msixSend_mem K mh))))))

theorem ringAdvance_mem {s : State} {r : Nat} (mh : MemInv Q s) : MemInv Q (ringAdvance s r) := by
  unfold ringAdvance
  exact (ringSignal_mem K (hostPut_mem K (State.setFld_mem K mh)))

theorem ringRecord_mem {s : State} {r : Nat} {l : List Nat} (mh : MemInv Q s) : MemInv Q (ringRecord s r l) := by
  unfold ringRecord
  exact (ringAdvance_mem K (hostPut_mem K mh))

theorem eventSeq_mem {s : State} (mh : MemInv Q s) : MemInv Q (eventSeq s) := by
  unfold eventSeq
  exact (MemInv.mk (MemInv.of mh))

theorem eventLose_mem {s : State} (mh : MemInv Q s) : MemInv Q (eventLose s) := by
  unfold eventLose
  exact (eventSeq_mem K (MemInv.mk (MemInv.of (State.raise_mem K (State.count_mem K mh)))))

theorem eventPut_mem {s : State} {src code : Nat} {d : List Nat} (mh : MemInv Q s) : MemInv Q (eventPut s src code d) := by
  unfold eventPut
  exact (MemInv.ite (eventLose_mem K mh) (eventSeq_mem K (ringRecord_mem K mh)))

theorem State.event_mem {s : State} {src code d0 d1 d2 d3 : Nat} (mh : MemInv Q s) : MemInv Q (State.event s src code d0 d1 d2 d3) := by
  unfold State.event
  exact (MemInv.ite (eventPut_mem K (MemInv.mk (MemInv.of (eventSeq_mem K (ringRecord_mem K mh))))) (eventPut_mem K mh))

theorem ringFail_mem {s : State} {r : Nat} (mh : MemInv Q s) : MemInv Q (ringFail s r) := by
  unfold ringFail
  exact (MemInv.ite (State.event_mem K (State.raise_mem K (State.setBit_mem K (State.setBit_mem K mh)))) mh)

theorem aggSend_mem {s : State} (mh : MemInv Q s) : MemInv Q (aggSend s) := by
  unfold aggSend
  exact (MemInv.ite (msixSend_mem K mh) mh)

theorem settle_mem {s : State} (mh : MemInv Q s) : MemInv Q (settle s) := by
  unfold settle
  exact (MemInv.mk (MemInv.of (MemInv.ite (aggSend_mem K mh) mh)))

theorem done_mem {s : State} (h : MemInv Q s) : MemOut Q (done s) := by
  intro t e
  cases e
  exact settle_mem K h

end Sys2Proof.Machine
end

