-- ==== Sys2Proof/Laws/KeepCsp.lean ====
section
/-! SUPPORT. The definitions of Machine/Csp.lean keep what MemKeeps keeps. -/
namespace Sys2Proof.Machine

variable {Q : List Instr → Cells (BitVec 32) → Cells Word → Cells Byte → Cells (BitVec 32) → Cells (BitVec 2) → Cells (BitVec 2) → Cells Byte → Prop} (K : MemKeeps Q)
include K

set_option linter.unusedSectionVars false

theorem cspReject_mem {s : State} (mh : MemInv Q s) : MemInv Q (cspReject s) := by
  unfold cspReject
  exact (State.raise_mem K mh)

theorem roleApply_mem {s : State} {v : Bool} (mh : MemInv Q s) : MemInv Q (roleApply s v).2 := by
  unfold roleApply
  exact (MemInv.ite2 (MemInv.pair2 mh) (MemInv.ite2 (MemInv.pair2 (State.setBit_mem K (claimAll_mem K mh))) (MemInv.pair2 (State.setBit_mem K (releaseAll_mem K mh)))))

theorem cspCtrlWrite_mem {s : State} {v : BitVec 32} {slave : Bool} (mh : MemInv Q s) : MemInv Q (cspCtrlWrite s v slave) := by
  unfold cspCtrlWrite
  exact (MemInv.ite (MemInv.mk (MemInv.of (State.setFld_mem K mh))) (MemInv.ite (cspReject_mem K (State.setFld_mem K mh)) (MemInv.ite (State.setFld_mem K (roleApply_mem K mh)) (roleApply_mem K mh))))

theorem cspLenWrite_mem {s : State} {v : BitVec 32} (mh : MemInv Q s) : MemInv Q (cspLenWrite s v) := by
  unfold cspLenWrite
  exact (MemInv.ite (MemInv.ite (cspReject_mem K (State.setReg_mem K mh)) (MemInv.mk (MemInv.of (State.setBit_mem K (State.setReg_mem K mh))))) (State.setReg_mem K mh))

theorem cspSent_mem {s : State} {n : Nat} (h : MemInv Q s) : MemInv Q (cspSent s n) := by
  induction n generalizing s with
  | zero => exact h
  | succ n ih =>
    unfold cspSent
    split
    · split
      · exact ih (MemInv.mk (MemInv.of h))
      · exact h
    · exact h

theorem cspTaken_mem {s : State} {k : Nat} (h : MemInv Q s) : MemInv Q (cspTaken s k) := by
  induction k generalizing s with
  | zero => exact h
  | succ k ih =>
    unfold cspTaken
    extract_lets n b
    split
    · exact ih h
    · exact h

theorem cspReceived_mem {s : State} {l : List (BitVec 8)} (mh : MemInv Q s) : MemInv Q (cspReceived s l) := by
  unfold cspReceived
  exact (MemInv.ite (MemInv.ite (MemInv.mk (MemInv.of (cspTaken_mem K (MemInv.mk (MemInv.of mh))))) (cspTaken_mem K (MemInv.mk (MemInv.of mh)))) mh)

theorem cspPush_mem {s : State} {v : BitVec 32} (mh : MemInv Q s) : MemInv Q (cspPush s v) := by
  unfold cspPush
  exact (MemInv.ite (MemInv.mk (MemInv.of mh)) (State.raise_mem K mh))

theorem cspPop_mem {s : State} (mh : MemInv Q s) : MemInv Q (cspPop s).2 := by
  unfold cspPop
  exact (by
    first | (extract_lets; split) | (dsimp only; split) | split
    · exact (MemInv.pair2 (MemInv.mk (MemInv.of mh)))
    · exact (MemInv.pair2 (State.raise_mem K mh)))

theorem cspEnd_mem {s : State} (mh : MemInv Q s) : MemInv Q (cspEnd s) := by
  unfold cspEnd
  exact (MemInv.ite (State.raise_mem K (State.setBit_mem K mh)) mh)

theorem cspSlCfgWrite_mem {s : State} {v : BitVec 32} (mh : MemInv Q s) : MemInv Q (cspSlCfgWrite s v) := by
  unfold cspSlCfgWrite
  exact (State.setReg_mem K mh)

end Sys2Proof.Machine
end

