-- ==== Sys2Proof/Laws/KeepGpio.lean ====
section
/-! SUPPORT. The definitions of Machine/Gpio.lean keep what MemKeeps keeps. -/
namespace Sys2Proof.Machine

variable {Q : List Instr → Cells (BitVec 32) → Cells Word → Cells Byte → Cells (BitVec 32) → Cells (BitVec 2) → Cells (BitVec 2) → Cells Byte → Prop} (K : MemKeeps Q)
include K

set_option linter.unusedSectionVars false

theorem pinPath_mem {s : State} {i : Nat} {l : List Bool} (mh : MemInv Q s) : MemInv Q (pinPath s i l) := by
  unfold pinPath
  exact (MemInv.ite (State.raiseAt_mem K mh) mh)

theorem pinEdge_mem {s : State} {i : Nat} {old : Bool} (mh : MemInv Q s) : MemInv Q (pinEdge s i old) := by
  unfold pinEdge
  exact (pinPath_mem K mh)

theorem gpioCfgWrite_mem {s : State} {i : Nat} {v : BitVec 32} (mh : MemInv Q s) : MemInv Q (gpioCfgWrite s i v) := by
  unfold gpioCfgWrite
  exact (MemInv.ite (pinEdge_mem K (State.setReg_mem K (MemInv.ite2 (claimAll_mem K mh) (MemInv.pair2 (resRelease_mem K mh))))) (State.setBit_mem K (MemInv.ite2 (claimAll_mem K mh) (MemInv.pair2 (resRelease_mem K mh)))))

theorem gpioOut_mem {s : State} {k : Nat} {v : BitVec 32} {b : Bool} (mh : MemInv Q s) : MemInv Q (gpioOut s k v b) := by
  unfold gpioOut
  exact (MemInv.foldl mh fun _ _ mh1 => (MemInv.ite (pinEdge_mem K (State.setBit_mem K mh1)) mh1))

theorem gpioEdge_mem {s : State} {i : Nat} {level : Bool} (mh : MemInv Q s) : MemInv Q (gpioEdge s i level) := by
  unfold gpioEdge
  exact (pinEdge_mem K (MemInv.mk (MemInv.of mh)))

theorem cspMoved_mem {old s : State} {word : Option (BitVec 32 × BitVec 32)} (mh_old : MemInv Q old) (mh_s : MemInv Q s) : MemInv Q (cspMoved old s word) := by
  unfold cspMoved
  exact (MemInv.foldl mh_s fun _ _ mh2 => (pinPath_mem K mh2))

theorem execGpioCfgWrite_mem {i : Fin 124} {v : BitVec 32} {s : State} (mh : MemInv Q s) : MemOut Q (execGpioCfgWrite i v s) := by
  unfold execGpioCfgWrite
  exact (done_mem K (gpioCfgWrite_mem K mh))

theorem execGpioSet_mem {k : Fin 4} {v : BitVec 32} {s : State} (mh : MemInv Q s) : MemOut Q (execGpioSet k v s) := by
  unfold execGpioSet
  exact (done_mem K (gpioOut_mem K mh))

theorem execGpioClr_mem {k : Fin 4} {v : BitVec 32} {s : State} (mh : MemInv Q s) : MemOut Q (execGpioClr k v s) := by
  unfold execGpioClr
  exact (done_mem K (gpioOut_mem K mh))

end Sys2Proof.Machine
end

