-- ==== Sys2Proof/Laws/KeepSafeLoad.lean ====
section
/-! SUPPORT. The definitions of Machine/SafeLoad.lean keep what MemKeeps keeps. -/
namespace Sys2Proof.Machine

variable {Q : List Instr → Cells (BitVec 32) → Cells Word → Cells Byte → Cells (BitVec 32) → Cells (BitVec 2) → Cells (BitVec 2) → Cells Byte → Prop} (K : MemKeeps Q)
include K

set_option linter.unusedSectionVars false

theorem putSet_mem {s : State} {k : Nat} {x : SetState} (mh : MemInv Q s) : MemInv Q (putSet s k x) := by
  unfold putSet
  exact (MemInv.mk (MemInv.of mh))

theorem slRefuse_mem {s : State} {k : Nat} {m : BitVec 32} (mh : MemInv Q s) : MemInv Q (slRefuse s k m) := by
  unfold slRefuse
  exact (State.setFld_mem K (State.raise_mem K mh))

theorem stageReject_mem {s : State} {k : Nat} (mh : MemInv Q s) : MemInv Q (stageReject s k) := by
  unfold stageReject
  exact (slRefuse_mem K mh)

theorem commitRefused_mem {s : State} {k : Nat} {g : BitVec 4} {sync : Bool} (h : MemInv Q s) :
    ∀ t, commitRefused s k g sync = some t → MemInv Q t := by
  intro t e
  unfold commitRefused at e
  extract_lets u at e
  have hu : MemInv Q u := State.raiseIf_mem K h
  clear_value u
  split at e
  · cases e; exact slRefuse_mem K hu
  · split at e
    · cases e; exact State.raise_mem K hu
    · split at e
      · cases e; exact hu
      · cases e

theorem registerCommit_mem {s : State} {k : Nat} {g : BitVec 4} {sync : Bool} (h : MemInv Q s) : MemInv Q (registerCommit s k g sync) := by
  unfold registerCommit
  split
  next s1 e => exact commitRefused_mem K h s1 e
  · exact putSet_mem K h

theorem commitWrite_mem {s : State} {k : Nat} {g : BitVec 4} {sync : Bool} (mh : MemInv Q s) : MemInv Q (commitWrite s k g sync) := by
  unfold commitWrite
  exact (MemInv.ite mh (MemInv.ite (putSet_mem K mh) (registerCommit_mem K mh)))

theorem commitCommand_mem {s : State} {k : Nat} {g : BitVec 4} (mh : MemInv Q s) : MemInv Q (commitCommand s k g) := by
  unfold commitCommand
  exact (commitWrite_mem K (State.setFld_mem K mh))

theorem onRill_mem {s : State} {k : Nat} {f : RillEngine → RillEngine} (mh : MemInv Q s) : MemInv Q (onRill s k f) := by
  unfold onRill
  exact (MemInv.ite (MemInv.mk (MemInv.of mh)) (MemInv.mk (MemInv.of mh)))

theorem onBasin_mem {s : State} {k : Nat} {f : BasinEngine → BasinEngine} (mh : MemInv Q s) : MemInv Q (onBasin s k f) := by
  unfold onBasin
  exact (MemInv.ite (MemInv.mk (MemInv.of mh)) (MemInv.mk (MemInv.of mh)))

theorem tetherCopyBack_mem {s : State} {p : Nat} (h : MemInv Q s) : MemInv Q (tetherCopyBack s p) :=
  K.regFold (k := fun x : Nat × _ => Reg.TETH_RXE p x.1) (v := fun x => x.2)
    (K.regFold (k := fun x : Nat × _ => Reg.TETH_TXE p x.1) (v := fun x => x.2) (K.regKeep _ h))

theorem moveMarks_mem {s : State} {a b n : Nat} {clear : Bool} (mh : MemInv Q s) : MemInv Q (moveMarks s a b n clear) := by
  unfold moveMarks
  exact (by
    refine MemInv.mk ?_
    try dsimp only
    exact (K.eccFold (K.eccKeep _ (MemInv.of mh))))

theorem swapMarks_mem {s : State} {k : Nat} (mh : MemInv Q s) : MemInv Q (swapMarks s k) := by
  unfold swapMarks
  exact (MemInv.foldl mh fun _ _ mh1 => (moveMarks_mem K mh1))

theorem copyMarks_mem {s : State} {k : Nat} (mh : MemInv Q s) : MemInv Q (copyMarks s k) := by
  unfold copyMarks
  exact (MemInv.foldl mh fun _ _ mh1 => (moveMarks_mem K mh1))

theorem copyBack_mem {s0 : State} {k : Nat} (mh : MemInv Q s0) : MemInv Q (copyBack s0 k) := by
  unfold copyBack
  exact (MemInv.ite (onRill_mem K (copyMarks_mem K mh)) (MemInv.ite (onBasin_mem K (copyMarks_mem K mh)) (MemInv.ite (MemInv.mk (MemInv.of (copyMarks_mem K mh))) (MemInv.ite (MemInv.mk (MemInv.of (copyMarks_mem K mh))) (MemInv.ite (MemInv.mk (MemInv.of (copyMarks_mem K mh))) (tetherCopyBack_mem K (copyMarks_mem K mh)))))))

theorem commitLeave_mem {s : State} {k : Nat} {refused aborted : Bool} (mh : MemInv Q s) : MemInv Q (commitLeave s k refused aborted) := by
  unfold commitLeave
  exact (by
    first | (extract_lets; split) | (dsimp only; split) | split
    · exact (MemInv.ite (MemInv.mk (MemInv.of mh)) mh)
    · exact mh)

theorem commitJoin_mem {s : State} {k : Nat} (mh : MemInv Q s) : MemInv Q (commitJoin s k) := by
  unfold commitJoin
  exact (by
    first | (extract_lets; split) | (dsimp only; split) | split
    · exact (MemInv.ite (MemInv.mk (MemInv.of mh)) mh)
    · exact mh)

theorem abortGroup_mem {s : State} {g : BitVec 4} (mh : MemInv Q s) : MemInv Q (abortGroup s g) := by
  unfold abortGroup
  exact (MemInv.ite mh (MemInv.foldl mh fun _ _ mh1 => (MemInv.ite (commitLeave_mem K (putSet_mem K mh1)) mh1)))

theorem copyBackComplete_mem {s : State} {k : Nat} (mh : MemInv Q s) : MemInv Q (copyBackComplete s k) := by
  unfold copyBackComplete
  exact (MemInv.ite (MemInv.ite (MemInv.ite (commitJoin_mem K (registerCommit_mem K (putSet_mem K (copyBack_mem K mh)))) (commitLeave_mem K (registerCommit_mem K (putSet_mem K (copyBack_mem K mh))))) (putSet_mem K (copyBack_mem K mh))) mh)

end Sys2Proof.Machine
end

