-- ==== Sys2Proof/Laws/KeepBus.lean ====
section
/-! SUPPORT. The definitions of Machine/Bus.lean keep what MemKeeps keeps. -/
namespace Sys2Proof.Machine

variable {Q : List Instr → Cells (BitVec 32) → Cells Word → Cells Byte → Cells (BitVec 32) → Cells (BitVec 2) → Cells (BitVec 2) → Cells Byte → Prop} (K : MemKeeps Q)
include K

set_option linter.unusedSectionVars false

theorem putTrough_mem {s : State} {t : Nat} {x : TroughLive} (mh : MemInv Q s) : MemInv Q (putTrough s t x) := by
  unfold putTrough
  exact (MemInv.mk (MemInv.of mh))

theorem refuseTrough_mem {s : State} {t : Nat} (mh : MemInv Q s) : MemInv Q (refuseTrough s t) := by
  unfold refuseTrough
  exact (State.raise_mem K (MemInv.mk (MemInv.of (putTrough_mem K mh))))

theorem swapTroughTable_mem {s : State} {old : Cells Word} (mh : MemInv Q s) : MemInv Q (swapTroughTable s old) := by
  unfold swapTroughTable
  exact (MemInv.foldl (MemInv.mk (MemInv.of mh)) fun _ _ mh1 => (MemInv.ite (MemInv.ite (refuseTrough_mem K mh1) (MemInv.ite mh1 (putTrough_mem K mh1))) (putTrough_mem K mh1)))

theorem releaseTroughs_mem {s : State} {old : Cells Word} (mh : MemInv Q s) : MemInv Q (releaseTroughs s old) := by
  unfold releaseTroughs
  exact (MemInv.foldl mh fun _ _ mh1 => (MemInv.ite mh1 (releaseStall_mem K mh1)))

theorem claimTroughs_mem {s : State} (mh : MemInv Q s) : MemInv Q (claimTroughs s) := by
  unfold claimTroughs
  exact (MemInv.foldl mh fun _ _ mh1 => (MemInv.ite (MemInv.ite (claimStall_mem K mh1) (refuseTrough_mem K (claimStall_mem K mh1))) mh1))

theorem troughSwap_mem {s : State} {v : List (Nat × Bool)} (mh : MemInv Q s) : MemInv Q (troughSwap s v) := by
  unfold troughSwap
  exact (MemInv.foldl mh fun _ _ mh1 => (MemInv.ite (putTrough_mem K mh1) (MemInv.ite (MemInv.ite (putTrough_mem K mh1) (putTrough_mem K mh1)) (putTrough_mem K mh1))))

theorem troughClear_mem {s : State} (mh : MemInv Q s) : MemInv Q (troughClear s) := by
  unfold troughClear
  exact (MemInv.foldl mh fun _ _ mh1 => (putTrough_mem K mh1))

theorem troughPlay_mem {s : State} {t : Nat} (mh : MemInv Q s) : MemInv Q (troughPlay s t).2 := by
  unfold troughPlay
  exact (MemInv.ite2 (MemInv.pair2 mh) (MemInv.pair2 (yardFetch_mem K mh)))

theorem troughCapture_mem {s : State} {j t : Nat} (mh : MemInv Q s) : MemInv Q (troughCapture s j t) := by
  unfold troughCapture
  exact (MemInv.ite (MemInv.ite (MemInv.foldl (putTrough_mem K mh) fun _ _ mh1 => (yardPut_mem K mh1)) (putTrough_mem K mh)) mh)

end Sys2Proof.Machine
end

