-- ==== Sys2Proof/Laws/KeepFabric.lean ====
section
/-! SUPPORT. The definitions of Machine/Fabric.lean keep what MemKeeps keeps. -/
namespace Sys2Proof.Machine

variable {Q : List Instr → Cells (BitVec 32) → Cells Word → Cells Byte → Cells (BitVec 32) → Cells (BitVec 2) → Cells (BitVec 2) → Cells Byte → Prop} (K : MemKeeps Q)
include K

set_option linter.unusedSectionVars false

theorem putXp_mem {s : State} {e : Nat} {x : Crosspoint} (mh : MemInv Q s) : MemInv Q (putXp s e x) := by
  unfold putXp
  exact (MemInv.mk (MemInv.of mh))

theorem sluiceEcc_mem {s : State} {g : Nat} (mh : MemInv Q s) : MemInv Q (sluiceEcc s g) := by
  unfold sluiceEcc
  exact (State.eccEvent_mem K mh)

theorem swapFabric_mem {s : State} {switch : Bool} (mh : MemInv Q s) : MemInv Q (swapFabric s switch) := by
  unfold swapFabric
  exact (MemInv.foldl (MemInv.mk (MemInv.of mh)) fun _ _ mh1 => (MemInv.ite mh1 (putXp_mem K (MemInv.ite mh1 (State.raiseIf_mem K (sluiceEcc_mem K mh1))))))

theorem releaseBuses_mem {s : State} (mh : MemInv Q s) : MemInv Q (releaseBuses s) := by
  unfold releaseBuses
  exact (MemInv.foldl mh fun _ _ mh1 => (MemInv.ite mh1 (releaseStall_mem K mh1)))

theorem claimBuses_mem {s : State} (mh : MemInv Q s) : MemInv Q (claimBuses s) := by
  unfold claimBuses
  exact (MemInv.foldl mh fun _ _ mh1 => (MemInv.ite (claimStall_mem K mh1) (State.raise_mem K (claimStall_mem K mh1))))

theorem weirTakeIn_mem {s : State} {switch : Bool} (mh : MemInv Q s) : MemInv Q (weirTakeIn s switch) := by
  unfold weirTakeIn
  exact (MemInv.foldl mh fun _ _ mh1 => (putXp_mem K (State.eccEvent_mem K mh1)))

theorem endAllFades_mem {s : State} (mh : MemInv Q s) : MemInv Q (endAllFades s) := by
  unfold endAllFades
  exact (MemInv.foldl mh fun _ _ mh1 => (by
    first | (extract_lets; split) | (dsimp only; split) | split
    · exact (putXp_mem K mh1)
    · exact mh1))

theorem busWrite_mem {s : State} {k : Nat} (mh : MemInv Q s) : MemInv Q (busWrite s k) := by
  unfold busWrite
  exact (stallWrite_mem K (MemInv.mk (MemInv.of (State.raiseIf_mem K (State.raiseIf_mem K (MemInv.ite2 (State.takeFree_mem K (State.eccEvent_mem K mh)) (MemInv.pair2 (State.eccEvent_mem K mh))))))))

theorem fadesAdvance_mem {s : State} (mh : MemInv Q s) : MemInv Q (fadesAdvance s) := by
  unfold fadesAdvance
  exact (MemInv.foldl mh fun _ _ mh1 => (by
    first | (extract_lets; split) | (dsimp only; split) | split
    · exact (MemInv.ite (putXp_mem K mh1) mh1)
    · exact mh1))

theorem weirsAdvance_mem {s : State} (mh : MemInv Q s) : MemInv Q (weirsAdvance s) := by
  unfold weirsAdvance
  exact (MemInv.foldl mh fun _ _ mh1 => (by
    first | (extract_lets; split) | (dsimp only; split) | split
    · exact (MemInv.ite (putXp_mem K mh1) mh1)
    · exact mh1))

theorem xpEcc_mem {s : State} (mh : MemInv Q s) : MemInv Q (xpEcc s) := by
  unfold xpEcc
  exact (MemInv.foldl mh fun _ _ mh1 => (State.eccEvent_mem K mh1))

theorem fadesCount_mem {s : State} (mh : MemInv Q s) : MemInv Q (fadesCount s) := by
  unfold fadesCount
  exact (State.setReg_mem K mh)

theorem fabricRun_mem {s : State} (mh : MemInv Q s) : MemInv Q (fabricRun s) := by
  unfold fabricRun
  exact (MemInv.ite (fadesCount_mem K mh) (fadesCount_mem K (State.raiseIf_mem K (weirsAdvance_mem K (MemInv.foldl (fadesAdvance_mem K (xpEcc_mem K mh)) fun _ _ mh1 => (busWrite_mem K mh1))))))

theorem weirStepCommand_mem {s : State} {e : Nat} (mh : MemInv Q s) : MemInv Q (weirStepCommand s e) := by
  unfold weirStepCommand
  exact (by
    first | (extract_lets; split) | (dsimp only; split) | split
    · exact mh
    · exact (MemInv.ite (putXp_mem K mh) mh))

theorem fadeEnd_mem {s : State} {e : Nat} (mh : MemInv Q s) : MemInv Q (fadeEnd s e) := by
  unfold fadeEnd
  exact (by
    first | (extract_lets; split) | (dsimp only; split) | split
    · exact mh
    · exact (MemInv.ite (MemInv.ite (by
      first | (extract_lets; split) | (dsimp only; split) | split
      · exact (putXp_mem K mh)
      · exact (putXp_mem K mh)) (putXp_mem K mh)) mh))

theorem execWeirStep_mem {e : Fin 65536} {s : State} (mh : MemInv Q s) : MemOut Q (execWeirStep e s) := by
  unfold execWeirStep
  exact (done_mem K (weirStepCommand_mem K mh))

theorem execFadeEnd_mem {e : Fin 65536} {s : State} (mh : MemInv Q s) : MemOut Q (execFadeEnd e s) := by
  unfold execFadeEnd
  exact (done_mem K (fadeEnd_mem K mh))

end Sys2Proof.Machine
end

