-- ==== Sys2Proof/Laws/KeepCascade.lean ====
section
/-! SUPPORT. The definitions of Machine/Cascade.lean keep what MemKeeps keeps. -/
namespace Sys2Proof.Machine

variable {Q : List Instr → Cells (BitVec 32) → Cells Word → Cells Byte → Cells (BitVec 32) → Cells (BitVec 2) → Cells (BitVec 2) → Cells Byte → Prop} (K : MemKeeps Q)
include K

set_option linter.unusedSectionVars false

theorem chainOff_mem {s : State} {c : Nat} (mh : MemInv Q s) : MemInv Q (chainOff s c) := by
  unfold chainOff
  exact (MemInv.mk (MemInv.of mh))

theorem swapCascade_mem {s : State} (mh : MemInv Q s) : MemInv Q (swapCascade s) := by
  unfold swapCascade
  exact (MemInv.mk (MemInv.of mh))

theorem releaseChains_mem {s : State} {old : Cells Word} (mh : MemInv Q s) : MemInv Q (releaseChains s old) := by
  unfold releaseChains
  exact (MemInv.foldl mh fun _ _ mh1 => (MemInv.ite mh1 (releaseStall_mem K mh1)))

theorem freshSections_mem {s : State} {p : Nat → Bool} (mh : MemInv Q s) : MemInv Q (freshSections s p) := by
  unfold freshSections
  exact (by
    refine MemInv.mk ?_
    try dsimp only
    exact (K.eccKeep _ (MemInv.of mh)))

theorem chainClear_mem {s : State} {c : Nat} {old : Cells Word} (mh : MemInv Q s) : MemInv Q (chainClear s c old) := by
  unfold chainClear
  exact (MemInv.mk (MemInv.of (freshSections_mem K mh)))

theorem claimChains_mem {s : State} {old : Cells Word} (mh : MemInv Q s) : MemInv Q (claimChains s old) := by
  unfold claimChains
  exact (MemInv.foldl1 (MemInv.pair1 mh) fun _ _ mh1 => (MemInv.ite1 mh1 (MemInv.ite1 (MemInv.pair1 (State.raise_mem K (releaseStall_mem K (chainOff_mem K mh1)))) (MemInv.ite1 (MemInv.pair1 (chainClear_mem K (claimStall_mem K mh1))) (MemInv.pair1 (State.raise_mem K (chainOff_mem K (claimStall_mem K mh1))))))))

theorem cascadeClear_mem {s : State} (mh : MemInv Q s) : MemInv Q (cascadeClear s) := by
  unfold cascadeClear
  exact (MemInv.mk (MemInv.of (freshSections_mem K mh)))

theorem sectionRun_mem {s : State} {i : Nat} {x : Word} (mh : MemInv Q s) : MemInv Q (sectionRun s i x).2 := by
  unfold sectionRun
  exact (MemInv.ite2 (MemInv.pair2 (State.eccEvents_mem K mh)) (MemInv.pair2 (State.raiseIf_mem K (MemInv.mk (MemInv.of (freshSections_mem K (State.eccEvents_mem K mh)))))))

theorem sectionsRun_mem {s : State} {i : Nat} {x : Word} {n : Nat} (h : MemInv Q s) : MemInv Q (sectionsRun s i x n).2 := by
  induction n generalizing s i x with
  | zero => exact h
  | succ n ih => exact ih (sectionRun_mem K h)

theorem chainRun_mem {s : State} {c : Nat} (mh : MemInv Q s) : MemInv Q (chainRun s c) := by
  unfold chainRun
  exact (MemInv.ite (stallWrite_mem K (State.eccEvents_mem K mh)) (MemInv.ite (stallWrite_mem K (State.raise_mem K (State.eccEvents_mem K mh))) (stallWrite_mem K (sectionsRun_mem K (State.eccEvents_mem K mh)))))

theorem cascadeRun_mem {s : State} (mh : MemInv Q s) : MemInv Q (cascadeRun s) := by
  unfold cascadeRun
  exact (MemInv.ite mh (MemInv.foldl mh fun _ _ mh1 => (MemInv.ite (chainRun_mem K mh1) mh1)))

end Sys2Proof.Machine
end

