-- ==== Sys2Proof/Laws/KeepPorts.lean ====
section
/-! SUPPORT. The definitions of Machine/Ports.lean keep what MemKeeps keeps. -/
namespace Sys2Proof.Machine

variable {Q : List Instr → Cells (BitVec 32) → Cells Word → Cells Byte → Cells (BitVec 32) → Cells (BitVec 2) → Cells (BitVec 2) → Cells Byte → Prop} (K : MemKeeps Q)
include K

set_option linter.unusedSectionVars false

theorem pdmRefresh_mem {s : State} (mh : MemInv Q s) : MemInv Q (pdmRefresh s) := by
  unfold pdmRefresh
  exact (MemInv.mk (MemInv.of mh))

theorem pdmApply_mem {s : State} {m : Nat} (mh : MemInv Q s) : MemInv Q (pdmApply s m) := by
  unfold pdmApply
  exact (MemInv.ite (MemInv.ite (State.raise_mem K (State.lowerAt_mem K mh)) (MemInv.ite (MemInv.ite (MemInv.mk (MemInv.of (claimStall_mem K (claimAll_mem K mh)))) (State.lowerAt_mem K (MemInv.ite (claimStall_mem K (claimAll_mem K mh)) (resRelease_mem K (claimStall_mem K (claimAll_mem K mh)))))) (State.lowerAt_mem K (claimAll_mem K mh)))) mh)

theorem pdmRetire_mem {s : State} {m : Nat} (mh : MemInv Q s) : MemInv Q (pdmRetire s m) := by
  unfold pdmRetire
  exact (MemInv.ite (MemInv.ite (releaseStall_mem K (MemInv.mk (MemInv.of mh))) (resRelease_mem K (releaseStall_mem K (MemInv.mk (MemInv.of mh))))) mh)

theorem pdmFrame_mem {s : State} (mh : MemInv Q s) : MemInv Q (pdmFrame s) := by
  unfold pdmFrame
  exact (MemInv.foldl (MemInv.mk (MemInv.of (MemInv.foldl mh fun _ _ mh1 => (pdmApply_mem K mh1)))) fun _ _ mh1 => (MemInv.ite (MemInv.mk (MemInv.of mh1)) mh1))

theorem freeWord_mem {s : State} {f : Nat → Word} (mh : MemInv Q s) : MemInv Q (freeWord s f).2 := by
  unfold freeWord
  exact (MemInv.pair2 (State.takeFree_mem K mh))

theorem dcBlock_mem {s : State} {corner : Nat} {w : Word} (mh : MemInv Q s) : MemInv Q (dcBlock s corner w).2 := by
  unfold dcBlock
  exact (MemInv.ite2 (MemInv.pair2 mh) (freeWord_mem K mh))

theorem pdmChain_mem {x : SampleInput} {s : State} {m : Nat} (mh : MemInv Q s) : MemInv Q (pdmChain x s m).2 := by
  unfold pdmChain
  exact (dcBlock_mem K (MemInv.ite2 (MemInv.pair2 mh) (by
    first | (extract_lets; split) | (dsimp only; split) | split
    · exact (MemInv.pair2 mh)
    · exact (freeWord_mem K mh))))

theorem pdmSample_mem {x : SampleInput} {s : State} {m : Nat} (mh : MemInv Q s) : MemInv Q (pdmSample x s m) := by
  unfold pdmSample
  exact (MemInv.ite mh (MemInv.ite (portWrite_mem K (MemInv.mk (MemInv.of mh))) (portWrite_mem K (MemInv.ite (State.count_mem K (State.raise_mem K (pdmChain_mem K (MemInv.mk (MemInv.of mh))))) (pdmChain_mem K (MemInv.mk (MemInv.of mh)))))))

theorem pdmBoundary_mem {s : State} (mh : MemInv Q s) : MemInv Q (pdmBoundary s) := by
  unfold pdmBoundary
  exact (MemInv.mk (MemInv.of mh))

theorem execPdmSettleEnd_mem {m : Fin 128} {s : State} (mh : MemInv Q s) : MemOut Q (execPdmSettleEnd m s) := by
  unfold execPdmSettleEnd
  exact (done_mem K (MemInv.mk (MemInv.of mh)))

theorem pdmStuck_mem {s : State} {m : Nat} (mh : MemInv Q s) : MemInv Q (pdmStuck s m) := by
  unfold pdmStuck
  exact (MemInv.ite (MemInv.ite (MemInv.mk (MemInv.of (State.raiseAt_mem K mh))) (State.raiseAt_mem K mh)) mh)

theorem execPdmStuck_mem {m : Fin 128} {s : State} (mh : MemInv Q s) : MemOut Q (execPdmStuck m s) := by
  unfold execPdmStuck
  exact (done_mem K (pdmStuck_mem K mh))

theorem pdmClkWrite_mem {s : State} {v : BitVec 32} (mh : MemInv Q s) : MemInv Q (pdmClkWrite s v) := by
  unfold pdmClkWrite
  exact (pdmRefresh_mem K (MemInv.foldl mh fun _ _ mh1 => (MemInv.ite (State.setBit_mem K (claimAll_mem K mh1)) (MemInv.ite (State.setBit_mem K (resRelease_mem K mh1)) mh1))))

theorem execPdmClkEnWrite_mem {v : BitVec 32} {s : State} (mh : MemInv Q s) : MemOut Q (execPdmClkEnWrite v s) := by
  unfold execPdmClkEnWrite
  exact (done_mem K (pdmClkWrite_mem K mh))

theorem adcRetire_mem {s : State} {i : Nat} (mh : MemInv Q s) : MemInv Q (adcRetire s i) := by
  unfold adcRetire
  exact (MemInv.ite (releaseStall_mem K (MemInv.mk (MemInv.of mh))) mh)

theorem adcFrame_mem {s : State} {i : Nat} (mh : MemInv Q s) : MemInv Q (adcFrame s i) := by
  unfold adcFrame
  exact (MemInv.ite (MemInv.ite (State.setFld_mem K (MemInv.mk (MemInv.of (claimStall_mem K (MemInv.mk (MemInv.of mh)))))) (State.setBit_mem K (claimStall_mem K (MemInv.mk (MemInv.of mh))))) (MemInv.mk (MemInv.of mh)))

theorem adcSample_mem {x : SampleInput} {s : State} {i : Nat} (mh : MemInv Q s) : MemInv Q (adcSample x s i) := by
  unfold adcSample
  exact (MemInv.ite mh (portWrite_mem K (dcBlock_mem K (State.raiseIf_mem K (by
    first | (extract_lets; split) | (dsimp only; split) | split
    · exact (MemInv.pair2 mh)
    · exact (freeWord_mem K mh))))))

theorem pgaStep_mem {s : State} {i : Nat} (mh : MemInv Q s) : MemInv Q (pgaStep s i) := by
  unfold pgaStep
  exact (MemInv.ite (State.setFld_mem K mh) mh)

theorem execPgaStep_mem {i : Fin 4} {s : State} (mh : MemInv Q s) : MemOut Q (execPgaStep i s) := by
  unfold execPgaStep
  exact (done_mem K (pgaStep_mem K mh))

theorem biasShort_mem {s : State} {i : Nat} (mh : MemInv Q s) : MemInv Q (biasShort s i) := by
  unfold biasShort
  exact (MemInv.ite (State.raise_mem K (MemInv.mk (MemInv.of mh))) mh)

theorem execBiasShort_mem {i : Fin 4} {s : State} (mh : MemInv Q s) : MemOut Q (execBiasShort i s) := by
  unfold execBiasShort
  exact (done_mem K (biasShort_mem K mh))

theorem dacSample_mem {s : State} (mh : MemInv Q s) : MemInv Q (dacSample s) := by
  unfold dacSample
  exact (MemInv.mk (MemInv.of mh))

theorem muteLow_mem {s : State} (mh : MemInv Q s) : MemInv Q (muteLow s) := by
  unfold muteLow
  exact (MemInv.mk (MemInv.of mh))

theorem putTdm_mem {s : State} {p : Nat} {x : TdmPort} (mh : MemInv Q s) : MemInv Q (putTdm s p x) := by
  unfold putTdm
  exact (MemInv.mk (MemInv.of mh))

theorem tdmClaim_mem {s : State} {p : Nat} {tx : Bool} {l : List (Nat × Nat)} (mh : MemInv Q s) : MemInv Q (tdmClaim s p tx l).2 := by
  unfold tdmClaim
  exact (by
    first | (extract_lets; split) | (dsimp only; split) | split
    · exact (MemInv.pair2 (claimRefused_mem K mh))
    · exact (MemInv.pair2 (putTdm_mem K (claimAll_mem K mh))))

theorem tdmDrop_mem {s : State} {p : Nat} {tx : Bool} (mh : MemInv Q s) : MemInv Q (tdmDrop s p tx) := by
  unfold tdmDrop
  exact (putTdm_mem K (releaseAll_mem K mh))

theorem asrcUnlock_mem {s : State} {p : Nat} (mh : MemInv Q s) : MemInv Q (asrcUnlock s p) := by
  unfold asrcUnlock
  exact (MemInv.ite (State.setReg_mem K (State.raise_mem K (State.setBit_mem K mh))) mh)

theorem tdmStop_mem {s : State} {p : Nat} (mh : MemInv Q s) : MemInv Q (tdmStop s p) := by
  unfold tdmStop
  exact (putTdm_mem K (State.setReg_mem K (State.setBit_mem K mh)))

theorem tdmDirection_mem {s : State} {p : Nat} {tx want : Bool} (mh : MemInv Q s) : MemInv Q (tdmDirection s p tx want) := by
  unfold tdmDirection
  exact (MemInv.ite (MemInv.ite (State.raise_mem K mh) (MemInv.ite (putTdm_mem K (State.setBit_mem K (tdmClaim_mem K mh))) (tdmClaim_mem K mh))) (MemInv.ite (MemInv.ite (State.setBit_mem K (tdmDrop_mem K mh)) (tdmStop_mem K (State.setBit_mem K (tdmDrop_mem K mh)))) mh))

theorem tdmCtrlWrite_mem {s : State} {p : Nat} {v : BitVec 32} (mh : MemInv Q s) : MemInv Q (tdmCtrlWrite s p v).2 := by
  unfold tdmCtrlWrite
  exact (MemInv.pair2 (tdmDirection_mem K (tdmDirection_mem K (MemInv.ite (MemInv.ite (State.setBit_mem K (claimAll_mem K (MemInv.ite (State.setReg_mem K mh) (State.raiseIf_mem K mh)))) (MemInv.ite (State.setReg_mem K (State.setBit_mem K (resRelease_mem K (MemInv.ite (State.setReg_mem K mh) (State.raiseIf_mem K mh))))) (MemInv.ite (State.setReg_mem K mh) (State.raiseIf_mem K mh)))) (MemInv.ite (State.setReg_mem K mh) (State.raiseIf_mem K mh))))))

theorem tdmFrameWrite_mem {s : State} {p : Nat} {v : BitVec 32} (mh : MemInv Q s) : MemInv Q (tdmFrameWrite s p v).2 := by
  unfold tdmFrameWrite
  exact (MemInv.ite2 (MemInv.pair2 (State.raise_mem K mh)) (MemInv.pair2 (State.setReg_mem K mh)))

theorem tdmSlotChannel_mem {s : State} {p : Nat} {tx : Bool} {i : Nat} (mh : MemInv Q s) : MemInv Q (tdmSlotChannel s p tx i).2 := by
  unfold tdmSlotChannel
  exact (MemInv.ite2 (tdmClaim_mem K mh) (MemInv.pair2 mh))

theorem tdmRetire_mem {s : State} {p : Nat} (mh : MemInv Q s) : MemInv Q (tdmRetire s p) := by
  unfold tdmRetire
  exact (MemInv.foldl mh fun _ _ mh1 => (MemInv.ite (releaseStall_mem K mh1) mh1))

theorem tdmFrame_mem {s : State} {p : Nat} (mh : MemInv Q s) : MemInv Q (tdmFrame s p) := by
  unfold tdmFrame
  exact (putTdm_mem K (MemInv.foldl1 (MemInv.pair1 (MemInv.foldl1 (MemInv.pair1 mh) fun _ _ mh1 => (MemInv.ite1 (MemInv.ite1 (MemInv.pair1 (MemInv.ite2 (claimStall_mem K (tdmSlotChannel_mem K mh1)) (MemInv.pair2 (tdmSlotChannel_mem K mh1)))) (MemInv.pair1 (State.lower_mem K (MemInv.ite2 (claimStall_mem K (tdmSlotChannel_mem K mh1)) (MemInv.pair2 (tdmSlotChannel_mem K mh1)))))) mh1))) fun _ _ mh1 => (MemInv.ite1 (MemInv.ite1 (MemInv.pair1 (tdmSlotChannel_mem K mh1)) (MemInv.pair1 (State.lower_mem K (tdmSlotChannel_mem K mh1)))) mh1)))

theorem asrcWord_mem {s : State} {held : List Word} (mh : MemInv Q s) : MemInv Q (asrcWord s held).2 := by
  unfold asrcWord
  exact (MemInv.ite2 (MemInv.pair2 mh) (freeWord_mem K mh))

theorem tdmRxWord_mem {s : State} {p i : Nat} (mh : MemInv Q s) : MemInv Q (tdmRxWord s p i).2 := by
  unfold tdmRxWord
  exact (MemInv.ite2 (MemInv.pair2 mh) (MemInv.ite2 (MemInv.ite2 (MemInv.pair2 (asrcWord_mem K mh)) (MemInv.pair2 mh)) (MemInv.pair2 mh)))

theorem tdmRxSample_mem {s : State} {p : Nat} (mh : MemInv Q s) : MemInv Q (tdmRxSample s p) := by
  unfold tdmRxSample
  exact (MemInv.ite (MemInv.foldl mh fun _ _ mh1 => (MemInv.ite (portWrite_mem K (tdmRxWord_mem K mh1)) mh1)) mh)

theorem tdmTxTaken_mem {s : State} {p i : Nat} (mh : MemInv Q s) : MemInv Q (tdmTxTaken s p i).2 := by
  unfold tdmTxTaken
  exact (MemInv.ite2 (asrcWord_mem K (putTdm_mem K mh)) (MemInv.pair2 mh))

theorem tdmTxSlot_mem {s : State} {p i : Nat} (mh : MemInv Q s) : MemInv Q (tdmTxSlot s p i).2 := by
  unfold tdmTxSlot
  exact (MemInv.ite2 (MemInv.pair2 mh) (MemInv.pair2 (putTdm_mem K (MemInv.ite (State.count_mem K (State.raise_mem K (tdmTxTaken_mem K mh))) (tdmTxTaken_mem K mh)))))

theorem tdmTxBursts_mem {on : BitVec 32} {p : Nat} {r : List TdmBurst × State} {i : Nat} (h : MemInv Q r.2) :
    MemInv Q (tdmTxBursts on p r i).2 := by
  unfold tdmTxBursts
  dsimp only
  split
  · exact tdmTxSlot_mem K h
  · exact h

theorem tdmTxSample_mem {s : State} {p : Nat} (mh : MemInv Q s) : MemInv Q (tdmTxSample s p) := by
  unfold tdmTxSample
  exact (MemInv.ite (putTdm_mem K mh) (MemInv.ite (putTdm_mem K mh) (putTdm_mem K (MemInv.foldl2 (MemInv.pair2 mh) fun _ _ mh1 => (tdmTxBursts_mem K mh1)))))

theorem tdmSlip_mem {s : State} {p : Nat} (mh : MemInv Q s) : MemInv Q (tdmSlip s p) := by
  unfold tdmSlip
  exact (State.count_mem K (State.raise_mem K mh))

theorem tdmBoundary_mem {s : State} {p : Nat} (mh : MemInv Q s) : MemInv Q (tdmBoundary s p) := by
  unfold tdmBoundary
  exact (putTdm_mem K (MemInv.foldl mh fun _ _ mh1 => (tdmSlip_mem K mh1)))

theorem tdmRxFrame_mem {s : State} {p : Nat} {slots : List (BitVec 32)} {phase : BitVec 16} (mh : MemInv Q s) : MemInv Q (tdmRxFrame s p slots phase) := by
  unfold tdmRxFrame
  exact (MemInv.ite (State.setFld_mem K (putTdm_mem K mh)) mh)

theorem tdmFsEdge_mem {s : State} {p : Nat} (mh : MemInv Q s) : MemInv Q (tdmFsEdge s p) := by
  unfold tdmFsEdge
  exact (MemInv.ite (State.count_mem K (State.raise_mem K (putTdm_mem K mh))) mh)

theorem tdmClkLost_mem {s : State} {p : Nat} (mh : MemInv Q s) : MemInv Q (tdmClkLost s p) := by
  unfold tdmClkLost
  exact (MemInv.ite (asrcUnlock_mem K (State.raise_mem K (putTdm_mem K mh))) mh)

theorem dllLock_mem {s : State} {p : Nat} {tap : BitVec 6} (mh : MemInv Q s) : MemInv Q (dllLock s p tap) := by
  unfold dllLock
  exact (MemInv.ite (State.setReg_mem K mh) mh)

theorem asrcLock_mem {s : State} {p : Nat} {ratio : BitVec 32} (mh : MemInv Q s) : MemInv Q (asrcLock s p ratio) := by
  unfold asrcLock
  exact (MemInv.ite (MemInv.ite (State.raiseIf_mem K (State.setReg_mem K mh)) (MemInv.ite (State.raise_mem K mh) (State.setReg_mem K (putTdm_mem K (State.setBit_mem K mh))))) mh)

theorem tdmSwitch_mem {changed : Bool} {s : State} {p : Nat} (mh : MemInv Q s) : MemInv Q (tdmSwitch changed s p) := by
  unfold tdmSwitch
  exact (MemInv.ite (tdmStop_mem K mh) (MemInv.ite mh (MemInv.ite (putTdm_mem K (MemInv.foldl (tdmDirection_mem K (tdmDirection_mem K (State.raise_mem K (asrcUnlock_mem K mh)))) fun _ _ mh1 => (releaseStall_mem K mh1))) (asrcUnlock_mem K mh))))

theorem execTdmRxFrame_mem {p : Fin 4} {slots : List (BitVec 32)} {phase : BitVec 16} {s : State} (mh : MemInv Q s) : MemOut Q (execTdmRxFrame p slots phase s) := by
  unfold execTdmRxFrame
  exact (done_mem K (tdmRxFrame_mem K mh))

theorem execTdmFsEdge_mem {p : Fin 4} {s : State} (mh : MemInv Q s) : MemOut Q (execTdmFsEdge p s) := by
  unfold execTdmFsEdge
  exact (done_mem K (tdmFsEdge_mem K mh))

theorem execClkLost_mem {p : Fin 4} {s : State} (mh : MemInv Q s) : MemOut Q (execClkLost p s) := by
  unfold execClkLost
  exact (done_mem K (tdmClkLost_mem K mh))

theorem execDllLock_mem {p : Fin 4} {tap : BitVec 6} {s : State} (mh : MemInv Q s) : MemOut Q (execDllLock p tap s) := by
  unfold execDllLock
  exact (done_mem K (dllLock_mem K mh))

theorem execAsrcLock_mem {p : Fin 4} {ratio : BitVec 32} {s : State} (mh : MemInv Q s) : MemOut Q (execAsrcLock p ratio s) := by
  unfold execAsrcLock
  exact (done_mem K (asrcLock_mem K mh))

theorem execAsrcUnlock_mem {p : Fin 4} {s : State} (mh : MemInv Q s) : MemOut Q (execAsrcUnlock p s) := by
  unfold execAsrcUnlock
  exact (done_mem K (asrcUnlock_mem K mh))

theorem portsRx_mem {x : SampleInput} {s : State} (mh : MemInv Q s) : MemInv Q (portsRx x s) := by
  unfold portsRx
  exact (MemInv.foldl (MemInv.foldl (MemInv.foldl mh fun _ _ mh1 => (pdmSample_mem K mh1)) fun _ _ mh1 => (adcSample_mem K mh1)) fun _ _ mh1 => (tdmRxSample_mem K mh1))

theorem portsTx_mem {s : State} (mh : MemInv Q s) : MemInv Q (portsTx s) := by
  unfold portsTx
  exact (MemInv.foldl (MemInv.foldl (dacSample_mem K (pdmBoundary_mem K mh)) fun _ _ mh1 => (tdmTxSample_mem K mh1)) fun _ _ mh1 => (tdmBoundary_mem K mh1))

theorem portsRetire_mem {s : State} (mh : MemInv Q s) : MemInv Q (portsRetire s) := by
  unfold portsRetire
  exact (MemInv.foldl (MemInv.foldl (MemInv.foldl mh fun _ _ mh1 => (pdmRetire_mem K mh1)) fun _ _ mh1 => (adcRetire_mem K mh1)) fun _ _ mh1 => (tdmRetire_mem K mh1))

theorem portsFrame_mem {s : State} (mh : MemInv Q s) : MemInv Q (portsFrame s) := by
  unfold portsFrame
  exact (MemInv.foldl (MemInv.foldl (pdmFrame_mem K mh) fun _ _ mh1 => (adcFrame_mem K mh1)) fun _ _ mh1 => (tdmFrame_mem K mh1))

theorem tdmRestart_mem {s : State} {p : Nat} (mh : MemInv Q s) : MemInv Q (tdmRestart s p) := by
  unfold tdmRestart
  exact (by
    first | (extract_lets; split) | (dsimp only; split) | split
    · exact (MemInv.ite (putTdm_mem K mh) (putTdm_mem K mh))
    · exact (tdmTxSample_mem K mh))

theorem portsSwitch_mem {changed : Bool} {s : State} (mh : MemInv Q s) : MemInv Q (portsSwitch changed s) := by
  unfold portsSwitch
  exact (pdmRefresh_mem K (MemInv.ite (MemInv.mk (MemInv.of (MemInv.foldl (MemInv.foldl mh fun _ _ mh1 => (tdmSwitch_mem K mh1)) fun _ _ mh1 => (tdmRestart_mem K mh1)))) (MemInv.foldl (MemInv.foldl mh fun _ _ mh1 => (tdmSwitch_mem K mh1)) fun _ _ mh1 => (tdmRestart_mem K mh1))))

theorem tdmAcquire_mem {s : State} {p : Nat} (mh : MemInv Q s) : MemInv Q (tdmAcquire s p) := by
  unfold tdmAcquire
  exact (tdmStop_mem K (asrcUnlock_mem K mh))

theorem portsAcquire_mem {s : State} (mh : MemInv Q s) : MemInv Q (portsAcquire s) := by
  unfold portsAcquire
  exact (muteLow_mem K (pdmRefresh_mem K (MemInv.foldl mh fun _ _ mh1 => (tdmAcquire_mem K mh1))))

end Sys2Proof.Machine
end

