-- ==== Sys2Proof/Laws/KeepRecords.lean ====
section
/-! SUPPORT. The definitions of Machine/Records.lean keep what MemKeeps keeps. -/
namespace Sys2Proof.Machine

variable {Q : List Instr → Cells (BitVec 32) → Cells Word → Cells Byte → Cells (BitVec 32) → Cells (BitVec 2) → Cells (BitVec 2) → Cells Byte → Prop} (K : MemKeeps Q)
include K

set_option linter.unusedSectionVars false

theorem supReport_mem {s : State} {rule src action result arg detail : Nat} (mh : MemInv Q s) : MemInv Q (supReport s rule src action result arg detail) := by
  unfold supReport
  exact (MemInv.mk (MemInv.of (State.count_mem K mh)))

theorem modeDecision_mem {s : State} {who rule action arg reason : Nat} (mh : MemInv Q s) : MemInv Q (modeDecision s who rule action arg reason) := by
  unfold modeDecision
  exact (State.event_mem K (supReport_mem K mh))

theorem State.supEvent_mem {s : State} {e : SupEvent} (mh : MemInv Q s) : MemInv Q (State.supEvent s e) := by
  unfold State.supEvent
  exact (MemInv.mk (MemInv.of mh))

theorem useSpare_mem {s : State} {kind i : Nat} (mh : MemInv Q s) : MemInv Q (useSpare s kind i) := by
  unfold useSpare
  exact (MemInv.ite mh (MemInv.ite (State.event_mem K (State.raise_mem K (State.setFld_mem K mh))) (State.setFld_mem K mh)))

theorem retiredRecord_mem {s : State} {kind phys cause : Nat} (mh : MemInv Q s) : MemInv Q (retiredRecord s kind phys cause) := by
  unfold retiredRecord
  exact (State.event_mem K mh)

end Sys2Proof.Machine
end

