-- ==== Sys2Proof/Laws/KeepReset.lean ====
section
/-! SUPPORT. The definitions of Machine/Reset.lean keep what MemKeeps keeps. -/
namespace Sys2Proof.Machine

variable {Q : List Instr → Cells (BitVec 32) → Cells Word → Cells Byte → Cells (BitVec 32) → Cells (BitVec 2) → Cells (BitVec 2) → Cells Byte → Prop} (K : MemKeeps Q)
include K

set_option linter.unusedSectionVars false

theorem regsKept_keeps {m : Nat → BitVec 32} {p : List Instr} {r : Cells (BitVec 32)} {y : Cells Word} {f : Cells Byte}
    {t : Cells (BitVec 32)} {e z : Cells (BitVec 2)} {c : Cells Byte} (h : Q p r y f t e z c) : Q p (regsKept m r) y f t e z c :=
  K.regFold (K.regClear h)

theorem resetBase_mem {s : State} (h : MemInv Q s) : MemInv Q (resetBase s) := K.regClear (K.yardClear (K.eccClear (K.claimClear h)))

theorem keepMemories_mem {s t : State} (hs : MemInv Q s) (ht : s.pending = t.pending ∧ s.regs = t.regs ∧ s.boot.flash = t.boot.flash ∧ s.boot.tack = t.boot.tack ∧ s.boot.tackEcc = t.boot.tackEcc ∧ s.claims = t.claims) :
    MemInv Q (keepMemories s t) := by
  unfold keepMemories
  refine MemInv.mk ?_
  rw [← ht.1, ← ht.2.1, ← ht.2.2.1, ← ht.2.2.2.1, ← ht.2.2.2.2.1, ← ht.2.2.2.2.2]
  exact K.eccKeep _ (MemInv.of hs)

theorem countFailure_mem {s : State} (mh : MemInv Q s) : MemInv Q (countFailure s) := by
  unfold countFailure
  exact (MemInv.ite (State.setFld_mem K mh) mh)

theorem recordReason_mem {s : State} {code : Nat} (mh : MemInv Q s) : MemInv Q (recordReason s code) := by
  unfold recordReason
  exact (State.setReg_mem K mh)

theorem warmReset_mem {s : State} {code : Nat} (h : MemInv Q s) : MemInv Q (warmReset s code) := by
  have run : MemInv Q (
    let s1 := recordReason (countFailure s) code
    let keep := keepsMemories s code
    let m := fun a => warmMask a ||| (if keep then stagedMask a else 0#32)
    let t := { resetBase s1 with regs := regsKept m s1.regs, boot := { (resetBase s1).boot with safeReq := s.boot.safeReq } }
    if keep then keepMemories s t else t) := by
    have h1 : MemInv Q (recordReason (countFailure s) code) := recordReason_mem K (countFailure_mem K h)
    have e : (recordReason (countFailure s) code).yard = s.yard := by
      have e1 : (countFailure s).yard = s.yard := by unfold countFailure; split <;> rfl
      have e2 : ∀ u : State, (recordReason u code).yard = u.yard := by intro u; rfl
      rw [e2, e1]
    have e' : (recordReason (countFailure s) code).ecc = s.ecc := by
      have e1 : (countFailure s).ecc = s.ecc := by unfold countFailure; split <;> rfl
      have e2 : ∀ u : State, (recordReason u code).ecc = u.ecc := by intro u; rfl
      rw [e2, e1]
    extract_lets s1 keep m t
    split
    · refine MemInv.mk ?_
      rw [← e, ← e']
      exact K.eccKeep _ (regsKept_keeps K (K.claimClear h1))
    · exact regsKept_keeps K (K.yardClear (K.eccClear (K.claimClear h1)))
  unfold warmReset
  split
  · exact h
  · split
    · exact regsKept_keeps K (K.yardClear (K.eccClear (K.claimClear (State.setFld_mem K h))))
    · split
      · exact State.setFld_mem K h
      · exact h
  · exact run
  · exact run

theorem wakeReset_mem {s : State} {code : Nat} (h : MemInv Q s) : MemInv Q (wakeReset s code) := by
  have h1 : MemInv Q (recordReason s code) := recordReason_mem K h
  unfold wakeReset
  generalize recordReason s code = u at h1
  exact K.tackClear (K.markClear (K.yardClear (K.eccClear (K.claimClear (regsKept_keeps K h1)))))

theorem powerOnReset_mem {s : State} (h : MemInv Q s) : MemInv Q (powerOnReset s) :=
  K.tackClear (K.markClear (K.yardClear (K.eccClear (K.claimClear (K.regClear h)))))

theorem enterSafe_mem {s : State} {reason : Nat} (mh : MemInv Q s) : MemInv Q (enterSafe s reason) := by
  unfold enterSafe
  exact (MemInv.ite mh (warmReset_mem K (MemInv.mk (MemInv.of mh))))

end Sys2Proof.Machine
end

