-- ==== Sys2Proof/Laws/KeepClock.lean ====
section
/-! SUPPORT. The definitions of Machine/Clock.lean keep what MemKeeps keeps. -/
namespace Sys2Proof.Machine

variable {Q : List Instr → Cells (BitVec 32) → Cells Word → Cells Byte → Cells (BitVec 32) → Cells (BitVec 2) → Cells (BitVec 2) → Cells Byte → Prop} (K : MemKeeps Q)
include K

set_option linter.unusedSectionVars false

theorem setMpll_mem {s : State} {st : Nat} {gate : Bool} (mh : MemInv Q s) : MemInv Q (setMpll s st gate) := by
  unfold setMpll
  exact (State.setBit_mem K (State.setFld_mem K mh))

theorem setCore_mem {s : State} {src : Nat} (mh : MemInv Q s) : MemInv Q (setCore s src) := by
  unfold setCore
  exact (State.setBit_mem K (State.setFld_mem K mh))

theorem mpllEvent_mem {s : State} {m : Nat} (mh : MemInv Q s) : MemInv Q (mpllEvent s m) := by
  unfold mpllEvent
  exact (State.event_mem K (State.raise_mem K mh))

theorem safeNow_mem {s : State} {reason : Nat} (mh : MemInv Q s) : MemInv Q (safeNow s reason) := by
  unfold safeNow
  exact (enterSafe_mem K (State.event_mem K mh))

theorem dutySafe_mem {s : State} {reason : Nat} (mh : MemInv Q s) : MemInv Q (dutySafe s reason) := by
  unfold dutySafe
  exact (safeNow_mem K (modeDecision_mem K mh))

theorem mpllFail_mem {s : State} {m : Nat} (mh : MemInv Q s) : MemInv Q (mpllFail s m) := by
  unfold mpllFail
  exact (MemInv.ite (MemInv.ite (dutySafe_mem K (MemInv.mk (MemInv.of (mpllEvent_mem K (setMpll_mem K mh))))) (MemInv.mk (MemInv.of (mpllEvent_mem K (setMpll_mem K mh))))) (mpllEvent_mem K (setMpll_mem K mh)))

theorem leaveMedia_mem {s : State} (mh : MemInv Q s) : MemInv Q (leaveMedia s) := by
  unfold leaveMedia
  exact (MemInv.ite (muteLow_mem K (MemInv.mk (MemInv.of (State.setBit_mem K mh)))) mh)

theorem mpllAcquire_mem {s : State} (mh : MemInv Q s) : MemInv Q (mpllAcquire s) := by
  unfold mpllAcquire
  exact (MemInv.ite (mpllFail_mem K (State.setReg_mem K (setMpll_mem K (MemInv.mk (MemInv.of (State.count_mem K mh)))))) (State.setReg_mem K (setMpll_mem K (MemInv.mk (MemInv.of (State.count_mem K mh))))))

theorem mpllTake_mem {s : State} (mh : MemInv Q s) : MemInv Q (mpllTake s) := by
  unfold mpllTake
  exact (MemInv.ite (mpllAcquire_mem K mh) (setMpll_mem K mh))

theorem mpllConfigured_mem {s : State} (mh : MemInv Q s) : MemInv Q (mpllConfigured s) := by
  unfold mpllConfigured
  exact (MemInv.ite (leaveMedia_mem K mh) (mpllTake_mem K mh))

theorem mpllRecheck_mem {s : State} (mh : MemInv Q s) : MemInv Q (mpllRecheck s) := by
  unfold mpllRecheck
  exact (MemInv.ite (mpllFail_mem K mh) mh)

theorem mpllBandWrite_mem {s : State} {i : Nat} {written : State} (mh_s : MemInv Q s) (mh_written : MemInv Q written) : MemInv Q (mpllBandWrite s i written) := by
  unfold mpllBandWrite
  exact (MemInv.ite (mpllConfigured_mem K mh_written) mh_written)

theorem modulate_mem {s : State} {n : Nat} (mh : MemInv Q s) : MemInv Q (modulate s n) := by
  unfold modulate
  exact (MemInv.ite (MemInv.mk (MemInv.of mh)) (MemInv.mk (MemInv.of mh)))

theorem clockPass_mem {s : State} {n : Nat} (mh : MemInv Q s) : MemInv Q (clockPass s n) := by
  unfold clockPass
  exact (MemInv.ite (modulate_mem K (MemInv.mk (MemInv.of mh))) (MemInv.mk (MemInv.of mh)))

theorem mpllConfigWrite_mem {s : State} {k : Nat} {v : BitVec 32} (mh : MemInv Q s) : MemInv Q (mpllConfigWrite s k v) := by
  unfold mpllConfigWrite
  exact (mpllConfigured_mem K (State.setReg_mem K mh))

theorem mncoFwWrite_mem {s : State} {v : BitVec 32} (mh : MemInv Q s) : MemInv Q (mncoFwWrite s v) := by
  unfold mncoFwWrite
  exact (MemInv.ite (mpllConfigured_mem K (MemInv.mk (MemInv.of (State.setReg_mem K mh)))) (MemInv.mk (MemInv.of (State.setReg_mem K mh))))

theorem mncoAdj_mem {s : State} {x : Int} (mh : MemInv Q s) : MemInv Q (mncoAdj s x) := by
  unfold mncoAdj
  exact (State.raiseIf_mem K (State.setReg_mem K mh))

theorem mncoAdjWrite_mem {s : State} {v : BitVec 32} (mh : MemInv Q s) : MemInv Q (mncoAdjWrite s v).2 := by
  unfold mncoAdjWrite
  exact (MemInv.ite2 (MemInv.pair2 (State.raise_mem K mh)) (MemInv.pair2 (mncoAdj_mem K mh)))

theorem adjSlew_mem {s : State} (mh : MemInv Q s) : MemInv Q (adjSlew s) := by
  unfold adjSlew
  exact (mpllRecheck_mem K (State.setReg_mem K mh))

theorem clkOutput_mem {s : State} {v : BitVec 32} {k : Nat} {on : Bool} (mh : MemInv Q s) : MemInv Q (clkOutput s v k on) := by
  unfold clkOutput
  exact (MemInv.ite (MemInv.ite (MemInv.ite (State.setFld_mem K (claimAll_mem K mh)) (State.setFld_mem K (claimAll_mem K mh))) (State.setBit_mem K (claimAll_mem K mh))) (MemInv.ite (State.setFld_mem K (releaseAll_mem K mh)) (State.setFld_mem K (releaseAll_mem K mh))))

theorem clkOutWrite_mem {s : State} {v : BitVec 32} (mh : MemInv Q s) : MemInv Q (clkOutWrite s v) := by
  unfold clkOutWrite
  exact (MemInv.foldl (MemInv.foldl mh fun _ _ mh1 => (MemInv.ite (clkOutput_mem K mh1) mh1)) fun _ _ mh1 => (MemInv.ite (clkOutput_mem K mh1) mh1))

theorem rtcCount_mem {s : State} {n : Nat} (mh : MemInv Q s) : MemInv Q (rtcCount s n) := by
  unfold rtcCount
  exact (MemInv.ite (MemInv.mk (MemInv.of mh)) mh)

theorem rtcPass_mem {s : State} {n : Nat} (mh : MemInv Q s) : MemInv Q (rtcPass s n) := by
  unfold rtcPass
  exact (MemInv.ite (MemInv.mk (MemInv.of (rtcCount_mem K mh))) mh)

theorem rtcGap_mem {s : State} (mh : MemInv Q s) : MemInv Q (rtcGap s) := by
  unfold rtcGap
  exact (MemInv.ite (rtcCount_mem K (State.takeFree_mem K mh)) mh)

theorem execTdmCtrlWrite_mem {p : Fin 4} {v : MasterWrite} {s : State} (mh : MemInv Q s) : MemOut Q (execTdmCtrlWrite p v s) := by
  unfold execTdmCtrlWrite
  exact (done_mem K (State.asked_mem K mh (MemInv.pair2 (mpllRecheck_mem K (tdmCtrlWrite_mem K mh)))))

theorem execTdmFrameWrite_mem {p : Fin 4} {v : MasterWrite} {s : State} (mh : MemInv Q s) : MemOut Q (execTdmFrameWrite p v s) := by
  unfold execTdmFrameWrite
  exact (done_mem K (State.asked_mem K mh (tdmFrameWrite_mem K mh)))

theorem execMpllConfigWrite_mem {k : Fin 4} {v : BitVec 32} {s : State} (mh : MemInv Q s) : MemOut Q (execMpllConfigWrite k v s) := by
  unfold execMpllConfigWrite
  exact (done_mem K (mpllConfigWrite_mem K mh))

theorem execMpllLock_mem {ctrl : BitVec 10} {s : State} (mh : MemInv Q s) : MemOut Q (execMpllLock ctrl s) := by
  unfold execMpllLock
  exact (done_mem K (MemInv.ite (MemInv.mk (MemInv.of (State.setFld_mem K (State.setFld_mem K (State.raise_mem K (setMpll_mem K mh)))))) mh))

theorem execMpllGateClose_mem {s : State} (mh : MemInv Q s) : MemOut Q (execMpllGateClose s) := by
  unfold execMpllGateClose
  exact (done_mem K (MemInv.ite (State.setFld_mem K (setMpll_mem K mh)) mh))

theorem execMpllOver_mem {s : State} (mh : MemInv Q s) : MemOut Q (execMpllOver s) := by
  unfold execMpllOver
  exact (done_mem K (MemInv.ite (mpllFail_mem K mh) mh))

theorem execMpllTimeout_mem {s : State} (mh : MemInv Q s) : MemOut Q (execMpllTimeout s) := by
  unfold execMpllTimeout
  exact (done_mem K (MemInv.ite (mpllFail_mem K mh) mh))

theorem execHoldover_mem {refLoss : Bool} {s : State} (mh : MemInv Q s) : MemOut Q (execHoldover refLoss s) := by
  unfold execHoldover
  exact (done_mem K (MemInv.ite (mpllEvent_mem K (State.count_mem K (setMpll_mem K mh))) mh))

theorem execResumed_mem {s : State} (mh : MemInv Q s) : MemOut Q (execResumed s) := by
  unfold execResumed
  exact (done_mem K (MemInv.ite (State.raise_mem K (setMpll_mem K mh)) mh))

theorem execMncoAdjWrite_mem {v : MasterWrite} {s : State} (mh : MemInv Q s) : MemOut Q (execMncoAdjWrite v s) := by
  unfold execMncoAdjWrite
  exact (done_mem K (State.asked_mem K mh (mncoAdjWrite_mem K mh)))

theorem execAdjSlewStep_mem {s : State} (mh : MemInv Q s) : MemOut Q (execAdjSlewStep s) := by
  unfold execAdjSlewStep
  exact (done_mem K (adjSlew_mem K mh))

theorem execMncoFwHiWrite_mem {v : BitVec 32} {s : State} (mh : MemInv Q s) : MemOut Q (execMncoFwHiWrite v s) := by
  unfold execMncoFwHiWrite
  exact (done_mem K (mncoFwWrite_mem K mh))

theorem execClockFault_mem {s : State} (mh : MemInv Q s) : MemOut Q (execClockFault s) := by
  unfold execClockFault
  exact (done_mem K (warmReset_mem K mh))

theorem execClkoutCtrlWrite_mem {v : BitVec 32} {s : State} (mh : MemInv Q s) : MemOut Q (execClkoutCtrlWrite v s) := by
  unfold execClkoutCtrlWrite
  exact (done_mem K (clkOutWrite_mem K mh))

end Sys2Proof.Machine
end

