-- ==== Sys2Proof/Laws/KeepBoot.lean ====
section
/-! SUPPORT. The definitions of Machine/Boot.lean keep what MemKeeps keeps. -/
namespace Sys2Proof.Machine

variable {Q : List Instr → Cells (BitVec 32) → Cells Word → Cells Byte → Cells (BitVec 32) → Cells (BitVec 2) → Cells (BitVec 2) → Cells Byte → Prop} (K : MemKeeps Q)
include K

set_option linter.unusedSectionVars false

theorem flashPut_mem {s : State} {a : Nat} {bs : List Byte} (mh : MemInv Q s) : MemInv Q (flashPut s a bs) := by
  unfold flashPut
  exact (by
    refine MemInv.mk ?_
    try dsimp only
    exact (K.flashFold (MemInv.of mh)))

theorem flashErase_mem {s : State} {a : Nat} (mh : MemInv Q s) : MemInv Q (flashErase s a) := by
  unfold flashErase
  exact (by
    refine MemInv.mk ?_
    try dsimp only
    exact (K.flashKeep _ (MemInv.of mh)))

theorem flashCommand_mem {s : State} {master : Nat} {erase : Bool} (mh : MemInv Q s) : MemInv Q (flashCommand s master erase).2 := by
  unfold flashCommand
  exact (MemInv.ite2 (MemInv.pair2 (State.raise_mem K mh)) (MemInv.ite2 (MemInv.pair2 (State.raise_mem K mh)) (MemInv.pair2 (MemInv.mk (MemInv.of (State.raise_mem K (MemInv.ite (flashErase_mem K mh) (flashPut_mem K mh))))))))

theorem putMarker_mem {s : State} {k o : Nat} {code : Byte} (mh : MemInv Q s) : MemInv Q (putMarker s k o code) := by
  unfold putMarker
  exact (flashPut_mem K mh)

theorem retireOlderOther_mem {s : State} {k : Nat} (mh : MemInv Q s) : MemInv Q (retireOlderOther s k) := by
  unfold retireOlderOther
  exact (MemInv.ite (putMarker_mem K mh) mh)

theorem yardImageEcc_mem {s : State} {o n : Nat} (mh : MemInv Q s) : MemInv Q (yardImageEcc s o n) := by
  unfold yardImageEcc
  exact (MemInv.foldl mh fun _ _ mh1 => (yardEcc_mem K mh1))

theorem otpShow_mem {s : State} (mh : MemInv Q s) : MemInv Q (otpShow s) := by
  unfold otpShow
  exact (State.setFld_mem K (State.setReg_mem K mh))

theorem tackReject_mem {s : State} (mh : MemInv Q s) : MemInv Q (tackReject s) := by
  unfold tackReject
  exact (State.raise_mem K mh)

theorem tackWipe_mem {s : State} (mh : MemInv Q s) : MemInv Q (tackWipe s) := by
  unfold tackWipe
  exact (by
    refine MemInv.mk ?_
    try dsimp only
    exact (K.tackClear (K.markClear (MemInv.of (State.setReg_mem K mh)))))

theorem returnedErase_mem {s : State} (mh : MemInv Q s) : MemInv Q (returnedErase s) := by
  unfold returnedErase
  exact (MemInv.ite (by
    refine MemInv.mk ?_
    try dsimp only
    exact (K.flashKeep _ (MemInv.of mh))) mh)

theorem stageLifeCycle_mem {s : State} (mh : MemInv Q s) : MemInv Q (stageLifeCycle s) := by
  unfold stageLifeCycle
  exact (returnedErase_mem K (by
    first | (extract_lets; split) | (dsimp only; split) | split
    · exact mh
    · exact (MemInv.ite (tackWipe_mem K (MemInv.mk (MemInv.of mh))) (State.raise_mem K (MemInv.mk (MemInv.of mh))))))

theorem drawChallenge_mem {s : State} (mh : MemInv Q s) : MemInv Q (drawChallenge s) := by
  unfold drawChallenge
  exact (MemInv.foldl mh fun _ _ mh1 => (State.setReg_mem K (State.takeFree_mem K mh1)))

theorem stageDebug_mem {s : State} (mh : MemInv Q s) : MemInv Q (stageDebug s) := by
  unfold stageDebug
  exact (drawChallenge_mem K (MemInv.mk (MemInv.of (State.setBit_mem K (State.setBit_mem K (State.setBit_mem K mh))))))

theorem stageFactory_mem {s : State} (mh : MemInv Q s) : MemInv Q (stageFactory s) := by
  unfold stageFactory
  exact (MemInv.mk (MemInv.of (MemInv.foldl mh fun _ _ mh1 => (State.setReg_mem K mh1))))

theorem tackFill_mem {s : State} {image : Bool} (mh : MemInv Q s) : MemInv Q (tackFill s image) := by
  unfold tackFill
  exact (MemInv.ite (tackReject_mem K (State.setReg_mem K mh)) (by
    refine MemInv.mk ?_
    try dsimp only
    exact (K.tackAll (K.markClear (MemInv.of (State.setReg_mem K mh))))))

theorem stageSafe_mem {s : State} {reason : Nat} (mh : MemInv Q s) : MemInv Q (stageSafe s reason) := by
  unfold stageSafe
  exact (State.raise_mem K (State.raise_mem K (State.setReg_mem K (State.setReg_mem K (State.setFld_mem K (MemInv.mk (MemInv.of (tackFill_mem K mh))))))))

theorem ccStart_mem {s : State} {a : Nat} (mh : MemInv Q s) : MemInv Q (ccStart s a) := by
  unfold ccStart
  exact (MemInv.mk (MemInv.of mh))

theorem noteImage_mem {s : State} {k : Nat} {seq : BitVec 32} (mh : MemInv Q s) : MemInv Q (noteImage s k seq) := by
  unfold noteImage
  exact (MemInv.ite mh (MemInv.mk (MemInv.of (State.setReg_mem K mh))))

theorem imageRuns_mem {s : State} {k key : Nat} (mh : MemInv Q s) : MemInv Q (imageRuns s k key) := by
  unfold imageRuns
  exact (MemInv.mk (MemInv.of mh))

theorem startSlot_mem {s : State} {k : Nat} {trial : Bool} (h : MemInv Q s) : MemInv Q (startSlot s k trial) := by
  unfold startSlot
  extract_lets v s1 s2
  have h1 : MemInv Q s1 := noteImage_mem K (tackFill_mem K h)
  have h2 : MemInv Q s2 := State.setReg_mem K (State.setFld_mem K h1)
  clear_value s2
  exact ccStart_mem K (imageRuns_mem K (State.setReg_mem K h2))

theorem startNormal_mem {s : State} {k : Nat} (mh : MemInv Q s) : MemInv Q (startNormal s k) := by
  unfold startNormal
  exact (MemInv.ite (stageSafe_mem K (retireOlderOther_mem K mh)) (startSlot_mem K (retireOlderOther_mem K mh)))

theorem stageSelect_mem {s : State} {reason : Nat} {l : List Nat} (h : MemInv Q s) : MemInv Q (stageSelect s reason l) := by
  induction l generalizing s reason with
  | nil => exact stageSafe_mem K h
  | cons k rest ih =>
    unfold stageSelect
    split
    · split
      · exact startNormal_mem K h
      · split
        · exact ih (State.raise_mem K (putMarker_mem K h))
        · extract_lets free
          refine startSlot_mem K ?_
          clear_value free
          split
          · exact putMarker_mem K h
          · exact h
    · exact ih (State.raise_mem K h)

theorem stage0_mem {s : State} (mh : MemInv Q s) : MemInv Q (stage0 s) := by
  unfold stage0
  exact (by
    first | (extract_lets; split) | (dsimp only; split) | split
    · exact (stageSafe_mem K (MemInv.mk (MemInv.of (otpShow_mem K (stageFactory_mem K (stageDebug_mem K (stageLifeCycle_mem K mh)))))))
    · exact (stageSelect_mem K (State.setFld_mem K (otpShow_mem K (stageFactory_mem K (stageDebug_mem K (stageLifeCycle_mem K mh)))))))

theorem resetRelease_mem {s : State} (mh : MemInv Q s) : MemInv Q (resetRelease s) := by
  unfold resetRelease
  exact (MemInv.ite (stage0_mem K (MemInv.ite (rtcGap_mem K (MemInv.mk (MemInv.of mh))) (State.raise_mem K (rtcGap_mem K (MemInv.mk (MemInv.of mh)))))) mh)

theorem bootStart_mem {s : State} (mh : MemInv Q s) : MemInv Q (bootStart s) := by
  unfold bootStart
  exact (MemInv.ite (MemInv.mk (MemInv.of (State.setReg_mem K mh))) mh)

theorem bootConfirm_mem {s : State} (mh : MemInv Q s) : MemInv Q (bootConfirm s) := by
  unfold bootConfirm
  exact (by
    first | (extract_lets; split) | (dsimp only; split) | split
    · exact (MemInv.ite (State.setBit_mem K (bootStart_mem K (retireOlderOther_mem K (putMarker_mem K mh)))) mh)
    · exact mh)

theorem bootSafeReq_mem {s : State} {v : BitVec 32} (mh : MemInv Q s) : MemInv Q (bootSafeReq s v) := by
  unfold bootSafeReq
  exact (MemInv.ite (safeNow_mem K mh) mh)

theorem bootLcReq_mem {s : State} {v : BitVec 32} (mh : MemInv Q s) : MemInv Q (bootLcReq s v) := by
  unfold bootLcReq
  exact (MemInv.ite (MemInv.mk (MemInv.of (State.setBit_mem K mh))) (State.raise_mem K mh))

theorem dbgCtlWrite_mem {s : State} {key : BitVec 2} {req : Bool} (mh : MemInv Q s) : MemInv Q (dbgCtlWrite s key req) := by
  unfold dbgCtlWrite
  exact (MemInv.ite (warmReset_mem K (MemInv.mk (MemInv.of (State.setFld_mem K mh)))) (State.setFld_mem K mh))

theorem lcReject_mem {s : State} (mh : MemInv Q s) : MemInv Q (lcReject s) := by
  unfold lcReject
  exact (State.raise_mem K mh)

theorem progSecrets_mem {s : State} (mh : MemInv Q s) : MemInv Q (progSecrets s) := by
  unfold progSecrets
  exact (MemInv.mk (MemInv.of (State.takeFree_mem K mh)))

theorem progHash_mem {s : State} {k : Nat} (mh : MemInv Q s) : MemInv Q (progHash s k) := by
  unfold progHash
  exact (MemInv.ite (lcReject_mem K mh) (MemInv.ite (State.raise_mem K mh) (progSecrets_mem K (otpShow_mem K (MemInv.mk (MemInv.of mh))))))

theorem revokeKey_mem {s : State} {k : Nat} (mh : MemInv Q s) : MemInv Q (revokeKey s k) := by
  unfold revokeKey
  exact (MemInv.ite (lcReject_mem K mh) (MemInv.ite (State.raise_mem K mh) (otpShow_mem K (MemInv.mk (MemInv.of mh)))))

theorem banksToCc_mem {s : State} {o n : Nat} (mh : MemInv Q s) : MemInv Q (banksToCc s o n) := by
  unfold banksToCc
  exact (MemInv.foldl mh fun _ _ mh1 => (MemInv.ite (State.setReg_mem K mh1) mh1))

theorem bootGo_mem {s : State} (mh : MemInv Q s) : MemInv Q (bootGo s) := by
  unfold bootGo
  exact (MemInv.ite (ccStart_mem K (MemInv.mk (MemInv.of (State.setReg_mem K (State.setReg_mem K (State.setFld_mem K (noteImage_mem K (banksToCc_mem K (MemInv.ite (MemInv.ite mh (yardImageEcc_mem K mh)) (tackFill_mem K (MemInv.ite mh (yardImageEcc_mem K mh)))))))))))) (State.raise_mem K (MemInv.ite mh (yardImageEcc_mem K mh))))

theorem bootRun_mem {s : State} {offset : BitVec 25} {go : Bool} (mh : MemInv Q s) : MemInv Q (bootRun s offset go) := by
  unfold bootRun
  exact (MemInv.ite (MemInv.ite (MemInv.mk (MemInv.of (State.setReg_mem K mh))) (bootGo_mem K (State.setReg_mem K mh))) (State.setReg_mem K mh))

theorem execResetRelease_mem {s : State} (mh : MemInv Q s) : MemOut Q (execResetRelease s) := by
  unfold execResetRelease
  exact (done_mem K (resetRelease_mem K mh))

theorem execBootConfirm_mem {s : State} (mh : MemInv Q s) : MemOut Q (execBootConfirm s) := by
  unfold execBootConfirm
  exact (done_mem K (bootConfirm_mem K mh))

theorem execStartTimeout_mem {s : State} (mh : MemInv Q s) : MemOut Q (execStartTimeout s) := by
  unfold execStartTimeout
  exact (done_mem K (MemInv.ite (warmReset_mem K mh) mh))

theorem execBootSafeReq_mem {v : BitVec 32} {s : State} (mh : MemInv Q s) : MemOut Q (execBootSafeReq v s) := by
  unfold execBootSafeReq
  exact (done_mem K (bootSafeReq_mem K mh))

theorem execBootGo_mem {offset : BitVec 25} {s : State} (mh : MemInv Q s) : MemOut Q (execBootGo offset s) := by
  unfold execBootGo
  exact (done_mem K (bootRun_mem K mh))

theorem execBootLcReq_mem {v : BitVec 32} {s : State} (mh : MemInv Q s) : MemOut Q (execBootLcReq v s) := by
  unfold execBootLcReq
  exact (done_mem K (bootLcReq_mem K mh))

theorem execDbgReq_mem {key : BitVec 2} {s : State} (mh : MemInv Q s) : MemOut Q (execDbgReq key s) := by
  unfold execDbgReq
  exact (done_mem K (dbgCtlWrite_mem K mh))

theorem execProgHash_mem {k : Fin 4} {s : State} (mh : MemInv Q s) : MemOut Q (execProgHash k s) := by
  unfold execProgHash
  exact (done_mem K (progHash_mem K mh))

theorem execRevoke_mem {k : Fin 4} {s : State} (mh : MemInv Q s) : MemOut Q (execRevoke k s) := by
  unfold execRevoke
  exact (done_mem K (revokeKey_mem K mh))

theorem execProgramGranule_mem {master : Fin 18} {s : State} (mh : MemInv Q s) : MemOut Q (execProgramGranule master s) := by
  unfold execProgramGranule
  exact (done_mem K (State.asked_mem K mh (flashCommand_mem K mh)))

theorem execEraseBlock_mem {master : Fin 18} {s : State} (mh : MemInv Q s) : MemOut Q (execEraseBlock master s) := by
  unfold execEraseBlock
  exact (done_mem K (State.asked_mem K mh (flashCommand_mem K mh)))

end Sys2Proof.Machine
end

