-- ==== Sys2Proof/Laws/KeepHostLink.lean ====
section
/-! SUPPORT. The definitions of Machine/HostLink.lean keep what MemKeeps keeps. -/
namespace Sys2Proof.Machine

variable {Q : List Instr → Cells (BitVec 32) → Cells Word → Cells Byte → Cells (BitVec 32) → Cells (BitVec 2) → Cells (BitVec 2) → Cells Byte → Prop} (K : MemKeeps Q)
include K

set_option linter.unusedSectionVars false

theorem cfgReject_mem {s : State} (mh : MemInv Q s) : MemInv Q (cfgReject s) := by
  unfold cfgReject
  exact (State.raise_mem K mh)

theorem putAud_mem {s : State} {a : Nat} {x : AudRing} (mh : MemInv Q s) : MemInv Q (putAud s a x) := by
  unfold putAud
  exact (MemInv.mk (MemInv.of mh))

theorem audRestart_mem {s : State} {a : Nat} (mh : MemInv Q s) : MemInv Q (audRestart s a) := by
  unfold audRestart
  exact (putAud_mem K mh)

theorem ringDetach_mem {s : State} {r : Nat} (mh : MemInv Q s) : MemInv Q (ringDetach s r) := by
  unfold ringDetach
  exact (by
    first | (extract_lets; split) | (dsimp only; split) | split
    · exact (MemInv.mk (MemInv.of mh))
    · exact mh)

theorem ringEnable_mem {s : State} {r : Nat} (mh : MemInv Q s) : MemInv Q (ringEnable s r) := by
  unfold ringEnable
  exact (MemInv.ite (MemInv.mk (MemInv.of (MemInv.ite (audRestart_mem K (ringDetach_mem K (hostPut_mem K (MemInv.mk (MemInv.of (State.setBit_mem K (State.setFld_mem K (State.setReg_mem K (State.setBit_mem K mh))))))))) (ringDetach_mem K (hostPut_mem K (MemInv.mk (MemInv.of (State.setBit_mem K (State.setFld_mem K (State.setReg_mem K (State.setBit_mem K mh))))))))))) (MemInv.ite (audRestart_mem K (ringDetach_mem K (hostPut_mem K (MemInv.mk (MemInv.of (State.setBit_mem K (State.setFld_mem K (State.setReg_mem K (State.setBit_mem K mh))))))))) (ringDetach_mem K (hostPut_mem K (MemInv.mk (MemInv.of (State.setBit_mem K (State.setFld_mem K (State.setReg_mem K (State.setBit_mem K mh))))))))))

theorem ringCfgWrite_mem {s : State} {r : Nat} {v : BitVec 32} (mh : MemInv Q s) : MemInv Q (ringCfgWrite s r v).2 := by
  unfold ringCfgWrite
  exact (MemInv.ite2 (MemInv.ite2 (MemInv.pair2 (MemInv.ite (State.setFld_mem K (State.setFld_mem K (State.setBit_mem K mh))) (MemInv.mk (MemInv.of (State.setBit_mem K (State.setFld_mem K (State.setFld_mem K (State.setBit_mem K mh)))))))) (MemInv.pair2 (cfgReject_mem K (MemInv.ite (State.setFld_mem K (State.setFld_mem K (State.setBit_mem K mh))) (MemInv.mk (MemInv.of (State.setBit_mem K (State.setFld_mem K (State.setFld_mem K (State.setBit_mem K mh)))))))))) (MemInv.ite2 (MemInv.ite2 (MemInv.pair2 (cfgReject_mem K (State.setFld_mem K (State.setFld_mem K (State.setFld_mem K (State.setBit_mem K mh)))))) (MemInv.pair2 (ringEnable_mem K (State.setFld_mem K (State.setFld_mem K (State.setFld_mem K (State.setBit_mem K mh))))))) (MemInv.pair2 (State.setFld_mem K (State.setFld_mem K (State.setFld_mem K (State.setBit_mem K mh)))))))

theorem ringStopped_mem {s : State} {r : Nat} (mh : MemInv Q s) : MemInv Q (ringStopped s r) := by
  unfold ringStopped
  exact (MemInv.ite mh (MemInv.mk (MemInv.of (State.setBit_mem K (hostPut_mem K mh)))))

theorem audWriteBack_mem {s : State} {a : Nat} {start : BitVec 64} {flags count : Nat} (mh : MemInv Q s) : MemInv Q (audWriteBack s a start flags count) := by
  unfold audWriteBack
  exact (ringAdvance_mem K (hostPut_mem K mh))

theorem audCount_mem {s : State} {a : Nat} (mh : MemInv Q s) : MemInv Q (audCount s a) := by
  unfold audCount
  exact (State.count_mem K mh)

theorem audOwed_mem {s : State} {a n : Nat} (h : MemInv Q s) : MemInv Q (audOwed s a n) := by
  induction n generalizing s with
  | zero => exact h
  | succ n ih =>
    unfold audOwed
    split
    · split
      · exact h
      · exact ih (audWriteBack_mem K (putAud_mem K h))
    · exact h

theorem ainClose_mem {s : State} {a : Nat} {interrupted : Bool} (mh : MemInv Q s) : MemInv Q (ainClose s a interrupted) := by
  unfold ainClose
  exact (MemInv.ite (by
    first | (extract_lets; split) | (dsimp only; split) | split
    · exact (audWriteBack_mem K (putAud_mem K mh))
    · exact (putAud_mem K mh)) mh)

theorem ainOpen_mem {s : State} {a : Nat} (mh : MemInv Q s) : MemInv Q (ainOpen s a) := by
  unfold ainOpen
  exact (by
    first | (extract_lets; split) | (dsimp only; split) | split
    · exact (putAud_mem K mh)
    · exact (audOwed_mem K (audCount_mem K (putAud_mem K mh))))

theorem ainStart_mem {s : State} {a : Nat} (mh : MemInv Q s) : MemInv Q (ainStart s a) := by
  unfold ainStart
  exact (MemInv.ite (MemInv.ite (ainOpen_mem K (ainClose_mem K mh)) (putAud_mem K (ainClose_mem K mh))) mh)

theorem ainData_mem {s : State} {a i : Nat} {given : List Byte} (mh : MemInv Q s) : MemInv Q (ainData s a i given).2 := by
  unfold ainData
  exact (MemInv.ite2 (MemInv.ite2 (MemInv.pair2 (ringFail_mem K (hostGet_mem K mh))) (MemInv.pair2 (hostGet_mem K (hostGet_mem K mh)))) (MemInv.pair2 (tagsNote_mem K (tagsNote_mem K mh))))

theorem ainFetch_mem {s : State} {a : Nat} {data : List Byte} (mh : MemInv Q s) : MemInv Q (ainFetch s a data) := by
  unfold ainFetch
  exact (by
    first | (extract_lets; split) | (dsimp only; split) | split
    · exact (MemInv.ite mh (by
      first | (extract_lets; split) | (dsimp only; split) | split
      · exact (putAud_mem K (ainData_mem K mh))
      · exact (ainData_mem K mh)))
    · exact mh)

theorem ainSample_mem {s : State} {a : Nat} (mh : MemInv Q s) : MemInv Q (ainSample s a) := by
  unfold ainSample
  exact (MemInv.ite (MemInv.ite (putAud_mem K (MemInv.foldl mh fun _ _ mh1 => (portWrite_mem K mh1))) (MemInv.foldl mh fun _ _ mh1 => (portWrite_mem K mh1))) mh)

theorem aoutWord_mem {s : State} {a k : Nat} (mh : MemInv Q s) : MemInv Q (aoutWord s a k).2 := by
  unfold aoutWord
  exact (MemInv.pair2 (MemInv.ite (State.count_mem K (State.raise_mem K (MemInv.mk (MemInv.of mh)))) (MemInv.mk (MemInv.of mh))))

theorem aoutSample_mem {s : State} {a : Nat} (mh : MemInv Q s) : MemInv Q (aoutSample s a) := by
  unfold aoutSample
  exact (MemInv.ite (MemInv.ite (putAud_mem K (MemInv.foldl2 (MemInv.pair2 mh) fun _ _ mh1 => (MemInv.pair2 (aoutWord_mem K mh1)))) (putAud_mem K (MemInv.foldl2 (MemInv.pair2 mh) fun _ _ mh1 => (MemInv.pair2 (aoutWord_mem K mh1))))) mh)

theorem aoutPut_mem {s : State} {a : Nat} {e : AudPeriod} {desc : List Byte} (mh : MemInv Q s) : MemInv Q (aoutPut s a e desc) := by
  unfold aoutPut
  exact (MemInv.ite (MemInv.ite (ringFail_mem K (hostGet_mem K mh)) (audWriteBack_mem K (hostPut_mem K (hostGet_mem K mh)))) (putAud_mem K (audCount_mem K mh)))

theorem aoutEnd_mem {s : State} {a : Nat} {desc : List Byte} (mh : MemInv Q s) : MemInv Q (aoutEnd s a desc) := by
  unfold aoutEnd
  exact (by
    first | (extract_lets; split) | (dsimp only; split) | split
    · exact (MemInv.ite mh (audOwed_mem K (aoutPut_mem K (putAud_mem K mh))))
    · exact mh)

theorem audWait_mem {s : State} {a : Nat} (mh : MemInv Q s) : MemInv Q (audWait s a) := by
  unfold audWait
  exact (MemInv.ite mh (MemInv.ite (ainClose_mem K mh) (MemInv.ite (putAud_mem K mh) mh)))

theorem audFrame_mem {s : State} {a : Nat} (mh : MemInv Q s) : MemInv Q (audFrame s a) := by
  unfold audFrame
  exact (MemInv.ite mh (MemInv.ite (putAud_mem K mh) (MemInv.ite (MemInv.ite (putAud_mem K (claimInputs_mem K mh)) (State.setBit_mem K (putAud_mem K (claimInputs_mem K mh)))) (putAud_mem K mh))))

theorem ainRelease_mem {s : State} (mh : MemInv Q s) : MemInv Q (ainRelease s) := by
  unfold ainRelease
  exact (MemInv.foldl mh fun _ _ mh1 => (MemInv.ite mh1 (releaseStall_mem K mh1)))

theorem hostFrame_mem {s : State} {resume : Bool} (mh : MemInv Q s) : MemInv Q (hostFrame s resume) := by
  unfold hostFrame
  exact (MemInv.foldl (MemInv.mk (MemInv.of mh)) fun _ _ mh1 => (audFrame_mem K mh1))

theorem hostWait_mem {s : State} (mh : MemInv Q s) : MemInv Q (hostWait s) := by
  unfold hostWait
  exact (MemInv.mk (MemInv.of (MemInv.foldl mh fun _ _ mh1 => (audWait_mem K mh1))))

theorem hostSample_mem {s : State} (mh : MemInv Q s) : MemInv Q (hostSample s) := by
  unfold hostSample
  exact (MemInv.foldl (MemInv.foldl mh fun _ _ mh1 => (ainSample_mem K (ainStart_mem K mh1))) fun _ _ mh1 => (aoutSample_mem K mh1))

theorem doorbell_mem {s : State} {r : Nat} {v : BitVec 32} {fromCore : Bool} (mh : MemInv Q s) : MemInv Q (doorbell s r v fromCore) := by
  unfold doorbell
  exact (MemInv.ite mh (MemInv.ite (State.event_mem K (State.raise_mem K (State.setBit_mem K mh))) (MemInv.ite (audOwed_mem K (State.setReg_mem K mh)) (State.setReg_mem K mh))))

theorem hostStop_mem {s : State} {why : LinkStop} (mh : MemInv Q s) : MemInv Q (hostStop s why) := by
  unfold hostStop
  extract_lets s1 s2 hs z s3 s4
  have h1 : MemInv Q s1 := MemInv.foldl mh fun _ _ h => ringDetach_mem K (State.setBit_mem K h)
  have h2 : MemInv Q s2 := MemInv.ite h1 (State.setFld_mem K h1)
  clear_value s2
  have h3 : MemInv Q s3 := MemInv.mk (MemInv.of h2)
  clear_value s3
  have h4 : MemInv Q s4 := MemInv.mk (K.regKeep _ (MemInv.of h3))
  split
  · split
    · exact State.raise_mem K h4
    · exact h4
  · exact h3

theorem hostDown_mem {s : State} {why : LinkStop} (mh : MemInv Q s) : MemInv Q (hostDown s why) := by
  unfold hostDown
  exact (State.supEvent_mem K (State.raise_mem K (hostStop_mem K mh)))

theorem execHostLinkDown_mem {why : LinkStop} {s : State} (mh : MemInv Q s) : MemOut Q (execHostLinkDown why s) := by
  unfold execHostLinkDown
  exact (done_mem K (hostDown_mem K mh))

theorem hostConfigure_mem {s : State} {pci : PciSettings} (mh : MemInv Q s) : MemInv Q (hostConfigure s pci) := by
  unfold hostConfigure
  exact (msixUnmask_mem K (MemInv.mk (MemInv.of mh)))

theorem hostLinkUp_mem {s : State} {speed width : BitVec 2} {pci : PciSettings} (mh : MemInv Q s) : MemInv Q (hostLinkUp s speed width pci) := by
  unfold hostLinkUp
  exact (MemInv.ite mh (MemInv.ite (hostConfigure_mem K mh) (hostConfigure_mem K (State.event_mem K (State.setFld_mem K mh)))))

theorem execHostLinkUp_mem {speed width : BitVec 2} {limits : PciLimits} {msixOn funcMask : Bool} {s : State} (mh : MemInv Q s) : MemOut Q (execHostLinkUp speed width limits msixOn funcMask s) := by
  unfold execHostLinkUp
  exact (done_mem K (hostLinkUp_mem K mh))

theorem configWord_mem {s : State} {k : Nat} (mh : MemInv Q s) : MemInv Q (configWord s k).2 := by
  unfold configWord
  exact (by
    first | (extract_lets; split) | (dsimp only; split) | split
    · exact (MemInv.pair2 mh)
    · exact (MemInv.pair2 (State.takeFree_mem K mh)))

theorem aerError_mem {s : State} {k : Nat} (mh : MemInv Q s) : MemInv Q (aerError s k) := by
  unfold aerError
  exact (MemInv.mk (MemInv.of mh))

theorem hostReadFail_mem {s : State} {timeout : Bool} (mh : MemInv Q s) : MemInv Q (hostReadFail s timeout) := by
  unfold hostReadFail
  exact (MemInv.ite (aerError_mem K (State.raise_mem K mh)) (State.raise_mem K mh))

theorem execRingCfgWrite_mem {r : Fin 64} {v : MasterWrite} {s : State} (mh : MemInv Q s) : MemOut Q (execRingCfgWrite r v s) := by
  unfold execRingCfgWrite
  exact (done_mem K (State.asked_mem K mh (ringCfgWrite_mem K mh)))

theorem execRingStopped_mem {r : Fin 64} {s : State} (mh : MemInv Q s) : MemOut Q (execRingStopped r s) := by
  unfold execRingStopped
  exact (done_mem K (ringStopped_mem K mh))

theorem execAinPeriodStart_mem {a : Fin 8} {s : State} (mh : MemInv Q s) : MemOut Q (execAinPeriodStart a s) := by
  unfold execAinPeriodStart
  exact (done_mem K (ainStart_mem K mh))

theorem execAinDescriptorFetch_mem {a : Fin 8} {data : List Byte} {s : State} (mh : MemInv Q s) : MemOut Q (execAinDescriptorFetch a data s) := by
  unfold execAinDescriptorFetch
  exact (done_mem K (ainFetch_mem K mh))

theorem execAoutPeriodEnd_mem {a : Fin 8} {desc : List Byte} {s : State} (mh : MemInv Q s) : MemOut Q (execAoutPeriodEnd a desc s) := by
  unfold execAoutPeriodEnd
  exact (done_mem K (aoutEnd_mem K mh))

theorem execModerationEnd_mem {r : Fin 64} {s : State} (mh : MemInv Q s) : MemOut Q (execModerationEnd r s) := by
  unfold execModerationEnd
  exact (done_mem K (MemInv.ite (MemInv.ite (msixSend_mem K (MemInv.mk (MemInv.of mh))) (MemInv.mk (MemInv.of mh))) mh))

theorem hostCtrlWrite_mem {s : State} {v : BitVec 32} (mh : MemInv Q s) : MemInv Q (hostCtrlWrite s v).2 := by
  unfold hostCtrlWrite
  exact (MemInv.ite2 (MemInv.pair2 (State.setBit_mem K mh)) (MemInv.ite2 (MemInv.pair2 (cfgReject_mem K (State.setBit_mem K mh))) (MemInv.pair2 (State.setBit_mem K (State.setBit_mem K mh)))))

theorem execHostCtrlWrite_mem {v : MasterWrite} {s : State} (mh : MemInv Q s) : MemOut Q (execHostCtrlWrite v s) := by
  unfold execHostCtrlWrite
  exact (done_mem K (State.asked_mem K mh (hostCtrlWrite_mem K mh)))

theorem irqAck_mem {s : State} (mh : MemInv Q s) : MemInv Q (irqAck s) := by
  unfold irqAck
  exact (MemInv.ite (aggSend_mem K mh) mh)

theorem execIrqAck_mem {s : State} (mh : MemInv Q s) : MemOut Q (execIrqAck s) := by
  unfold execIrqAck
  exact (done_mem K (irqAck_mem K mh))

end Sys2Proof.Machine
end

