-- ==== Sys2Proof/Laws/KeepTime.lean ====
section
/-! SUPPORT. The definitions of Machine/Time.lean keep what MemKeeps keeps. -/
namespace Sys2Proof.Machine

variable {Q : List Instr → Cells (BitVec 32) → Cells Word → Cells Byte → Cells (BitVec 32) → Cells (BitVec 2) → Cells (BitVec 2) → Cells Byte → Prop} (K : MemKeeps Q)
include K

set_option linter.unusedSectionVars false

theorem elapse_mem {s : State} {n : Nat} (mh : MemInv Q s) : MemInv Q (elapse s n) := by
  unfold elapse
  exact (MemInv.mk (MemInv.of (rtcPass_mem K (clockPass_mem K mh))))

theorem cmpNote_mem {s : State} {k : Nat} {fired : Bool} (mh : MemInv Q s) : MemInv Q (cmpNote s k fired) := by
  unfold cmpNote
  exact (MemInv.mk (MemInv.of mh))

theorem timeOutput_mem {s : State} {k : Nat} {b : Bool} (mh : MemInv Q s) : MemInv Q (timeOutput s k b) := by
  unfold timeOutput
  exact (pinEdge_mem K (MemInv.mk (MemInv.of mh)))

theorem cmpFire_mem {s : State} {k : Nat} {late : Bool} (mh : MemInv Q s) : MemInv Q (cmpFire s k late) := by
  unfold cmpFire
  exact (cmpNote_mem K (timeOutput_mem K (MemInv.ite (State.raiseIf_mem K (State.raise_mem K mh)) (State.setReg_mem K (State.setReg_mem K (State.raiseIf_mem K (State.raise_mem K mh)))))))

theorem cmpCatch_mem {s : State} {k : Nat} (mh : MemInv Q s) : MemInv Q (cmpCatch s k) := by
  unfold cmpCatch
  exact (MemInv.ite (MemInv.ite (cmpFire_mem K mh) mh) (cmpNote_mem K mh))

theorem timeStepped_mem {s : State} (mh : MemInv Q s) : MemInv Q (timeStepped s) := by
  unfold timeStepped
  exact (MemInv.foldl (MemInv.mk (MemInv.of (State.raise_mem K mh))) fun _ _ mh1 => (cmpCatch_mem K mh1))

theorem timeLoad_mem {s : State} (mh : MemInv Q s) : MemInv Q (timeLoad s) := by
  unfold timeLoad
  exact (timeStepped_mem K (MemInv.mk (MemInv.of mh)))

theorem timeAdd_mem {s : State} (mh : MemInv Q s) : MemInv Q (timeAdd s) := by
  unfold timeAdd
  exact (timeStepped_mem K (MemInv.mk (MemInv.of mh)))

theorem timeSetCmd_mem {s : State} {v : BitVec 32} (mh : MemInv Q s) : MemInv Q (timeSetCmd s v) := by
  unfold timeSetCmd
  exact (MemInv.ite (timeLoad_mem K mh) (MemInv.ite (timeAdd_mem K mh) mh))

theorem timeCapture_mem {s : State} {c : Nat} (mh : MemInv Q s) : MemInv Q (timeCapture s c) := by
  unfold timeCapture
  exact (MemInv.ite (MemInv.mk (MemInv.of (State.raiseIf_mem K (State.raise_mem K (State.setReg_mem K (State.setReg_mem K (State.setReg_mem K mh))))))) mh)

theorem tickCaptures_mem {s : State} {src : Nat} (mh : MemInv Q s) : MemInv Q (tickCaptures s src) := by
  unfold tickCaptures
  exact (MemInv.foldl mh fun _ _ mh1 => (MemInv.ite (timeCapture_mem K mh1) mh1))

theorem timeCapWrite_mem {s : State} {c : Nat} {v : BitVec 32} (mh : MemInv Q s) : MemInv Q (timeCapWrite s c v) := by
  unfold timeCapWrite
  exact (MemInv.ite (State.setReg_mem K (MemInv.ite2 (claimAll_mem K (MemInv.ite (releaseAll_mem K mh) mh)) (MemInv.pair2 (MemInv.ite (releaseAll_mem K mh) mh)))) (State.setBit_mem K (MemInv.ite2 (claimAll_mem K (MemInv.ite (releaseAll_mem K mh) mh)) (MemInv.pair2 (MemInv.ite (releaseAll_mem K mh) mh)))))

theorem timeCmpWrite_mem {s : State} {k : Nat} {v : BitVec 32} (mh : MemInv Q s) : MemInv Q (timeCmpWrite s k v) := by
  unfold timeCmpWrite
  exact (MemInv.ite (MemInv.ite (State.setFld_mem K mh) (MemInv.ite (cmpCatch_mem K (pinEdge_mem K (cmpNote_mem K (State.setBit_mem K (State.setFld_mem K (claimAll_mem K mh)))))) (State.setBit_mem K (claimAll_mem K mh)))) (pinEdge_mem K (State.setBit_mem K (releaseAll_mem K (State.setFld_mem K mh)))))

theorem servoLock_mem {s : State} {e : Int} (mh : MemInv Q s) : MemInv Q (servoLock s e) := by
  unfold servoLock
  exact (MemInv.ite (State.setBit_mem K (MemInv.mk (MemInv.of mh))) (MemInv.ite (State.setBit_mem K (MemInv.mk (MemInv.of mh))) (MemInv.mk (MemInv.of mh))))

theorem servoStep_mem {s : State} {e : Int} (mh : MemInv Q s) : MemInv Q (servoStep s e) := by
  unfold servoStep
  exact (MemInv.ite (MemInv.mk (MemInv.of (State.raise_mem K (servoLock_mem K mh)))) (mncoAdj_mem K (MemInv.mk (MemInv.of (servoLock_mem K mh)))))

theorem cmpTimeWrite_mem {s : State} {k a : Nat} {v : BitVec 32} (mh : MemInv Q s) : MemInv Q (cmpTimeWrite s k a v) := by
  unfold cmpTimeWrite
  exact (cmpNote_mem K (State.setReg_mem K mh))

theorem timeFrame_mem {s : State} {switch aligned : Bool} (mh : MemInv Q s) : MemInv Q (timeFrame s switch aligned) := by
  unfold timeFrame
  exact (MemInv.ite (State.setReg_mem K (State.setReg_mem K (MemInv.mk (MemInv.of mh)))) (MemInv.ite (servoStep_mem K (State.setReg_mem K (State.setReg_mem K (State.setReg_mem K (MemInv.mk (MemInv.of mh)))))) (State.setReg_mem K (State.setReg_mem K (State.setReg_mem K (MemInv.mk (MemInv.of mh)))))))

theorem execTimeLoad_mem {s : State} (mh : MemInv Q s) : MemOut Q (execTimeLoad s) := by
  unfold execTimeLoad
  exact (done_mem K (timeLoad_mem K mh))

theorem execTimeAdd_mem {s : State} (mh : MemInv Q s) : MemOut Q (execTimeAdd s) := by
  unfold execTimeAdd
  exact (done_mem K (timeAdd_mem K mh))

theorem execTimeCapture_mem {c : Fin 4} {cycles : BitVec 64} {s : State} (mh : MemInv Q s) : MemOut Q (execTimeCapture c cycles s) := by
  unfold execTimeCapture
  exact (done_mem K (MemInv.ite (timeCapture_mem K (elapse_mem K mh)) (elapse_mem K mh)))

theorem execTimeCompare_mem {k : Fin 2} {cycles : BitVec 64} {s : State} (mh : MemInv Q s) : MemOut Q (execTimeCompare k cycles s) := by
  unfold execTimeCompare
  exact (done_mem K (MemInv.ite (cmpFire_mem K (elapse_mem K mh)) (elapse_mem K mh)))

theorem execComparePulseEnd_mem {k : Fin 2} {s : State} (mh : MemInv Q s) : MemOut Q (execComparePulseEnd k s) := by
  unfold execComparePulseEnd
  exact (done_mem K (timeOutput_mem K mh))

theorem execTimeCapCfgWrite_mem {cmp : Bool} {c : Fin 4} {v : BitVec 32} {s : State} (mh : MemInv Q s) : MemOut Q (execTimeCapCfgWrite cmp c v s) := by
  unfold execTimeCapCfgWrite
  exact (done_mem K (MemInv.ite (MemInv.ite (timeCmpWrite_mem K mh) mh) (timeCapWrite_mem K mh)))

end Sys2Proof.Machine
end

