-- ==== Sys2Proof/Laws/KeepEth.lean ====
section
/-! SUPPORT. The definitions of Machine/Eth.lean keep what MemKeeps keeps. -/
namespace Sys2Proof.Machine

variable {Q : List Instr → Cells (BitVec 32) → Cells Word → Cells Byte → Cells (BitVec 32) → Cells (BitVec 2) → Cells (BitVec 2) → Cells Byte → Prop} (K : MemKeeps Q)
include K

set_option linter.unusedSectionVars false

theorem putEth_mem {s : State} {p : Nat} {x : EthPort} (mh : MemInv Q s) : MemInv Q (putEth s p x) := by
  unfold putEth
  exact (MemInv.mk (MemInv.of mh))

theorem ethCount_mem {s : State} {p i n : Nat} (mh : MemInv Q s) : MemInv Q (ethCount s p i n) := by
  unfold ethCount
  exact (MemInv.ite (State.raiseAt_mem K (State.count_mem K mh)) (State.count_mem K mh))

theorem ethFlag_mem {s : State} {p k : Nat} (mh : MemInv Q s) : MemInv Q (ethFlag s p k) := by
  unfold ethFlag
  exact (State.raise_mem K mh)

theorem ethPut_mem {s : State} {p a : Nat} {bs : List Byte} (mh : MemInv Q s) : MemInv Q (ethPut s p a bs) := by
  unfold ethPut
  exact (MemInv.ite (by
    first | (extract_lets; split) | (dsimp only; split) | split
    · exact (blockWrite_mem K mh)
    · exact (defaultTarget_mem K mh)) (hostPut_mem K mh))

theorem ethEnable_mem {s : State} {p k : Nat} {on : Bool} (mh : MemInv Q s) : MemInv Q (ethEnable s p k on) := by
  unfold ethEnable
  exact (MemInv.ite mh (MemInv.ite (MemInv.ite (ethFlag_mem K mh) (State.setBit_mem K (claimAll_mem K mh))) (MemInv.ite (MemInv.ite (releaseAll_mem K (State.setBit_mem K mh)) (State.setBit_mem K mh)) (releaseAll_mem K (MemInv.ite (releaseAll_mem K (State.setBit_mem K mh)) (State.setBit_mem K mh))))))

theorem creditsNow_mem {s : State} {p : Nat} (mh : MemInv Q s) : MemInv Q (creditsNow s p) := by
  unfold creditsNow
  exact (putEth_mem K mh)

theorem cbsCheck_mem {s : State} {p : Nat} (mh : MemInv Q s) : MemInv Q (cbsCheck s p) := by
  unfold cbsCheck
  exact (MemInv.foldl mh fun _ _ mh1 => (MemInv.ite (ethFlag_mem K mh1) mh1))

theorem utilStart_mem {s : State} {p : Nat} (mh : MemInv Q s) : MemInv Q (utilStart s p) := by
  unfold utilStart
  exact (putEth_mem K mh)

theorem utilAdd_mem {s : State} {p n : Nat} {rx : Bool} (mh : MemInv Q s) : MemInv Q (utilAdd s p n rx) := by
  unfold utilAdd
  exact (putEth_mem K mh)

theorem stampAdd_mem {s : State} {p : Nat} {e : TxStamp} (mh : MemInv Q s) : MemInv Q (stampAdd s p e).2 := by
  unfold stampAdd
  exact (MemInv.ite2 (MemInv.pair2 (ethFlag_mem K (ethCount_mem K mh))) (MemInv.pair2 (ethFlag_mem K (putEth_mem K mh))))

theorem stampShow_mem {s : State} {p : Nat} (mh : MemInv Q s) : MemInv Q (stampShow s p) := by
  unfold stampShow
  exact (by
    first | (extract_lets; split) | (dsimp only; split) | split
    · exact (State.setReg_mem K (State.setReg_mem K (State.setReg_mem K (State.setReg_mem K (State.setReg_mem K mh)))))
    · exact (State.setReg_mem K (State.setReg_mem K (State.setReg_mem K (State.setReg_mem K (State.setReg_mem K mh))))))

theorem stampPop_mem {s : State} {p : Nat} (mh : MemInv Q s) : MemInv Q (stampPop s p) := by
  unfold stampPop
  exact (stampShow_mem K (putEth_mem K mh))

theorem txWriteBack_mem {s : State} {p q : Nat} {e : TxEntry} {flags cols : Nat} (mh : MemInv Q s) : MemInv Q (txWriteBack s p q e flags cols) := by
  unfold txWriteBack
  exact (MemInv.ite (ringAdvance_mem K (ethPut_mem K mh)) mh)

theorem txFlush_mem {s : State} {p q n : Nat} (h : MemInv Q s) : MemInv Q (txFlush s p q n) := by
  induction n generalizing s with
  | zero => exact h
  | succ n ih =>
    unfold txFlush
    split
    · split
      · exact ih (txWriteBack_mem K (putEth_mem K h))
      · exact h
    · exact h

theorem txQueue_mem {s : State} {p q : Nat} {e : TxEntry} (mh : MemInv Q s) : MemInv Q (txQueue s p q e) := by
  unfold txQueue
  exact (txFlush_mem K (MemInv.ite (putEth_mem K mh) (State.setBit_mem K (putEth_mem K mh))))

theorem txFinish_mem {s : State} {p q flags cols : Nat} {stamp : Option Nat} {abort : Bool} (mh : MemInv Q s) : MemInv Q (txFinish s p q flags cols stamp abort) := by
  unfold txFinish
  exact (by
    first | (extract_lets; split) | (dsimp only; split) | split
    · exact mh
    · exact (MemInv.ite (txFlush_mem K (stampShow_mem K (txWriteBack_mem K (putEth_mem K (by
      first | (extract_lets; split) | (dsimp only; split) | split
      · exact (MemInv.ite2 (stampAdd_mem K mh) (MemInv.pair2 mh))
      · exact (MemInv.pair2 mh)))))) (stampShow_mem K (putEth_mem K (by
      first | (extract_lets; split) | (dsimp only; split) | split
      · exact (MemInv.ite2 (stampAdd_mem K mh) (MemInv.pair2 mh))
      · exact (MemInv.pair2 mh))))))

theorem txEntryOf_mem {s : State} {p q : Nat} {d f : List Byte} (mh : MemInv Q s) : MemInv Q (txEntryOf s p q d f).2 := by
  unfold txEntryOf
  exact (MemInv.ite2 (by
    first | (extract_lets; split) | (dsimp only; split) | split
    · exact (MemInv.ite2 (MemInv.pair2 (ethFlag_mem K (ethCount_mem K mh))) (MemInv.ite2 (MemInv.pair2 (ethCount_mem K mh)) (MemInv.pair2 mh)))
    · exact (MemInv.pair2 (ethFlag_mem K (ethCount_mem K mh)))) (MemInv.ite2 (MemInv.pair2 (ethCount_mem K mh)) (MemInv.ite2 (by
    first | (extract_lets; split) | (dsimp only; split) | split
    · exact (MemInv.pair2 mh)
    · exact (MemInv.pair2 (ethFlag_mem K mh))) (MemInv.pair2 mh))))

theorem txDescriptor_mem {s : State} {p q0 : Nat} {d0 f0 : List Byte} {failed : Bool} (mh : MemInv Q s) : MemInv Q (txDescriptor s p q0 d0 f0 failed) := by
  unfold txDescriptor
  exact (MemInv.ite (MemInv.ite mh (MemInv.ite (ringFail_mem K (hostGet_mem K mh)) (MemInv.ite (txQueue_mem K (ethCount_mem K (hostGet_mem K (hostGet_mem K mh)))) (MemInv.ite mh (txQueue_mem K (creditsNow_mem K (txEntryOf_mem K (hostGet_mem K (hostGet_mem K mh))))))))) mh)

theorem txNote_mem {s : State} {p q : Nat} (mh : MemInv Q s) : MemInv Q (txNote s p q) := by
  unfold txNote
  exact (by
    first | (extract_lets; split) | (dsimp only; split) | split
    · exact (MemInv.ite (ethCount_mem K (putEth_mem K mh)) (putEth_mem K mh))
    · exact mh)

theorem txPurge_mem {s : State} {p q : Nat} (mh : MemInv Q s) : MemInv Q (txPurge s p q) := by
  unfold txPurge
  exact (MemInv.ite (txFlush_mem K (putEth_mem K (ethCount_mem K mh))) mh)

theorem txFrameStart_mem {s0 : State} {p : Nat} {deferred : Bool} {emptied : Option (BitVec 14)} (mh : MemInv Q s0) : MemInv Q (txFrameStart s0 p deferred emptied) := by
  unfold txFrameStart
  exact (MemInv.ite (creditsNow_mem K (MemInv.foldl mh fun _ _ mh1 => (MemInv.ite mh1 (txPurge_mem K mh1)))) (by
    first | (extract_lets; split) | (dsimp only; split) | split
    · exact (putEth_mem K (MemInv.mk (MemInv.of (creditsNow_mem K (MemInv.foldl mh fun _ _ mh1 => (MemInv.ite mh1 (txPurge_mem K mh1)))))))
    · exact (by
      first | (extract_lets; split) | (dsimp only; split) | split
      · exact (creditsNow_mem K (MemInv.foldl mh fun _ _ mh1 => (MemInv.ite mh1 (txPurge_mem K mh1))))
      · exact (by
        first | (extract_lets; split) | (dsimp only; split) | split
        · exact (txFinish_mem K (ethFlag_mem K (ethCount_mem K (putEth_mem K (MemInv.ite (txNote_mem K (MemInv.ite (ethCount_mem K (creditsNow_mem K (MemInv.foldl mh fun _ _ mh1 => (MemInv.ite mh1 (txPurge_mem K mh1))))) (creditsNow_mem K (MemInv.foldl mh fun _ _ mh1 => (MemInv.ite mh1 (txPurge_mem K mh1)))))) (MemInv.ite (ethCount_mem K (creditsNow_mem K (MemInv.foldl mh fun _ _ mh1 => (MemInv.ite mh1 (txPurge_mem K mh1))))) (creditsNow_mem K (MemInv.foldl mh fun _ _ mh1 => (MemInv.ite mh1 (txPurge_mem K mh1))))))))))
        · exact (putEth_mem K (MemInv.ite (txNote_mem K (MemInv.ite (ethCount_mem K (creditsNow_mem K (MemInv.foldl mh fun _ _ mh1 => (MemInv.ite mh1 (txPurge_mem K mh1))))) (creditsNow_mem K (MemInv.foldl mh fun _ _ mh1 => (MemInv.ite mh1 (txPurge_mem K mh1)))))) (MemInv.ite (ethCount_mem K (creditsNow_mem K (MemInv.foldl mh fun _ _ mh1 => (MemInv.ite mh1 (txPurge_mem K mh1))))) (creditsNow_mem K (MemInv.foldl mh fun _ _ mh1 => (MemInv.ite mh1 (txPurge_mem K mh1)))))))))))

theorem countGood_mem {s : State} {p base : Nat} {f : List Byte} (mh : MemInv Q s) : MemInv Q (countGood s p base f) := by
  unfold countGood
  exact (ethCount_mem K (ethCount_mem K (ethCount_mem K (ethCount_mem K mh))))

theorem txFrameEnd_mem {s0 : State} {p : Nat} (mh : MemInv Q s0) : MemInv Q (txFrameEnd s0 p) := by
  unfold txFrameEnd
  exact (by
    first | (extract_lets; split) | (dsimp only; split) | split
    · exact (creditsNow_mem K mh)
    · exact (MemInv.ite (creditsNow_mem K mh) (MemInv.ite (MemInv.ite (ethCount_mem K (countGood_mem K (utilAdd_mem K (putEth_mem K (creditsNow_mem K mh))))) (MemInv.ite (ethCount_mem K (countGood_mem K (utilAdd_mem K (putEth_mem K (creditsNow_mem K mh))))) (countGood_mem K (utilAdd_mem K (putEth_mem K (creditsNow_mem K mh)))))) (txFinish_mem K (MemInv.ite (ethCount_mem K (countGood_mem K (utilAdd_mem K (putEth_mem K (creditsNow_mem K mh))))) (MemInv.ite (ethCount_mem K (countGood_mem K (utilAdd_mem K (putEth_mem K (creditsNow_mem K mh))))) (countGood_mem K (utilAdd_mem K (putEth_mem K (creditsNow_mem K mh))))))))))

theorem txAbort_mem {s : State} {p flags : Nat} {stamp : Bool} (mh : MemInv Q s) : MemInv Q (txAbort s p flags stamp) := by
  unfold txAbort
  exact (by
    first | (extract_lets; split) | (dsimp only; split) | split
    · exact mh
    · exact (MemInv.ite (putEth_mem K mh) (txFinish_mem K (putEth_mem K mh))))

theorem txCollision_mem {s : State} {p : Nat} {late : Bool} (mh : MemInv Q s) : MemInv Q (txCollision s p late) := by
  unfold txCollision
  exact (MemInv.ite mh (MemInv.ite (txAbort_mem K (ethCount_mem K mh)) (MemInv.ite (txAbort_mem K (ethCount_mem K (putEth_mem K mh))) (putEth_mem K (State.takeFree_mem K (putEth_mem K mh))))))

theorem backoffEnd_mem {s : State} {p : Nat} (mh : MemInv Q s) : MemInv Q (backoffEnd s p) := by
  unfold backoffEnd
  exact (MemInv.ite (putEth_mem K mh) mh)

theorem ethLinkDown_mem {s : State} {p : Nat} (mh : MemInv Q s) : MemInv Q (ethLinkDown s p) := by
  unfold ethLinkDown
  exact (MemInv.ite (putEth_mem K (ethFlag_mem K (ethCount_mem K (State.setFld_mem K (txAbort_mem K (MemInv.ite (ethCount_mem K mh) mh)))))) mh)

theorem linksDown_mem {s : State} (mh : MemInv Q s) : MemInv Q (linksDown s) := by
  unfold linksDown
  exact (MemInv.foldl mh fun _ _ mh1 => (ethLinkDown_mem K mh1))

theorem dsRenegotiate_mem {s : State} {p : Nat} {returning : Bool} {l : List DsStep} (mh : MemInv Q s) : MemInv Q (dsRenegotiate s p returning l) := by
  unfold dsRenegotiate
  exact (putEth_mem K (State.setBit_mem K (ethLinkDown_mem K mh)))

theorem downshift_mem {s : State} {p : Nat} (mh : MemInv Q s) : MemInv Q (downshift s p) := by
  unfold downshift
  exact (MemInv.ite mh (MemInv.ite (ethFlag_mem K mh) (dsRenegotiate_mem K (ethCount_mem K mh))))

theorem downshiftReturn_mem {s : State} {p : Nat} (mh : MemInv Q s) : MemInv Q (downshiftReturn s p) := by
  unfold downshiftReturn
  exact (MemInv.ite (dsRenegotiate_mem K mh) mh)

theorem dsReserve_mem {old s : State} {p : Nat} (mh_old : MemInv Q old) (mh_s : MemInv Q s) : MemInv Q (dsReserve old s p) := by
  unfold dsReserve
  exact (MemInv.ite (downshiftReturn_mem K mh_s) mh_s)

theorem dsSettle_mem {s : State} {p speed : Nat} (mh : MemInv Q s) : MemInv Q (dsSettle s p speed) := by
  unfold dsSettle
  exact (MemInv.ite (MemInv.ite (downshiftReturn_mem K (putEth_mem K (State.setBit_mem K mh))) (putEth_mem K (State.setBit_mem K mh))) (State.setBit_mem K mh))

theorem ethLinkUp_mem {s : State} {p speed : Nat} {full : Bool} (mh : MemInv Q s) : MemInv Q (ethLinkUp s p speed full) := by
  unfold ethLinkUp
  exact (MemInv.ite mh (MemInv.ite (ethFlag_mem K (ethLinkDown_mem K mh)) (MemInv.ite (ethLinkDown_mem K mh) (dsSettle_mem K (cbsCheck_mem K (ethFlag_mem K (State.setFld_mem K (utilStart_mem K (creditsNow_mem K mh)))))))))

theorem lpiEntry_mem {s : State} {p : Nat} (mh : MemInv Q s) : MemInv Q (lpiEntry s p) := by
  unfold lpiEntry
  exact (MemInv.ite (ethCount_mem K (State.setBit_mem K mh)) mh)

theorem lpiRx_mem {s : State} {p : Nat} {on : Bool} (mh : MemInv Q s) : MemInv Q (lpiRx s p on) := by
  unfold lpiRx
  exact (MemInv.ite (MemInv.ite (ethCount_mem K (State.setBit_mem K mh)) (State.setBit_mem K mh)) mh)

theorem ethCtrlWrite_mem {s : State} {p : Nat} {v0 : BitVec 32} (mh : MemInv Q s) : MemInv Q (ethCtrlWrite s p v0).2 := by
  unfold ethCtrlWrite
  exact (MemInv.pair2 (MemInv.foldl (MemInv.foldl (MemInv.ite (downshiftReturn_mem K (MemInv.ite (ethFlag_mem K (State.setReg_mem K mh)) (State.setReg_mem K mh))) (MemInv.ite (ethFlag_mem K (State.setReg_mem K mh)) (State.setReg_mem K mh))) fun _ _ mh1 => (MemInv.ite mh1 (ethEnable_mem K mh1))) fun _ _ mh1 => (MemInv.ite (ethEnable_mem K mh1) mh1)))

theorem ethCfgWrite_mem {s : State} {p a : Nat} {m v : BitVec 32} (mh : MemInv Q s) : MemInv Q (ethCfgWrite s p a m v).2 := by
  unfold ethCfgWrite
  exact (MemInv.ite2 (MemInv.pair2 (ethFlag_mem K mh)) (MemInv.ite2 (MemInv.pair2 (ethFlag_mem K mh)) (MemInv.pair2 (dsReserve_mem K mh (State.setReg_mem K mh)))))

theorem cbsWrite_mem {s : State} {p a : Nat} {m v : BitVec 32} (mh : MemInv Q s) : MemInv Q (cbsWrite s p a m v) := by
  unfold cbsWrite
  exact (dsReserve_mem K mh (cbsCheck_mem K (State.setReg_mem K (creditsNow_mem K mh))))

theorem mdioWrite_mem {s : State} {p : Nat} {v : BitVec 32} (mh : MemInv Q s) : MemInv Q (mdioWrite s p v) := by
  unfold mdioWrite
  exact (MemInv.ite mh (MemInv.ite (ethFlag_mem K mh) (putEth_mem K (State.setReg_mem K mh))))

theorem mdioSoftEnd_mem {s : State} {p : Nat} {data : BitVec 16} (mh : MemInv Q s) : MemInv Q (mdioSoftEnd s p data) := by
  unfold mdioSoftEnd
  exact (MemInv.ite (putEth_mem K (MemInv.ite (State.setReg_mem K (State.setBit_mem K mh)) (State.setBit_mem K mh))) mh)

theorem mdioComplete_mem {s : State} {p : Nat} {data : BitVec 16} (mh : MemInv Q s) : MemInv Q (mdioComplete s p data) := by
  unfold mdioComplete
  exact (MemInv.ite mh (by
    first | (extract_lets; split) | (dsimp only; split) | split
    · exact (MemInv.ite (mdioSoftEnd_mem K mh) (putEth_mem K mh))
    · exact (mdioSoftEnd_mem K mh)))

theorem rxDeliver_mem {s : State} {p q : Nat} {f : RxFrame} {d : List Byte} (mh : MemInv Q s) : MemInv Q (rxDeliver s p q f d) := by
  unfold rxDeliver
  exact (ringAdvance_mem K (ethPut_mem K (MemInv.ite (ethCount_mem K mh) (ethPut_mem K mh))))

theorem rxDrain_mem {s : State} {p q : Nat} {l : List (List Byte)} (h : MemInv Q s) : MemInv Q (rxDrain s p q l) := by
  induction l generalizing s with
  | nil => exact h
  | cons d ds ih =>
    unfold rxDrain
    split
    · dsimp only
      split
      · exact h
      · split
        · exact ringFail_mem K (hostGet_mem K h)
        · exact ih (rxDeliver_mem K (putEth_mem K (hostGet_mem K h)))
    · exact h

theorem doorbellRing_mem {s : State} {r : Nat} {v : BitVec 32} {fromCore : Bool} {ds : List (List Byte)} (mh : MemInv Q s) : MemInv Q (doorbellRing s r v fromCore ds) := by
  unfold doorbellRing
  exact (by
    first | (extract_lets; split) | (dsimp only; split) | split
    · exact (MemInv.ite (rxDrain_mem K (doorbell_mem K mh)) (doorbell_mem K mh))
    · exact (doorbell_mem K mh))

theorem rxAccept_mem {s : State} {p q f : Nat} {fr : List Byte} {ds : List (List Byte)} (mh : MemInv Q s) : MemInv Q (rxAccept s p q f fr ds) := by
  unfold rxAccept
  exact (rxDrain_mem K (putEth_mem K mh))

theorem rxFrame_mem {s0 : State} {p : Nat} {fr : List Byte} {align code : Bool} {ds : List (List Byte)} (mh : MemInv Q s0) : MemInv Q (rxFrame s0 p fr align code ds) := by
  unfold rxFrame
  exact (MemInv.ite (MemInv.ite (utilAdd_mem K mh) mh) (MemInv.ite (by
    first | (extract_lets; split) | (dsimp only; split) | split
    · exact (ethCount_mem K (MemInv.ite (utilAdd_mem K mh) mh))
    · exact (MemInv.mk (MemInv.of (countGood_mem K (MemInv.ite (utilAdd_mem K mh) mh))))) (by
    first | (extract_lets; split) | (dsimp only; split) | split
    · exact (MemInv.ite (ethFlag_mem K (ethCount_mem K (MemInv.ite (utilAdd_mem K mh) mh))) (by
      first | (extract_lets; split) | (dsimp only; split) | split
      · exact (ethCount_mem K (MemInv.ite (utilAdd_mem K mh) mh))
      · exact (rxAccept_mem K (countGood_mem K (MemInv.ite (utilAdd_mem K mh) mh)))))
    · exact (by
      first | (extract_lets; split) | (dsimp only; split) | split
      · exact (ethCount_mem K (MemInv.ite (utilAdd_mem K mh) mh))
      · exact (by
        first | (extract_lets; split) | (dsimp only; split) | split
        · exact (MemInv.mk (MemInv.of (ethCount_mem K (countGood_mem K (MemInv.ite (utilAdd_mem K mh) mh)))))
        · exact (ethCount_mem K (countGood_mem K (MemInv.ite (utilAdd_mem K mh) mh)))
        · exact (ethCount_mem K (countGood_mem K (MemInv.ite (utilAdd_mem K mh) mh))))))))

theorem filtWrite_mem {s : State} {p f : Nat} {v : BitVec 32} (mh : MemInv Q s) : MemInv Q (filtWrite s p f v) := by
  unfold filtWrite
  exact (putEth_mem K (State.setReg_mem K mh))

theorem execEthCtrlWrite_mem {p : Fin 3} {v : MasterWrite} {s : State} (mh : MemInv Q s) : MemOut Q (execEthCtrlWrite p v s) := by
  unfold execEthCtrlWrite
  exact (done_mem K (State.asked_mem K mh (ethCtrlWrite_mem K mh)))

theorem execEthMdioCmdWrite_mem {p : Fin 2} {v : BitVec 32} {s : State} (mh : MemInv Q s) : MemOut Q (execEthMdioCmdWrite p v s) := by
  unfold execEthMdioCmdWrite
  exact (done_mem K (mdioWrite_mem K mh))

theorem execMdioComplete_mem {p : Fin 2} {data : BitVec 16} {s : State} (mh : MemInv Q s) : MemOut Q (execMdioComplete p data s) := by
  unfold execMdioComplete
  exact (done_mem K (mdioComplete_mem K mh))

theorem execLinkChange_mem {p : Fin 3} {up : Bool} {speed : BitVec 2} {full : Bool} {s : State} (mh : MemInv Q s) : MemOut Q (execLinkChange p up speed full s) := by
  unfold execLinkChange
  exact (done_mem K (MemInv.ite (ethLinkUp_mem K mh) (ethLinkDown_mem K mh)))

theorem execTxFrameStart_mem {p : Fin 3} {cycles : BitVec 64} {deferred : Bool} {emptied : Option (BitVec 14)} {s : State} (mh : MemInv Q s) : MemOut Q (execTxFrameStart p cycles deferred emptied s) := by
  unfold execTxFrameStart
  exact (done_mem K (txFrameStart_mem K (elapse_mem K mh)))

theorem execTxFrameEnd_mem {p : Fin 3} {cycles : BitVec 64} {s : State} (mh : MemInv Q s) : MemOut Q (execTxFrameEnd p cycles s) := by
  unfold execTxFrameEnd
  exact (done_mem K (txFrameEnd_mem K (elapse_mem K mh)))

theorem execCollision_mem {p : Fin 3} {late : Bool} {s : State} (mh : MemInv Q s) : MemOut Q (execCollision p late s) := by
  unfold execCollision
  exact (done_mem K (txCollision_mem K mh))

theorem execBackoffEnd_mem {p : Fin 3} {s : State} (mh : MemInv Q s) : MemOut Q (execBackoffEnd p s) := by
  unfold execBackoffEnd
  exact (done_mem K (backoffEnd_mem K mh))

theorem execTxDescriptor_mem {p : Fin 3} {q : Fin 8} {desc data : List Byte} {failed : Bool} {s : State} (mh : MemInv Q s) : MemOut Q (execTxDescriptor p q desc data failed s) := by
  unfold execTxDescriptor
  exact (done_mem K (txDescriptor_mem K (MemInv.ite (hostReadFail_mem K mh) mh)))

theorem execRxFrame_mem {p : Fin 3} {frame : List Byte} {align code : Bool} {cycles : BitVec 64} {descs : List (List Byte)} {s : State} (mh : MemInv Q s) : MemOut Q (execRxFrame p frame align code cycles descs s) := by
  unfold execRxFrame
  exact (done_mem K (rxFrame_mem K (elapse_mem K mh)))

theorem execEthFiltCWrite_mem {p : Fin 3} {f : Fin 32} {v : BitVec 32} {s : State} (mh : MemInv Q s) : MemOut Q (execEthFiltCWrite p f v s) := by
  unfold execEthFiltCWrite
  exact (done_mem K (filtWrite_mem K mh))

theorem execTxtsPop_mem {p : Fin 3} {s : State} (mh : MemInv Q s) : MemOut Q (execTxtsPop p s) := by
  unfold execTxtsPop
  exact (done_mem K (stampPop_mem K mh))

theorem execLpiEntry_mem {p : Fin 2} {s : State} (mh : MemInv Q s) : MemOut Q (execLpiEntry p s) := by
  unfold execLpiEntry
  exact (done_mem K (lpiEntry_mem K mh))

theorem execLpiRx_mem {p : Fin 2} {on : Bool} {s : State} (mh : MemInv Q s) : MemOut Q (execLpiRx p on s) := by
  unfold execLpiRx
  exact (done_mem K (lpiRx_mem K mh))

theorem execDownshift_mem {p : Fin 2} {s : State} (mh : MemInv Q s) : MemOut Q (execDownshift p s) := by
  unfold execDownshift
  exact (done_mem K (downshift_mem K mh))

theorem execDownshiftReturn_mem {p : Fin 2} {s : State} (mh : MemInv Q s) : MemOut Q (execDownshiftReturn p s) := by
  unfold execDownshiftReturn
  exact (done_mem K (MemInv.ite (downshiftReturn_mem K mh) mh))

end Sys2Proof.Machine
end

