-- ==== Sys2Proof/Laws/KeepJournal.lean ====
section
/-! SUPPORT. The definitions of Machine/Journal.lean keep what MemKeeps keeps. -/
namespace Sys2Proof.Machine

variable {Q : List Instr → Cells (BitVec 32) → Cells Word → Cells Byte → Cells (BitVec 32) → Cells (BitVec 2) → Cells (BitVec 2) → Cells Byte → Prop} (K : MemKeeps Q)
include K

set_option linter.unusedSectionVars false

theorem journalPut_mem {s : State} {a type seq : Nat} {pa pb : List Byte} (mh : MemInv Q s) : MemInv Q (journalPut s a type seq pa pb) := by
  unfold journalPut
  exact (flashPut_mem K (flashPut_mem K mh))

theorem journalWrite_mem {s : State} {block seq : Nat} {l : List (Nat × List Byte × List Byte)} (h : MemInv Q s) :
    MemInv Q (journalWrite s block seq l) := by
  induction l generalizing s seq with
  | nil => exact h
  | cons x rest ih =>
    unfold journalWrite
    split
    · exact ih (journalPut_mem K h)
    · exact h

theorem journalAppend_mem {s : State} {l : List (Nat × List Byte × List Byte)} (mh : MemInv Q s) : MemInv Q (journalAppend s l) := by
  unfold journalAppend
  exact (MemInv.ite (journalWrite_mem K mh) (flashErase_mem K (journalWrite_mem K (flashErase_mem K mh))))

theorem journalRetire_mem {s : State} {kind phys logical cause : Nat} (mh : MemInv Q s) : MemInv Q (journalRetire s kind phys logical cause) := by
  unfold journalRetire
  exact (journalAppend_mem K mh)

theorem retireUnit_mem {s : State} {kind phys logical cause i : Nat} (mh : MemInv Q s) : MemInv Q (retireUnit s kind phys logical cause i) := by
  unfold retireUnit
  exact (journalRetire_mem K (useSpare_mem K (retiredRecord_mem K mh)))

theorem flashVerifyFailed_mem {s : State} {o : Nat × Bool} (mh : MemInv Q s) : MemInv Q (flashVerifyFailed s o) := by
  unfold flashVerifyFailed
  exact (MemInv.ite (retireUnit_mem K (MemInv.mk (MemInv.of mh))) (MemInv.mk (MemInv.of (State.raise_mem K mh))))

theorem flashDone_mem {s : State} {failed : Bool} (mh : MemInv Q s) : MemInv Q (flashDone s failed) := by
  unfold flashDone
  exact (by
    first | (extract_lets; split) | (dsimp only; split) | split
    · exact mh
    · exact (MemInv.mk (MemInv.of (State.raise_mem K (State.lower_mem K (MemInv.ite (flashVerifyFailed_mem K mh) mh))))))

theorem journalPolicy_mem {s : State} {t : List Byte} (mh : MemInv Q s) : MemInv Q (journalPolicy s t) := by
  unfold journalPolicy
  exact (journalAppend_mem K mh)

theorem journalClear_mem {s : State} (mh : MemInv Q s) : MemInv Q (journalClear s) := by
  unfold journalClear
  exact (journalAppend_mem K mh)

end Sys2Proof.Machine
end

