-- ==== Sys2Proof/Laws/KeepTether.lean ====
section
/-! SUPPORT. The definitions of Machine/Tether.lean keep what MemKeeps keeps. -/
namespace Sys2Proof.Machine

variable {Q : List Instr → Cells (BitVec 32) → Cells Word → Cells Byte → Cells (BitVec 32) → Cells (BitVec 2) → Cells (BitVec 2) → Cells Byte → Prop} (K : MemKeeps Q)
include K

set_option linter.unusedSectionVars false

theorem putTether_mem {s : State} {p : Nat} {x : TetherPort} (mh : MemInv Q s) : MemInv Q (putTether s p x) := by
  unfold putTether
  exact (MemInv.mk (MemInv.of mh))

theorem tetherShow_mem {s : State} {p : Nat} (mh : MemInv Q s) : MemInv Q (tetherShow s p) := by
  unfold tetherShow
  exact (State.setBit_mem K (State.setFld_mem K mh))

theorem tetherSend_mem {s : State} {p : Nat} {m : TetherMsg} (mh : MemInv Q s) : MemInv Q (tetherSend s p m) := by
  unfold tetherSend
  exact (MemInv.ite (putTether_mem K mh) mh)

theorem tetherPortDown_mem {s : State} {p : Nat} (mh : MemInv Q s) : MemInv Q (tetherPortDown s p) := by
  unfold tetherPortDown
  exact (MemInv.ite (tetherShow_mem K (State.setBit_mem K (putTether_mem K mh))) mh)

theorem tetherDown_mem {s : State} (mh : MemInv Q s) : MemInv Q (tetherDown s) := by
  unfold tetherDown
  exact (tetherPortDown_mem K (tetherPortDown_mem K mh))

theorem laneOut_mem {s : State} {p : Nat} {rx : Bool} {lane : Nat} (mh : MemInv Q s) : MemInv Q (laneOut s p rx lane) := by
  unfold laneOut
  exact (MemInv.ite (tetherPortDown_mem K (putTether_mem K mh)) (tetherShow_mem K (putTether_mem K mh)))

theorem laneRetire_mem {s : State} {p : Nat} {rx : Bool} {lane : Nat} (mh : MemInv Q s) : MemInv Q (laneRetire s p rx lane) := by
  unfold laneRetire
  exact (retireUnit_mem K mh)

theorem sendLane_mem {s : State} {p lane : Nat} (mh : MemInv Q s) : MemInv Q (sendLane s p lane) := by
  unfold sendLane
  exact (tetherSend_mem K mh)

theorem laneFail_mem {s : State} {p lane : Nat} (mh : MemInv Q s) : MemInv Q (laneFail s p lane) := by
  unfold laneFail
  exact (MemInv.ite mh (MemInv.ite (by
    first | (extract_lets; split) | (dsimp only; split) | split
    · exact (laneOut_mem K (sendLane_mem K (putTether_mem K (laneRetire_mem K (State.raise_mem K mh)))))
    · exact (putTether_mem K (laneRetire_mem K (State.raise_mem K mh)))) (MemInv.ite (sendLane_mem K (putTether_mem K (laneRetire_mem K (State.raise_mem K mh)))) (laneOut_mem K (sendLane_mem K (laneRetire_mem K (State.raise_mem K mh)))))))

theorem laneNotice_mem {s : State} {p : Nat} {lane : BitVec 2} {frame : BitVec 32} (mh : MemInv Q s) : MemInv Q (laneNotice s p lane frame) := by
  unfold laneNotice
  exact (MemInv.ite mh (MemInv.ite (putTether_mem K (laneRetire_mem K mh)) (laneOut_mem K (laneRetire_mem K mh))))

theorem spareRotate_mem {s : State} {p : Nat} (mh : MemInv Q s) : MemInv Q (spareRotate s p) := by
  unfold spareRotate
  exact (MemInv.ite (putTether_mem K mh) mh)

theorem tetherLinkUp_mem {s : State} {p : Nat} {lanes : BitVec 5} (mh : MemInv Q s) : MemInv Q (tetherLinkUp s p lanes) := by
  unfold tetherLinkUp
  exact (MemInv.ite (by
    first | (extract_lets; split) | (dsimp only; split) | split
    · exact (sendLane_mem K (tetherShow_mem K (State.setBit_mem K (putTether_mem K mh))))
    · exact (tetherShow_mem K (State.setBit_mem K (putTether_mem K mh)))) mh)

theorem swapTether_mem {s : State} {p : Nat} (mh : MemInv Q s) : MemInv Q (swapTether s p) := by
  unfold swapTether
  exact (putTether_mem K mh)

theorem releaseTether_mem {s : State} {p : Nat} {old : Cells (BitVec 32)} (mh : MemInv Q s) : MemInv Q (releaseTether s p old) := by
  unfold releaseTether
  exact (MemInv.foldl mh fun _ _ mh1 => (MemInv.ite (releaseStall_mem K mh1) mh1))

theorem claimTether_mem {s : State} {p : Nat} (mh : MemInv Q s) : MemInv Q (claimTether s p) := by
  unfold claimTether
  exact (MemInv.foldl mh fun _ _ mh1 => (MemInv.ite (MemInv.ite (claimStall_mem K mh1) (putTether_mem K (claimStall_mem K mh1))) mh1))

theorem tetherLine_mem {x : SampleInput} {s : State} {p : Nat} (mh : MemInv Q s) : MemInv Q (tetherLine x s p) := by
  unfold tetherLine
  exact (putTether_mem K mh)

theorem tetherMissing_mem {s : State} {p : Nat} (mh : MemInv Q s) : MemInv Q (tetherMissing s p) := by
  unfold tetherMissing
  exact (MemInv.ite (State.count_mem K mh) (State.count_mem K (State.count_mem K mh)))

theorem tetherRxSample_mem {x : SampleInput} {s0 : State} {p : Nat} (mh : MemInv Q s0) : MemInv Q (tetherRxSample x s0 p) := by
  unfold tetherRxSample
  exact (MemInv.foldl (tetherLine_mem K mh) fun _ _ mh1 => (MemInv.ite (stallWrite_mem K (MemInv.ite (putTether_mem K mh1) (tetherMissing_mem K (putTether_mem K mh1)))) mh1))

theorem tetherTxSample_mem {x : SampleInput} {s : State} {p : Nat} (mh : MemInv Q s) : MemInv Q (tetherTxSample x s p) := by
  unfold tetherTxSample
  exact (MemInv.ite (putTether_mem K mh) (putTether_mem K mh))

theorem tetherAuth_mem {s : State} (mh : MemInv Q s) : MemInv Q (tetherAuth s) := by
  unfold tetherAuth
  exact (by
    first | (extract_lets; split) | (dsimp only; split) | split
    · exact (MemInv.mk (MemInv.of (State.setFld_mem K (State.setFld_mem K (State.setFld_mem K mh)))))
    · exact (MemInv.mk (MemInv.of (State.setFld_mem K (State.setFld_mem K (State.setFld_mem K mh))))))

theorem witnessExpire_mem {s : State} (mh : MemInv Q s) : MemInv Q (witnessExpire s) := by
  unfold witnessExpire
  exact (tetherAuth_mem K (MemInv.mk (MemInv.of mh)))

theorem witnessWrite_mem {s : State} {v : BitVec 32} (mh : MemInv Q s) : MemInv Q (witnessWrite s v) := by
  unfold witnessWrite
  exact (tetherAuth_mem K (MemInv.mk (MemInv.of (State.setReg_mem K mh))))

theorem msgDrop_mem {s : State} (mh : MemInv Q s) : MemInv Q (msgDrop s) := by
  unfold msgDrop
  exact (State.raise_mem K mh)

theorem msgNote_mem {s : State} {k : Nat × Nat} (mh : MemInv Q s) : MemInv Q (msgNote s k) := by
  unfold msgNote
  exact (MemInv.mk (MemInv.of mh))

theorem msgQueue_mem {s : State} {h : BitVec 32} {body : List (BitVec 32)} (mh : MemInv Q s) : MemInv Q (msgQueue s h body) := by
  unfold msgQueue
  exact (MemInv.ite (msgDrop_mem K mh) (MemInv.foldl (MemInv.mk (MemInv.of mh)) fun _ _ mh1 => (MemInv.ite (putTether_mem K mh1) mh1)))

theorem sendReply_mem {s : State} {d ty reason set : Nat} (mh : MemInv Q s) : MemInv Q (sendReply s d ty reason set) := by
  unfold sendReply
  exact (msgQueue_mem K mh)

theorem msgTxWrite_mem {s : State} {header : Bool} {v : BitVec 32} (mh : MemInv Q s) : MemInv Q (msgTxWrite s header v) := by
  unfold msgTxWrite
  exact (by
    first | (extract_lets; split) | (dsimp only; split) | split
    · exact (MemInv.ite (msgQueue_mem K (MemInv.mk (MemInv.of (MemInv.ite (msgDrop_mem K mh) mh)))) (MemInv.mk (MemInv.of (MemInv.ite (msgDrop_mem K mh) mh))))
    · exact (MemInv.ite (msgDrop_mem K mh) mh))

theorem msgRxRead_mem {s : State} (mh : MemInv Q s) : MemInv Q (msgRxRead s).2 := by
  unfold msgRxRead
  exact (by
    first | (extract_lets; split) | (dsimp only; split) | split
    · exact (MemInv.pair2 (MemInv.mk (MemInv.of mh)))
    · exact (MemInv.pair2 (MemInv.mk (MemInv.of mh))))

theorem msgReceive_mem {s : State} {p : Nat} {h : BitVec 32} {body : List (BitVec 32)} (mh : MemInv Q s) : MemInv Q (msgReceive s p h body) := by
  unfold msgReceive
  exact (MemInv.ite mh (MemInv.ite (msgDrop_mem K (msgNote_mem K mh)) (MemInv.ite (MemInv.mk (MemInv.of (MemInv.ite (msgNote_mem K mh) (tetherSend_mem K (msgNote_mem K mh))))) (MemInv.ite (msgDrop_mem K (MemInv.ite (msgNote_mem K mh) (tetherSend_mem K (msgNote_mem K mh)))) (MemInv.ite (msgNote_mem K mh) (tetherSend_mem K (msgNote_mem K mh)))))))

theorem hearDevice_mem {s : State} {p : Nat} {d : BitVec 2} {host relayed : Bool} {m : TetherMsg} (mh : MemInv Q s) : MemInv Q (hearDevice s p d host relayed m) := by
  unfold hearDevice
  exact (MemInv.ite mh (tetherSend_mem K (MemInv.ite (MemInv.mk (MemInv.of (putTether_mem K mh))) (State.setFld_mem K (MemInv.mk (MemInv.of (putTether_mem K mh)))))))

theorem leadNote_mem {s : State} {d : BitVec 2} {c : BitVec 64} (mh : MemInv Q s) : MemInv Q (leadNote s d c) := by
  unfold leadNote
  exact (MemInv.ite (MemInv.mk (MemInv.of mh)) mh)

theorem leadHello_mem {s : State} {d : BitVec 2} {leader : Bool} (mh : MemInv Q s) : MemInv Q (leadHello s d leader) := by
  unfold leadHello
  exact (MemInv.ite (MemInv.mk (MemInv.of mh)) mh)

theorem tetherReceive_mem {s : State} {p : Nat} {m : TetherMsg} {phase : BitVec 32} (mh : MemInv Q s) : MemInv Q (tetherReceive s p m phase) := by
  unfold tetherReceive
  exact (MemInv.ite mh (by
    first | (extract_lets; split) | (dsimp only; split) | split
    · exact (MemInv.ite (leadNote_mem K (hearDevice_mem K mh)) (State.setReg_mem K (putTether_mem K (leadNote_mem K (hearDevice_mem K mh)))))
    · exact (MemInv.ite (leadHello_mem K (hearDevice_mem K mh)) (putTether_mem K (leadHello_mem K (hearDevice_mem K mh))))
    · exact (laneNotice_mem K mh)
    · exact (msgReceive_mem K mh)))

theorem sendHello_mem {s : State} (mh : MemInv Q s) : MemInv Q (sendHello s) := by
  unfold sendHello
  exact (MemInv.ite (tetherSend_mem K (tetherSend_mem K mh)) mh)

theorem syncCtlWrite_mem {s : State} {v : BitVec 32} (mh : MemInv Q s) : MemInv Q (syncCtlWrite s v) := by
  unfold syncCtlWrite
  exact (MemInv.ite (MemInv.ite (MemInv.mk (MemInv.of (State.setReg_mem K mh))) (State.raise_mem K mh)) (State.setReg_mem K mh))

theorem syncSet_mem {armed : Bool} {g : BitVec 4} {s : State} {k : Nat} (mh : MemInv Q s) : MemInv Q (syncSet armed g s k) := by
  unfold syncSet
  exact (MemInv.ite (commitWrite_mem K mh) mh)

theorem syncCommit_mem {s : State} (mh : MemInv Q s) : MemInv Q (syncCommit s) := by
  unfold syncCommit
  exact (by
    first | (extract_lets; split) | (dsimp only; split) | split
    · exact (MemInv.ite (by
      first | (extract_lets; split) | (dsimp only; split) | split
      · exact (MemInv.foldl (MemInv.foldl mh fun _ _ mh1 => (syncSet_mem K mh1)) fun _ _ mh1 => (MemInv.ite (sendReply_mem K mh1) mh1))
      · exact (MemInv.foldl mh fun _ _ mh1 => (syncSet_mem K mh1))) mh)
    · exact mh)

theorem rejoin_mem {s : State} {p : Nat} (mh : MemInv Q s) : MemInv Q (rejoin s p) := by
  unfold rejoin
  exact (MemInv.ite (tetherAuth_mem K (putTether_mem K mh)) mh)

theorem tetherUnmute_mem {s : State} {p : Nat} (mh : MemInv Q s) : MemInv Q (tetherUnmute s p) := by
  unfold tetherUnmute
  exact (MemInv.ite (putTether_mem K mh) mh)

theorem tetherPortFrame_mem {s : State} {p : Nat} (mh : MemInv Q s) : MemInv Q (tetherPortFrame s p) := by
  unfold tetherPortFrame
  exact (tetherShow_mem K (State.raiseIf_mem K (putTether_mem K mh)))

theorem tetherFrame_mem {s : State} (mh : MemInv Q s) : MemInv Q (tetherFrame s) := by
  unfold tetherFrame
  exact (tetherAuth_mem K (tetherSend_mem K (tetherSend_mem K (by
    first | (extract_lets; split) | (dsimp only; split) | split
    · exact (MemInv.ite (MemInv.mk (MemInv.of (tetherUnmute_mem K (tetherUnmute_mem K (tetherPortFrame_mem K (tetherPortFrame_mem K mh)))))) (tetherPortFrame_mem K (tetherPortFrame_mem K mh)))
    · exact (tetherPortFrame_mem K (tetherPortFrame_mem K mh))))))

theorem execTetherHello_mem {s : State} (mh : MemInv Q s) : MemOut Q (execTetherHello s) := by
  unfold execTetherHello
  exact (done_mem K (sendHello_mem K mh))

theorem execTethMsgTxWrite_mem {header : Bool} {v : BitVec 32} {s : State} (mh : MemInv Q s) : MemOut Q (execTethMsgTxWrite header v s) := by
  unfold execTethMsgTxWrite
  exact (done_mem K (msgTxWrite_mem K mh))

theorem execTethMsgRxRead_mem {master : Fin 18} {s : State} (mh : MemInv Q s) : MemOut Q (execTethMsgRxRead master s) := by
  unfold execTethMsgRxRead
  exact (done_mem K (MemInv.mk (MemInv.of (msgRxRead_mem K mh))))

theorem execLaneFail_mem {p : Fin 2} {lane : Fin 5} {s : State} (mh : MemInv Q s) : MemOut Q (execLaneFail p lane s) := by
  unfold execLaneFail
  exact (done_mem K (laneFail_mem K mh))

theorem execLaneMessage_mem {p : Fin 2} {lane : BitVec 2} {frame : BitVec 32} {s : State} (mh : MemInv Q s) : MemOut Q (execLaneMessage p lane frame s) := by
  unfold execLaneMessage
  exact (done_mem K (laneNotice_mem K mh))

theorem execSyncGo_mem {v : BitVec 32} {s : State} (mh : MemInv Q s) : MemOut Q (execSyncGo v s) := by
  unfold execSyncGo
  exact (done_mem K (syncCtlWrite_mem K mh))

theorem execSyncCommit_mem {s : State} (mh : MemInv Q s) : MemOut Q (execSyncCommit s) := by
  unfold execSyncCommit
  exact (done_mem K (syncCommit_mem K mh))

theorem execRejoin_mem {p : Fin 2} {s : State} (mh : MemInv Q s) : MemOut Q (execRejoin p s) := by
  unfold execRejoin
  exact (done_mem K (rejoin_mem K mh))

theorem execTetherLinkUp_mem {p : Fin 2} {lanes : BitVec 5} {s : State} (mh : MemInv Q s) : MemOut Q (execTetherLinkUp p lanes s) := by
  unfold execTetherLinkUp
  exact (done_mem K (tetherLinkUp_mem K mh))

theorem execWitnessExpiry_mem {s : State} (mh : MemInv Q s) : MemOut Q (execWitnessExpiry s) := by
  unfold execWitnessExpiry
  exact (done_mem K (witnessExpire_mem K mh))

theorem execSpareLaneRotate_mem {p : Fin 2} {s : State} (mh : MemInv Q s) : MemOut Q (execSpareLaneRotate p s) := by
  unfold execSpareLaneRotate
  exact (done_mem K (spareRotate_mem K mh))

end Sys2Proof.Machine
end

