-- ==== Sys2Proof/Laws/KeepPower.lean ====
section
/-! SUPPORT. The definitions of Machine/Power.lean keep what MemKeeps keeps. -/
namespace Sys2Proof.Machine

variable {Q : List Instr → Cells (BitVec 32) → Cells Word → Cells Byte → Cells (BitVec 32) → Cells (BitVec 2) → Cells (BitVec 2) → Cells Byte → Prop} (K : MemKeeps Q)
include K

set_option linter.unusedSectionVars false

theorem standbyEnter_mem {s : State} (mh : MemInv Q s) : MemInv Q (standbyEnter s) := by
  unfold standbyEnter
  exact (MemInv.mk (MemInv.of (hostDown_mem K (linksDown_mem K (tetherDown_mem K (portsAcquire_mem K (setCore_mem K (muteLow_mem K mh))))))))

theorem standbyRegister_mem {s : State} (mh : MemInv Q s) : MemInv Q (standbyRegister s) := by
  unfold standbyRegister
  exact (MemInv.ite (standbyEnter_mem K (MemInv.mk (MemInv.of mh))) (State.raise_mem K (MemInv.mk (MemInv.of mh))))

theorem standbyWrite_mem {s : State} {v : BitVec 32} (mh : MemInv Q s) : MemInv Q (standbyWrite s v) := by
  unfold standbyWrite
  exact (MemInv.ite mh (MemInv.ite mh (MemInv.ite (MemInv.mk (MemInv.of mh)) (standbyRegister_mem K mh))))

theorem flashOperationDone_mem {s : State} {failed : Bool} (mh : MemInv Q s) : MemInv Q (flashOperationDone s failed) := by
  unfold flashOperationDone
  exact (MemInv.ite (standbyRegister_mem K (flashDone_mem K mh)) (flashDone_mem K mh))

theorem powerOff_mem {s : State} (mh : MemInv Q s) : MemInv Q (powerOff s) := by
  unfold powerOff
  exact (MemInv.ite (MemInv.mk (MemInv.of mh)) mh)

theorem wakeBy_mem {s : State} {w : BitVec 2} (mh : MemInv Q s) : MemInv Q (wakeBy s w) := by
  unfold wakeBy
  exact (wakeReset_mem K (State.setFld_mem K mh))

theorem rtcAt_mem {s : State} {sec : BitVec 32} (mh : MemInv Q s) : MemInv Q (rtcAt s sec) := by
  unfold rtcAt
  exact (MemInv.mk (MemInv.of mh))

theorem rtcReach_mem {s : State} {w : BitVec 2} (mh : MemInv Q s) : MemInv Q (rtcReach s w) := by
  unfold rtcReach
  exact (MemInv.ite (rtcAt_mem K mh) mh)

theorem wake_mem {s : State} {edge : Option Bool} {timer : Bool} (mh : MemInv Q s) : MemInv Q (wake s edge timer) := by
  unfold wake
  exact (by
    first | (extract_lets; split) | (dsimp only; split) | split
    · exact (MemInv.mk (MemInv.of (rtcReach_mem K mh)))
    · exact (MemInv.ite (MemInv.mk (MemInv.of (rtcReach_mem K mh))) mh)
    · exact (MemInv.ite (wakeBy_mem K (rtcReach_mem K (rtcGap_mem K mh))) mh)
    · exact mh)

theorem rtcWrite_mem {s : State} {v : BitVec 32} (mh : MemInv Q s) : MemInv Q (rtcWrite s v) := by
  unfold rtcWrite
  exact (State.setReg_mem K (rtcAt_mem K mh))

theorem faultPin_mem {s : State} (mh : MemInv Q s) : MemInv Q (faultPin s) := by
  unfold faultPin
  exact (MemInv.mk (MemInv.of mh))

theorem execStbyReq_mem {v : BitVec 32} {s : State} (mh : MemInv Q s) : MemOut Q (execStbyReq v s) := by
  unfold execStbyReq
  exact (done_mem K (standbyWrite_mem K mh))

theorem execPwrOnFall_mem {s : State} (mh : MemInv Q s) : MemOut Q (execPwrOnFall s) := by
  unfold execPwrOnFall
  exact (done_mem K (powerOff_mem K mh))

theorem execWake_mem {edge : Option Bool} {timer : Bool} {s : State} (mh : MemInv Q s) : MemOut Q (execWake edge timer s) := by
  unfold execWake
  exact (done_mem K (wake_mem K mh))

theorem execLatchedWake_mem {s : State} (mh : MemInv Q s) : MemOut Q (execLatchedWake s) := by
  unfold execLatchedWake
  exact (done_mem K (MemInv.ite (wakeBy_mem K (rtcGap_mem K mh)) mh))

theorem execPowerOn_mem {io : BitVec 3} {s : State} (mh : MemInv Q s) : MemOut Q (execPowerOn io s) := by
  unfold execPowerOn
  exact (done_mem K (State.setFld_mem K (powerOnReset_mem K mh)))

theorem execResetN_mem {s : State} (mh : MemInv Q s) : MemOut Q (execResetN s) := by
  unfold execResetN
  exact (done_mem K (warmReset_mem K mh))

theorem execRailFault_mem {s : State} (mh : MemInv Q s) : MemOut Q (execRailFault s) := by
  unfold execRailFault
  exact (done_mem K (warmReset_mem K mh))

theorem execPwrRtcSecWrite_mem {v : BitVec 32} {s : State} (mh : MemInv Q s) : MemOut Q (execPwrRtcSecWrite v s) := by
  unfold execPwrRtcSecWrite
  exact (done_mem K (rtcWrite_mem K mh))

end Sys2Proof.Machine
end

