-- ==== Sys2Proof/Laws/KeepOperands.lean ====
section
/-! SUPPORT. The definitions of Machine/Operands.lean keep what MemKeeps keeps. -/
namespace Sys2Proof.Machine

variable {Q : List Instr → Cells (BitVec 32) → Cells Word → Cells Byte → Cells (BitVec 32) → Cells (BitVec 2) → Cells (BitVec 2) → Cells Byte → Prop} (K : MemKeeps Q)
include K

set_option linter.unusedSectionVars false

theorem rillApply_mem {s : State} {re : Nat} {x : RillFx} (mh : MemInv Q s) : MemInv Q (rillApply s re x) := by
  unfold rillApply
  exact (State.eccEvents_mem K (State.raiseIf_mem K (State.raiseIf_mem K (State.raiseIf_mem K (by
    refine MemInv.mk ?_
    try dsimp only
    exact (K.eccFold (MemInv.of mh)))))))

theorem rexRepeat_mem {s : State} {re : Nat} {l : List Nat} (mh : MemInv Q s) : MemInv Q (rexRepeat s re l) := by
  unfold rexRepeat
  exact (MemInv.ite (by
    refine MemInv.mk ?_
    try dsimp only
    exact (K.eccFold (MemInv.of mh))) mh)

theorem rillStep_mem {re : Fin 16} {f : RillFields} {body : State → Nat → RillEngine → RillFx} {s : State} (h : MemInv Q s) :
    MemInv Q (rillStep re f body s) := by
  unfold rillStep
  extract_lets e x s1 y
  have h1 : MemInv Q s1 := rillApply_mem K h
  clear_value s1
  split
  · split
    · exact rexRepeat_mem K (rillApply_mem K h1)
    · exact rexRepeat_mem K h1
  · exact h

end Sys2Proof.Machine
end

