-- ==== Sys2Proof/Laws/KeepT1s.lean ====
section
/-! SUPPORT. The definitions of Machine/T1s.lean keep what MemKeeps keeps. -/
namespace Sys2Proof.Machine

variable {Q : List Instr → Cells (BitVec 32) → Cells Word → Cells Byte → Cells (BitVec 32) → Cells (BitVec 2) → Cells (BitVec 2) → Cells Byte → Prop} (K : MemKeeps Q)
include K

set_option linter.unusedSectionVars false

theorem t1sEvent_mem {s : State} {i k : Nat} (mh : MemInv Q s) : MemInv Q (t1sEvent s i k) := by
  unfold t1sEvent
  exact (State.raise_mem K (ethCount_mem K mh))

theorem t1sChRetire_mem {s : State} (mh : MemInv Q s) : MemInv Q (t1sChRetire s) := by
  unfold t1sChRetire
  exact (MemInv.foldl mh fun _ _ mh1 => (MemInv.ite (releaseStall_mem K (MemInv.mk (MemInv.of mh1))) mh1))

theorem t1sChApply_mem {s : State} (mh : MemInv Q s) : MemInv Q (t1sChApply s) := by
  unfold t1sChApply
  exact (MemInv.foldl mh fun _ _ mh1 => (MemInv.ite (MemInv.ite (MemInv.mk (MemInv.of (claimStall_mem K mh1))) (State.setBit_mem K (claimStall_mem K mh1))) mh1))

theorem t1sSample_mem {s : State} (mh : MemInv Q s) : MemInv Q (t1sSample s) := by
  unfold t1sSample
  exact (MemInv.foldl mh fun _ _ mh1 => (MemInv.ite (by
    first | (extract_lets; split) | (dsimp only; split) | split
    · exact (portWrite_mem K (freeWord_mem K mh1))
    · exact (portWrite_mem K mh1)) mh1))

theorem t1sTake_mem {s : State} (mh : MemInv Q s) : MemInv Q (t1sTake s) := by
  unfold t1sTake
  exact (MemInv.ite (MemInv.mk (MemInv.of mh)) mh)

theorem t1sRound_mem {line : List Word} {r : List Int × State} {i : Nat} (h : MemInv Q r.2) : MemInv Q (t1sRound line r i).2 := by
  have hf : MemInv Q r.2.takeFree.2 := State.takeFree_mem K h
  unfold t1sRound
  extract_lets w f q
  show MemInv Q (if q.2 then t1sEvent f.2 59 11 else f.2)
  split
  · exact t1sEvent_mem K hf
  · exact hf

theorem t1sEncode_mem {s : State} {c : Nat} (mh : MemInv Q s) : MemInv Q (t1sEncode s c).2 := by
  unfold t1sEncode
  exact (MemInv.foldl2 (MemInv.pair2 (MemInv.foldl2 (MemInv.pair2 mh) fun _ _ mh1 => (t1sRound_mem K mh1))) fun _ _ mh1 => (MemInv.pair2 (State.takeFree_mem K mh1)))

theorem t1sDownlink_mem {s : State} (mh : MemInv Q s) : MemInv Q (t1sDownlink s).2 := by
  unfold t1sDownlink
  exact (MemInv.foldl2 (MemInv.pair2 mh) fun _ _ mh1 => (MemInv.pair2 (t1sEncode_mem K mh1)))

theorem t1sDrop_mem {s : State} (mh : MemInv Q s) : MemInv Q (t1sDrop s) := by
  unfold t1sDrop
  exact (MemInv.ite (putEth_mem K (MemInv.mk (MemInv.of mh))) (MemInv.mk (MemInv.of mh)))

theorem t1sCycle_mem {s0 : State} (mh : MemInv Q s0) : MemInv Q (t1sCycle s0) := by
  unfold t1sCycle
  exact (MemInv.ite (MemInv.mk (MemInv.of (t1sDownlink_mem K (MemInv.ite (MemInv.ite (t1sEvent_mem K (t1sDrop_mem K mh)) (t1sDrop_mem K mh)) (MemInv.foldl (MemInv.ite (t1sEvent_mem K (t1sDrop_mem K mh)) (t1sDrop_mem K mh)) fun _ _ mh1 => (MemInv.ite (t1sEvent_mem K mh1) mh1)))))) mh)

theorem t1sUplink_mem {s : State} (mh : MemInv Q s) : MemInv Q (t1sUplink s) := by
  unfold t1sUplink
  exact (by
    first | (extract_lets; split) | (dsimp only; split) | split
    · exact mh
    · exact (MemInv.ite (MemInv.ite (t1sEvent_mem K (MemInv.mk (MemInv.of mh))) (MemInv.mk (MemInv.of mh))) (ethCount_mem K (MemInv.mk (MemInv.of mh)))))

theorem t1sWait_mem {s0 : State} (mh : MemInv Q s0) : MemInv Q (t1sWait s0) := by
  unfold t1sWait
  exact (MemInv.mk (MemInv.of (t1sDrop_mem K mh)))

theorem execT1sAudioCycle_mem {s : State} (mh : MemInv Q s) : MemOut Q (execT1sAudioCycle s) := by
  unfold execT1sAudioCycle
  exact (done_mem K (t1sCycle_mem K mh))

theorem execT1sUplinkFrame_mem {s : State} (mh : MemInv Q s) : MemOut Q (execT1sUplinkFrame s) := by
  unfold execT1sUplinkFrame
  exact (done_mem K (t1sUplink_mem K mh))

end Sys2Proof.Machine
end

