-- ==== Sys2Proof/Laws/KeepStream.lean ====
section
/-! SUPPORT. The definitions of Machine/Stream.lean keep what MemKeeps keeps. -/
namespace Sys2Proof.Machine

variable {Q : List Instr → Cells (BitVec 32) → Cells Word → Cells Byte → Cells (BitVec 32) → Cells (BitVec 2) → Cells (BitVec 2) → Cells Byte → Prop} (K : MemKeeps Q)
include K

set_option linter.unusedSectionVars false

theorem putStx_mem {s : State} {i : Nat} {x : TxStream} (mh : MemInv Q s) : MemInv Q (putStx s i x) := by
  unfold putStx
  exact (MemInv.mk (MemInv.of mh))

theorem putSrx_mem {s : State} {i : Nat} {x : RxStream} (mh : MemInv Q s) : MemInv Q (putSrx s i x) := by
  unfold putSrx
  exact (MemInv.mk (MemInv.of mh))

theorem setSrxState_mem {s : State} {i v : Nat} (mh : MemInv Q s) : MemInv Q (setSrxState s i v) := by
  unfold setSrxState
  exact (State.setFld_mem K mh)

theorem strReject_mem {s : State} (mh : MemInv Q s) : MemInv Q (strReject s) := by
  unfold strReject
  exact (State.raise_mem K mh)

theorem streamStop_mem {s : State} {rx : Bool} {i : Nat} (mh : MemInv Q s) : MemInv Q (streamStop s rx i) := by
  unfold streamStop
  exact (MemInv.ite (setSrxState_mem K (putSrx_mem K mh)) (putStx_mem K mh))

theorem streamWrite_mem {s : State} {rx : Bool} {i o : Nat} {v : BitVec 32} (mh : MemInv Q s) : MemInv Q (streamWrite s rx i o v).2 := by
  unfold streamWrite
  exact (MemInv.ite2 (MemInv.pair2 mh) (MemInv.ite2 (MemInv.ite2 (MemInv.pair2 (strReject_mem K mh)) (MemInv.pair2 (State.setReg_mem K mh))) (MemInv.ite2 (MemInv.pair2 (MemInv.ite (MemInv.ite mh (strReject_mem K mh)) (streamStop_mem K (State.setBit_mem K (MemInv.ite mh (strReject_mem K mh)))))) (MemInv.ite2 (MemInv.ite2 (MemInv.pair2 (strReject_mem K (State.setReg_mem K mh))) (MemInv.pair2 (State.setBit_mem K (State.setReg_mem K mh)))) (MemInv.pair2 (State.setReg_mem K mh))))))

theorem srxRelease_mem {s : State} (mh : MemInv Q s) : MemInv Q (srxRelease s) := by
  unfold srxRelease
  exact (MemInv.foldl mh fun _ _ mh1 => (MemInv.ite mh1 (releaseStall_mem K mh1)))

theorem srxApply_mem {s : State} {i : Nat} (mh : MemInv Q s) : MemInv Q (srxApply s i) := by
  unfold srxApply
  exact (MemInv.ite (MemInv.ite (setSrxState_mem K (putSrx_mem K (claimInputs_mem K mh))) (State.setBit_mem K (claimInputs_mem K mh))) mh)

theorem stxApply_mem {s : State} {i : Nat} (mh : MemInv Q s) : MemInv Q (stxApply s i) := by
  unfold stxApply
  exact (MemInv.ite (putStx_mem K mh) mh)

theorem streamFrame_mem {s : State} {resume : Bool} (mh : MemInv Q s) : MemInv Q (streamFrame s resume) := by
  unfold streamFrame
  exact (MemInv.foldl (MemInv.foldl (MemInv.ite (MemInv.mk (MemInv.of mh)) mh) fun _ _ mh1 => (srxApply_mem K mh1)) fun _ _ mh1 => (stxApply_mem K mh1))

theorem stxWord_mem {s : State} {i k : Nat} (mh : MemInv Q s) : MemInv Q (stxWord s i k).2 := by
  unfold stxWord
  exact (MemInv.pair2 (MemInv.mk (MemInv.of mh)))

theorem stxSample_mem {s : State} {i : Nat} (mh : MemInv Q s) : MemInv Q (stxSample s i) := by
  unfold stxSample
  exact (MemInv.ite mh (MemInv.ite (putStx_mem K mh) (MemInv.ite (putStx_mem K (MemInv.foldl2 (MemInv.pair2 mh) fun _ _ mh1 => (MemInv.pair2 (stxWord_mem K mh1)))) (putStx_mem K mh))))

theorem stxDrop_mem {s : State} {i : Nat} {m : BitVec 32} (mh : MemInv Q s) : MemInv Q (stxDrop s i m) := by
  unfold stxDrop
  exact (State.raise_mem K (State.count_mem K mh))

theorem stxPacket_mem {s : State} {i : Nat} (mh : MemInv Q s) : MemInv Q (stxPacket s i) := by
  unfold stxPacket
  exact (MemInv.ite (MemInv.ite (stxDrop_mem K (putStx_mem K (yardReadBytes_mem K mh))) (MemInv.ite (stxDrop_mem K (putStx_mem K (yardReadBytes_mem K mh))) (State.count_mem K (txQueue_mem K (creditsNow_mem K (MemInv.ite (ethCount_mem K (putStx_mem K (yardReadBytes_mem K mh))) (putStx_mem K (yardReadBytes_mem K mh)))))))) mh)

theorem srxKeep_mem {s : State} {i : Nat} {m0 : Int} {pay : List Byte} {k : Nat} (mh : MemInv Q s) : MemInv Q (srxKeep s i m0 pay k) := by
  unfold srxKeep
  exact (MemInv.ite mh (MemInv.ite (State.count_mem K mh) (putSrx_mem K mh)))

theorem srxPlace_mem {s : State} {i : Nat} {p : StreamFrame} (mh : MemInv Q s) : MemInv Q (srxPlace s i p) := by
  unfold srxPlace
  exact (MemInv.ite (State.count_mem K mh) (MemInv.ite (State.count_mem K mh) (MemInv.ite (State.count_mem K mh) (MemInv.foldl (MemInv.ite (setSrxState_mem K (putSrx_mem K (MemInv.ite (State.count_mem K mh) mh))) (MemInv.ite (State.count_mem K mh) mh)) fun _ _ mh1 => (srxKeep_mem K mh1)))))

theorem srxPacket_mem {s : State} (mh : MemInv Q s) : MemInv Q (srxPacket s) := by
  unfold srxPacket
  exact (by
    first | (extract_lets; split) | (dsimp only; split) | split
    · exact mh
    · exact (by
      first | (extract_lets; split) | (dsimp only; split) | split
      · exact (State.count_mem K (MemInv.mk (MemInv.of mh)))
      · exact (MemInv.ite (MemInv.mk (MemInv.of mh)) (by
        first | (extract_lets; split) | (dsimp only; split) | split
        · exact (srxPlace_mem K (MemInv.mk (MemInv.of mh)))
        · exact (MemInv.mk (MemInv.of mh))))))

theorem srxSample_mem {s : State} {i : Nat} (mh : MemInv Q s) : MemInv Q (srxSample s i) := by
  unfold srxSample
  exact (MemInv.ite mh (MemInv.ite (MemInv.foldl (setSrxState_mem K (putSrx_mem K mh)) fun _ _ mh1 => (portWrite_mem K mh1)) (MemInv.ite (MemInv.foldl (putSrx_mem K mh) fun _ _ mh1 => (portWrite_mem K mh1)) (MemInv.foldl (State.count_mem K (putSrx_mem K mh)) fun _ _ mh1 => (portWrite_mem K mh1)))))

theorem srxLoss_mem {s : State} {i : Nat} (mh : MemInv Q s) : MemInv Q (srxLoss s i) := by
  unfold srxLoss
  exact (MemInv.ite (setSrxState_mem K (putSrx_mem K mh)) mh)

theorem streamRx_mem {s : State} (mh : MemInv Q s) : MemInv Q (streamRx s) := by
  unfold streamRx
  exact (MemInv.foldl mh fun _ _ mh1 => (srxSample_mem K mh1))

theorem streamTx_mem {s : State} (mh : MemInv Q s) : MemInv Q (streamTx s) := by
  unfold streamTx
  exact (MemInv.foldl mh fun _ _ mh1 => (stxSample_mem K mh1))

theorem streamWait_mem {s : State} (mh : MemInv Q s) : MemInv Q (streamWait s) := by
  unfold streamWait
  exact (MemInv.mk (MemInv.of mh))

theorem execStxCtrlWrite_mem {rx : Bool} {i : Fin 64} {o : Fin 8} {v : MasterWrite} {s : State} (mh : MemInv Q s) : MemOut Q (execStxCtrlWrite rx i o v s) := by
  unfold execStxCtrlWrite
  exact (done_mem K (State.asked_mem K mh (streamWrite_mem K mh)))

theorem execStreamTxPacket_mem {i : Fin 64} {s : State} (mh : MemInv Q s) : MemOut Q (execStreamTxPacket i s) := by
  unfold execStreamTxPacket
  exact (done_mem K (stxPacket_mem K mh))

theorem execStreamRxPacket_mem {s : State} (mh : MemInv Q s) : MemOut Q (execStreamRxPacket s) := by
  unfold execStreamRxPacket
  exact (done_mem K (srxPacket_mem K mh))

theorem execStreamLoss_mem {i : Fin 64} {s : State} (mh : MemInv Q s) : MemOut Q (execStreamLoss i s) := by
  unfold execStreamLoss
  exact (done_mem K (srxLoss_mem K mh))

end Sys2Proof.Machine
end

