-- ==== Sys2Proof/Laws/KeepMode.lean ====
section
/-! SUPPORT. The definitions of Machine/Mode.lean keep what MemKeeps keeps. -/
namespace Sys2Proof.Machine

variable {Q : List Instr → Cells (BitVec 32) → Cells Word → Cells Byte → Cells (BitVec 32) → Cells (BitVec 2) → Cells (BitVec 2) → Cells Byte → Prop} (K : MemKeeps Q)
include K

set_option linter.unusedSectionVars false

theorem putSeq_mem {s : State} {q : ModeSeq} (mh : MemInv Q s) : MemInv Q (putSeq s q) := by
  unfold putSeq
  exact (MemInv.mk (MemInv.of mh))

theorem setBusy_mem {s : State} {b : Bool} (mh : MemInv Q s) : MemInv Q (setBusy s b) := by
  unfold setBusy
  exact (State.setBit_mem K mh)

theorem modeAccept_mem {s : State} {m : BitVec 3} {fam : Bool} {g : BitVec 4} (mh : MemInv Q s) : MemInv Q (modeAccept s m fam g) := by
  unfold modeAccept
  exact (setBusy_mem K (putSeq_mem K mh))

theorem stopNow_mem {s : State} (mh : MemInv Q s) : MemInv Q (stopNow s) := by
  unfold stopNow
  exact (by
    first | (extract_lets; split) | (dsimp only; split) | split
    · exact mh
    · exact (safeNow_mem K mh)
    · exact (MemInv.ite (setBusy_mem K (MemInv.mk (MemInv.of (putSeq_mem K (standbyWrite_mem K mh))))) (standbyWrite_mem K mh)))

theorem stopRequest_mem {s : State} {goal : SeqGoal} (mh : MemInv Q s) : MemInv Q (stopRequest s goal) := by
  unfold stopRequest
  exact (MemInv.ite (stopNow_mem K (setBusy_mem K (MemInv.mk (MemInv.of (MemInv.ite (abortGroup_mem K (MemInv.mk (MemInv.of mh))) (MemInv.mk (MemInv.of mh))))))) (setBusy_mem K (MemInv.mk (MemInv.of (MemInv.ite (abortGroup_mem K (MemInv.mk (MemInv.of mh))) (MemInv.mk (MemInv.of mh)))))))

theorem modeRequest_mem {s : State} {who rule : Nat} {code : BitVec 3} {fam : Bool} {g : BitVec 4} (mh : MemInv Q s) : MemInv Q (modeRequest s who rule code fam g).2 := by
  unfold modeRequest
  exact (MemInv.ite2 (MemInv.ite2 (MemInv.pair2 (modeDecision_mem K mh)) (MemInv.pair2 (stopRequest_mem K (modeDecision_mem K mh)))) (MemInv.ite2 (MemInv.pair2 (modeDecision_mem K mh)) (MemInv.ite2 (MemInv.pair2 (modeAccept_mem K (modeDecision_mem K mh))) (MemInv.pair2 (modeDecision_mem K mh)))))

theorem modeRefuse_mem {s : State} {r : Nat} (mh : MemInv Q s) : MemInv Q (modeRefuse s r) := by
  unfold modeRefuse
  exact (by
    first | (extract_lets; split) | (dsimp only; split) | split
    · exact (MemInv.mk (MemInv.of (putSeq_mem K (abortGroup_mem K (MemInv.mk (MemInv.of (State.event_mem K (modeDecision_mem K mh))))))))
    · exact (setBusy_mem K (putSeq_mem K (abortGroup_mem K (MemInv.mk (MemInv.of (State.event_mem K (modeDecision_mem K mh))))))))

theorem modeTake_mem {s : State} {q : ModeSeq} {now : BitVec 32} (mh : MemInv Q s) : MemInv Q (modeTake s q now) := by
  unfold modeTake
  exact (by
    first | (extract_lets; split) | (dsimp only; split) | split
    · exact (putSeq_mem K (MemInv.mk (MemInv.of mh)))
    · exact (MemInv.ite (putSeq_mem K (MemInv.mk (MemInv.of mh))) mh)
    · exact (MemInv.mk (MemInv.of (msgQueue_mem K mh))))

theorem modeFollow_mem {s : State} {now : BitVec 32} (mh : MemInv Q s) : MemInv Q (modeFollow s now) := by
  unfold modeFollow
  exact (by
    first | (extract_lets; split) | (dsimp only; split) | split
    · exact (MemInv.ite (MemInv.ite (setBusy_mem K (putSeq_mem K (MemInv.mk (MemInv.of mh)))) (MemInv.mk (MemInv.of mh))) mh)
    · exact mh)

theorem modeCutoff_mem {s : State} (mh : MemInv Q s) : MemInv Q (modeCutoff s) := by
  unfold modeCutoff
  exact (MemInv.ite (MemInv.ite (modeTake_mem K mh) (modeRefuse_mem K mh)) (MemInv.ite (modeFollow_mem K mh) mh))

theorem modeMessage_mem {s : State} {h : BitVec 32} {body : List (BitVec 32)} (mh : MemInv Q s) : MemInv Q (modeMessage s h body) := by
  unfold modeMessage
  exact (MemInv.ite (MemInv.ite (sendReply_mem K mh) (MemInv.ite (sendReply_mem K mh) (sendReply_mem K (MemInv.mk (MemInv.of mh))))) (MemInv.ite (modeRefuse_mem K mh) mh))

theorem armSwitch_mem {s : State} {m : BitVec 3} {fam : Bool} (mh : MemInv Q s) : MemInv Q (armSwitch s m fam) := by
  unfold armSwitch
  exact (MemInv.mk (MemInv.of mh))

theorem rampStart_mem {s : State} {q : ModeSeq} (mh : MemInv Q s) : MemInv Q (rampStart s q) := by
  unfold rampStart
  exact (MemInv.mk (MemInv.of (putSeq_mem K mh)))

theorem modeChangeStart_mem {s : State} (mh : MemInv Q s) : MemInv Q (modeChangeStart s) := by
  unfold modeChangeStart
  exact (MemInv.ite (rampStart_mem K (MemInv.ite mh (armSwitch_mem K mh))) mh)

theorem rampUpStart_mem {s : State} (mh : MemInv Q s) : MemInv Q (rampUpStart s) := by
  unfold rampUpStart
  exact (MemInv.ite mh (MemInv.ite (MemInv.mk (MemInv.of (putSeq_mem K mh))) (MemInv.ite (MemInv.mk (MemInv.of mh)) mh)))

theorem modeComplete_mem {s : State} (mh : MemInv Q s) : MemInv Q (modeComplete s) := by
  unfold modeComplete
  exact (MemInv.ite (State.event_mem K (setBusy_mem K (putSeq_mem K mh))) mh)

theorem groupTimeout_mem {s : State} (mh : MemInv Q s) : MemInv Q (groupTimeout s) := by
  unfold groupTimeout
  exact (MemInv.ite (modeRefuse_mem K mh) mh)

theorem masterErr_mem {s : State} (mh : MemInv Q s) : MemInv Q (masterErr s) := by
  unfold masterErr
  exact (State.raise_mem K mh)

theorem tickSwitch_mem {s : State} {v : BitVec 32} {master : Nat} (mh : MemInv Q s) : MemInv Q (tickSwitch s v master).2 := by
  unfold tickSwitch
  exact (MemInv.ite2 (MemInv.pair2 (masterErr_mem K mh)) (MemInv.ite2 (MemInv.pair2 (masterErr_mem K mh)) (MemInv.ite2 (MemInv.pair2 (armSwitch_mem K mh)) (MemInv.ite2 (MemInv.pair2 (setBusy_mem K (putSeq_mem K (armSwitch_mem K mh)))) (MemInv.ite2 (MemInv.pair2 (armSwitch_mem K mh)) (by
    first | (extract_lets; split) | (dsimp only; split) | split
    · exact (MemInv.pair2 (rampStart_mem K (armSwitch_mem K mh)))
    · exact (MemInv.pair2 (putSeq_mem K (armSwitch_mem K mh)))
    · exact (MemInv.pair2 (setBusy_mem K (rampStart_mem K (armSwitch_mem K mh))))))))))

theorem armNamed_mem {s : State} (mh : MemInv Q s) : MemInv Q (armNamed s) := by
  unfold armNamed
  exact (by
    first | (extract_lets; split) | (dsimp only; split) | split
    · exact (MemInv.ite mh (tickSwitch_mem K mh))
    · exact mh)

theorem execTetherMessageReceive_mem {p : Fin 2} {m : TetherMsg} {phase : BitVec 32} {s : State} (mh : MemInv Q s) : MemOut Q (execTetherMessageReceive p m phase s) := by
  unfold execTetherMessageReceive
  exact (done_mem K (by
    first | (extract_lets; split) | (dsimp only; split) | split
    · exact (MemInv.ite (modeMessage_mem K (tetherReceive_mem K mh)) (tetherReceive_mem K mh))
    · exact (tetherReceive_mem K mh)))

theorem execModeChangeStart_mem {s : State} (mh : MemInv Q s) : MemOut Q (execModeChangeStart s) := by
  unfold execModeChangeStart
  exact (done_mem K (modeChangeStart_mem K mh))

theorem execOutputRampUpStart_mem {s : State} (mh : MemInv Q s) : MemOut Q (execOutputRampUpStart s) := by
  unfold execOutputRampUpStart
  exact (done_mem K (rampUpStart_mem K mh))

theorem execModeComplete_mem {s : State} (mh : MemInv Q s) : MemOut Q (execModeComplete s) := by
  unfold execModeComplete
  exact (done_mem K (modeComplete_mem K mh))

theorem execGroupTimeout_mem {s : State} (mh : MemInv Q s) : MemOut Q (execGroupTimeout s) := by
  unfold execGroupTimeout
  exact (done_mem K (groupTimeout_mem K mh))

theorem execTickSwitch_mem {v : BitVec 32} {master : Fin 18} {s : State} (mh : MemInv Q s) : MemOut Q (execTickSwitch v master s) := by
  unfold execTickSwitch
  exact (done_mem K (State.asked_mem K mh (tickSwitch_mem K mh)))

end Sys2Proof.Machine
end

