-- ==== Sys2Proof/Laws/KeepSup.lean ====
section
/-! SUPPORT. The definitions of Machine/Sup.lean keep what MemKeeps keeps. -/
namespace Sys2Proof.Machine

variable {Q : List Instr → Cells (BitVec 32) → Cells Word → Cells Byte → Cells (BitVec 32) → Cells (BitVec 2) → Cells (BitVec 2) → Cells Byte → Prop} (K : MemKeeps Q)
include K

set_option linter.unusedSectionVars false

theorem policyLoad_mem {s : State} {t : List Byte} (mh : MemInv Q s) : MemInv Q (policyLoad s t).2 := by
  unfold policyLoad
  exact (by
    first | (extract_lets; split) | (dsimp only; split) | split
    · exact (MemInv.pair2 mh)
    · exact (MemInv.pair2 (State.event_mem K (supReport_mem K (MemInv.mk (MemInv.of (MemInv.ite (MemInv.ite (journalClear_mem K mh) (journalPolicy_mem K mh)) mh)))))))

theorem policyStart_mem {s : State} (mh : MemInv Q s) : MemInv Q (policyStart s) := by
  unfold policyStart
  exact (by
    first | (extract_lets; split) | (dsimp only; split) | split
    · exact (State.setBit_mem K (State.setFld_mem K (MemInv.mk (MemInv.of mh))))
    · exact (MemInv.mk (MemInv.of mh)))

theorem beamEvents_mem {s : State} {be key : Nat} (mh : MemInv Q s) : MemInv Q (beamEvents s be key) := by
  unfold beamEvents
  exact (State.eccEvents_mem K mh)

theorem putBeams_mem {s : State} {be : Nat} {b : BitVec 6} (mh : MemInv Q s) : MemInv Q (putBeams s be b) := by
  unfold putBeams
  exact (by
    refine MemInv.mk ?_
    try dsimp only
    exact (K.eccFold (MemInv.of (onBasin_mem K (beamEvents_mem K mh)))))

theorem noteBeams_mem {s : State} {be : Nat} (mh : MemInv Q s) : MemInv Q (noteBeams s be) := by
  unfold noteBeams
  exact (MemInv.ite (beamEvents_mem K mh) (MemInv.mk (MemInv.of (beamEvents_mem K mh))))

theorem commitBeams_mem {s : State} {x : Nat × BitVec 6} (mh : MemInv Q s) : MemInv Q (commitBeams s x) := by
  unfold commitBeams
  exact (MemInv.ite mh (MemInv.ite (MemInv.mk (MemInv.of (commitCommand_mem K (putBeams_mem K mh)))) (commitCommand_mem K (putBeams_mem K mh))))

theorem beamsApply_mem {s : State} (mh : MemInv Q s) : MemInv Q (beamsApply s) := by
  unfold beamsApply
  exact (MemInv.foldl (MemInv.foldl mh fun _ _ mh1 => (noteBeams_mem K mh1)) fun _ _ mh1 => (commitBeams_mem K mh1))

theorem capsApply_mem {s : State} (mh : MemInv Q s) : MemInv Q (capsApply s) := by
  unfold capsApply
  exact (beamsApply_mem K (State.setFld_mem K (MemInv.foldl mh fun _ _ mh1 => (MemInv.ite mh1 (MemInv.mk (MemInv.of (State.setFld_mem K mh1)))))))

theorem ruleFire_mem {s : State} {k : Nat} {r : Rule} (mh : MemInv Q s) : MemInv Q (ruleFire s k r) := by
  unfold ruleFire
  exact (MemInv.ite (modeRequest_mem K (State.event_mem K (supReport_mem K mh))) (MemInv.ite (modeRequest_mem K (State.event_mem K (supReport_mem K mh))) (MemInv.ite (modeRequest_mem K (State.event_mem K (supReport_mem K mh))) (State.event_mem K (supReport_mem K mh)))))

theorem setRule_mem {s : State} {k : Nat} {x : RuleState} (mh : MemInv Q s) : MemInv Q (setRule s k x) := by
  unfold setRule
  exact (State.setBit_mem K (MemInv.mk (MemInv.of mh)))

theorem ruleDue_mem {taken : Bool} {s : State} {k : Nat} {r : Rule} {ms : Nat} (mh : MemInv Q s) : MemInv Q (ruleDue taken s k r ms).2 := by
  unfold ruleDue
  exact (MemInv.ite2 (MemInv.pair2 (setRule_mem K mh)) (MemInv.pair2 (ruleFire_mem K (setRule_mem K mh))))

theorem ruleStep_mem {q : Bool × State} {k : Nat} (h : MemInv Q q.2) : MemInv Q (ruleStep q k).2 := by
  unfold ruleStep
  extract_lets s
  split
  · split
    · exact h
    · extract_lets c
      split
      · split
        · split
          · exact ruleDue_mem K h
          · exact setRule_mem K h
        · exact h
      · split
        · split
          · exact ruleDue_mem K h
          · exact setRule_mem K h
        · exact setRule_mem K h
      · split
        · exact setRule_mem K h
        · extract_lets ms s1
          split
          · exact State.event_mem K (supReport_mem K (setRule_mem K h))
          · exact setRule_mem K h
  · exact h

theorem takePolicy_mem {s : State} (mh : MemInv Q s) : MemInv Q (takePolicy s) := by
  unfold takePolicy
  exact (by
    first | (extract_lets; split) | (dsimp only; split) | split
    · exact (State.setReg_mem K (State.setBit_mem K (State.setFld_mem K (MemInv.mk (MemInv.of mh)))))
    · exact mh)

theorem periodStart_mem {s : State} (mh : MemInv Q s) : MemInv Q (periodStart s) := by
  unfold periodStart
  exact (MemInv.mk (MemInv.of mh))

theorem samplePeriod_mem {s : State} {temps : List (BitVec 12)} (mh : MemInv Q s) : MemInv Q (samplePeriod s temps) := by
  unfold samplePeriod
  exact (periodStart_mem K (MemInv.mk (MemInv.of (MemInv.foldl mh fun _ _ mh1 => (MemInv.ite (State.setReg_mem K mh1) mh1)))))

theorem supCtrlWrite_mem {s : State} {v : BitVec 32} (mh : MemInv Q s) : MemInv Q (supCtrlWrite s v) := by
  unfold supCtrlWrite
  exact (MemInv.ite (periodStart_mem K (MemInv.mk (MemInv.of (State.setReg_mem K mh)))) (State.setReg_mem K mh))

theorem evaluate_mem {s : State} {temps : List (BitVec 12)} (h : MemInv Q s) : MemInv Q (evaluate s temps) := by
  have h1 : MemInv Q (takePolicy (samplePeriod s temps)) := takePolicy_mem K (samplePeriod_mem K h)
  unfold evaluate
  split
  · extract_lets s1 s2 s3
    have h2 : MemInv Q s2 := MemInv.foldl2 (f := ruleStep) h1 fun _ _ q => ruleStep_mem K q
    split
    · exact h2
    · split
      · exact h2
      · exact capsApply_mem K h2
  · exact h

theorem supFrame_mem {s : State} (mh : MemInv Q s) : MemInv Q (supFrame s) := by
  unfold supFrame
  exact (MemInv.ite (capsApply_mem K (MemInv.mk (MemInv.of mh))) (MemInv.mk (MemInv.of mh)))

theorem railDroop_mem {s : State} {r : Nat} (mh : MemInv Q s) : MemInv Q (railDroop s r) := by
  unfold railDroop
  exact (MemInv.mk (MemInv.of (State.count_mem K (State.raise_mem K mh))))

theorem execPolicyEvaluation_mem {temps : List (BitVec 12)} {s : State} (mh : MemInv Q s) : MemOut Q (execPolicyEvaluation temps s) := by
  unfold execPolicyEvaluation
  exact (done_mem K (evaluate_mem K mh))

theorem execRailDroop_mem {r : Fin 5} {s : State} (mh : MemInv Q s) : MemOut Q (execRailDroop r s) := by
  unfold execRailDroop
  exact (done_mem K (railDroop_mem K mh))

end Sys2Proof.Machine
end

