-- ==== Sys2Proof/Laws/KeepFarrier.lean ====
section
/-! SUPPORT. The definitions of Machine/Farrier.lean keep what MemKeeps keeps. -/
namespace Sys2Proof.Machine

variable {Q : List Instr → Cells (BitVec 32) → Cells Word → Cells Byte → Cells (BitVec 32) → Cells (BitVec 2) → Cells (BitVec 2) → Cells Byte → Prop} (K : MemKeeps Q)
include K

set_option linter.unusedSectionVars false

theorem setMem_mem {s : State} {x : FarKind} {b : Bool} (mh : MemInv Q s) : MemInv Q (setMem s x b) := by
  unfold setMem
  exact (MemInv.mk (MemInv.of mh))

theorem setCopied_mem {s : State} {x : FarKind} {b : Bool} (mh : MemInv Q s) : MemInv Q (setCopied s x b) := by
  unfold setCopied
  exact (MemInv.mk (MemInv.of mh))

theorem setMove_mem {s : State} {x : FarKind} {m : Option Bool} (mh : MemInv Q s) : MemInv Q (setMove s x m) := by
  unfold setMove
  exact (MemInv.mk (MemInv.of mh))

theorem spareIdle_mem {s : State} {x : FarKind} (mh : MemInv Q s) : MemInv Q (spareIdle s x) := by
  unfold spareIdle
  exact (MemInv.ite (MemInv.mk (MemInv.of mh)) (MemInv.mk (MemInv.of mh)))

theorem farPark_mem {s : State} {x : FarKind} (mh : MemInv Q s) : MemInv Q (farPark s x) := by
  unfold farPark
  exact (setCopied_mem K (State.setBit_mem K (State.setFld_mem K (spareIdle_mem K mh))))

theorem farStart_mem {s : State} {x : FarKind} {r : Nat} (mh : MemInv Q s) : MemInv Q (farStart s x r) := by
  unfold farStart
  exact (MemInv.ite (State.setBit_mem K (State.setFld_mem K (setMem_mem K (setCopied_mem K (State.setFld_mem K (MemInv.mk (MemInv.of mh))))))) (State.setFld_mem K (setMem_mem K (setCopied_mem K (State.setFld_mem K (MemInv.mk (MemInv.of mh)))))))

theorem farSkip_mem {s : State} {x : FarKind} {cause : Nat} (mh : MemInv Q s) : MemInv Q (farSkip s x cause) := by
  unfold farSkip
  exact (State.event_mem K (State.raise_mem K (farPark_mem K mh)))

theorem shadowRotate_mem {s : State} {x : FarKind} (mh : MemInv Q s) : MemInv Q (shadowRotate s x) := by
  unfold shadowRotate
  exact (MemInv.ite mh (MemInv.ite (farPark_mem K mh) (by
    first | (extract_lets; split) | (dsimp only; split) | split
    · exact (farStart_mem K mh)
    · exact (farPark_mem K mh))))

theorem copyStagedRegs_mem {s : State} {x : FarKind} {r : Nat} (mh : MemInv Q s) : MemInv Q (copyStagedRegs s x r) := by
  unfold copyStagedRegs
  exact (MemInv.foldl mh fun _ _ mh1 => (State.setReg_mem K mh1))

theorem freshWindow_mem {s : State} {a n : Nat} (mh : MemInv Q s) : MemInv Q (freshWindow s a n) := by
  unfold freshWindow
  exact (by
    refine MemInv.mk ?_
    try dsimp only
    exact (K.eccKeep _ (MemInv.of mh)))

theorem windowEvents_mem {s : State} {site : EccSite} {a n : Nat} {loc : Nat → Nat} (mh : MemInv Q s) : MemInv Q (windowEvents s site a n loc) := by
  unfold windowEvents
  exact (MemInv.foldl mh fun _ _ mh1 => (State.eccEvent_mem K mh1))

theorem copyMemories_mem {s : State} {x : FarKind} {r : Nat} (mh : MemInv Q s) : MemInv Q (copyMemories s x r) := by
  unfold copyMemories
  exact (copyStagedRegs_mem K (MemInv.ite (freshWindow_mem K (MemInv.mk (MemInv.of (windowEvents_mem K mh)))) (freshWindow_mem K (MemInv.mk (MemInv.of (windowEvents_mem K mh))))))

theorem shadowCopyEnd_mem {s : State} {x : FarKind} (mh : MemInv Q s) : MemInv Q (shadowCopyEnd s x) := by
  unfold shadowCopyEnd
  exact (MemInv.ite (MemInv.ite (setCopied_mem K (MemInv.ite mh (setMem_mem K (copyMemories_mem K mh)))) (MemInv.ite mh (setMem_mem K (copyMemories_mem K mh)))) mh)

theorem basinSkipped_mem {s : State} (mh : MemInv Q s) : MemInv Q (basinSkipped s) := by
  unfold basinSkipped
  exact (MemInv.ite (farSkip_mem K mh) mh)

theorem lockstepStart_mem {s : State} {x : FarKind} (mh : MemInv Q s) : MemInv Q (lockstepStart s x) := by
  unfold lockstepStart
  exact (setCopied_mem K (State.setFld_mem K (MemInv.ite (MemInv.mk (MemInv.of mh)) (MemInv.mk (MemInv.of mh)))))

theorem farMismatch_mem {s : State} {x : FarKind} {what : Nat} (mh : MemInv Q s) : MemInv Q (farMismatch s x what) := by
  unfold farMismatch
  exact (State.event_mem K (State.setFld_mem K (State.count_mem K (State.raise_mem K mh))))

theorem farDiffer_mem {s : State} {x : FarKind} {what : Nat} (mh : MemInv Q s) : MemInv Q (farDiffer s x what) := by
  unfold farDiffer
  exact (MemInv.ite (farMismatch_mem K mh) (MemInv.ite (State.count_mem K mh) mh))

theorem farCompare_mem {s : State} (mh : MemInv Q s) : MemInv Q (farCompare s) := by
  unfold farCompare
  exact (MemInv.ite (farDiffer_mem K mh) mh)

theorem sigCompare_mem {s : State} {i : Nat} (mh : MemInv Q s) : MemInv Q (sigCompare s i) := by
  unfold sigCompare
  exact (MemInv.ite (farDiffer_mem K mh) mh)

theorem farRetire_mem {s : State} {x : FarKind} {p logical : Nat} (mh : MemInv Q s) : MemInv Q (farRetire s x p logical) := by
  unfold farRetire
  exact (retireUnit_mem K (State.raise_mem K mh))

theorem farRetireActive_mem {s : State} {x : FarKind} {p logical : Nat} (mh : MemInv Q s) : MemInv Q (farRetireActive s x p logical) := by
  unfold farRetireActive
  exact (journalRetire_mem K (retiredRecord_mem K (State.raise_mem K mh)))

theorem bistNote_mem {s : State} {kind a b : Nat} {act spare : Bool} (mh : MemInv Q s) : MemInv Q (bistNote s kind a b act spare) := by
  unfold bistNote
  exact (State.event_mem K (State.raiseIf_mem K (State.setReg_mem K mh)))

theorem bistRecord_mem {s : State} {x : FarKind} {act spare : Bool} (mh : MemInv Q s) : MemInv Q (bistRecord s x act spare) := by
  unfold bistRecord
  exact (bistNote_mem K mh)

theorem bistEnd_mem {s : State} {x : FarKind} {act spare : Bool} (mh : MemInv Q s) : MemInv Q (bistEnd s x act spare) := by
  unfold bistEnd
  exact (MemInv.ite mh (MemInv.ite (by
    first | (extract_lets; split) | (dsimp only; split) | split
    · exact (setMove_mem K (bistRecord_mem K mh))
    · exact (farPark_mem K (farRetire_mem K (bistRecord_mem K mh)))
    · exact (setMove_mem K (farRetire_mem K (bistRecord_mem K mh)))
    · exact (farStart_mem K (State.event_mem K (State.count_mem K (bistRecord_mem K mh))))) (MemInv.ite (farPark_mem K (bistRecord_mem K mh)) (setMove_mem K (bistRecord_mem K mh)))))

theorem moveWindow_mem {s : State} {a b n : Nat} (mh : MemInv Q s) : MemInv Q (moveWindow s a b n) := by
  unfold moveWindow
  exact (moveMarks_mem K (moveMarks_mem K mh))

theorem rillTakes_mem {s : State} {r : Nat} (mh : MemInv Q s) : MemInv Q (rillTakes s r) := by
  unfold rillTakes
  exact (MemInv.mk (MemInv.of (moveWindow_mem K mh)))

theorem basinTakes_mem {s : State} {r : Nat} {inStep : Bool} (mh : MemInv Q s) : MemInv Q (basinTakes s r inStep) := by
  unfold basinTakes
  exact (MemInv.ite (MemInv.mk (MemInv.of (moveWindow_mem K mh))) (MemInv.mk (MemInv.of (freshWindow_mem K (freshWindow_mem K (windowEvents_mem K mh))))))

theorem farTakeover_mem {s : State} {x : FarKind} {r : Nat} (mh : MemInv Q s) : MemInv Q (farTakeover s x r) := by
  unfold farTakeover
  exact (farPark_mem K (setMove_mem K (MemInv.ite (rillTakes_mem K (farRetire_mem K (State.event_mem K (State.raise_mem K (State.setFld_mem K mh))))) (basinTakes_mem K (farRetire_mem K (State.event_mem K (State.raise_mem K (State.setFld_mem K mh))))))))

theorem farLose_mem {s : State} {x : FarKind} {r : Nat} (mh : MemInv Q s) : MemInv Q (farLose s x r) := by
  unfold farLose
  exact (farPark_mem K (setMove_mem K (State.event_mem K (State.raise_mem K (MemInv.ite (MemInv.mk (MemInv.of (farRetireActive_mem K (State.setBit_mem K mh)))) (MemInv.mk (MemInv.of (farRetireActive_mem K (State.setBit_mem K mh)))))))))

theorem laneNext_mem {s : State} {be : Nat} (mh : MemInv Q s) : MemInv Q (laneNext s be) := by
  unfold laneNext
  exact (State.setFld_mem K (State.setFld_mem K (MemInv.mk (MemInv.of mh))))

theorem laneDiffers_mem {s : State} {be : Nat} {pass : Bool} (mh : MemInv Q s) : MemInv Q (laneDiffers s be pass) := by
  unfold laneDiffers
  exact (bistNote_mem K (State.event_mem K (State.count_mem K (State.raise_mem K mh))))

theorem laneShadow_mem {s : State} {be : Nat} {check : LaneCheck} (mh : MemInv Q s) : MemInv Q (laneShadow s be check) := by
  unfold laneShadow
  exact (MemInv.ite mh (by
    first | (extract_lets; split) | (dsimp only; split) | split
    · exact (MemInv.ite mh (laneNext_mem K mh))
    · exact (MemInv.ite mh (laneNext_mem K (laneDiffers_mem K mh)))
    · exact (MemInv.ite (MemInv.mk (MemInv.of (laneDiffers_mem K mh))) (MemInv.ite (laneDiffers_mem K mh) (MemInv.mk (MemInv.of (laneDiffers_mem K mh)))))))

theorem laneRemap_mem {s : State} {m : Nat × Nat} (mh : MemInv Q s) : MemInv Q (laneRemap s m) := by
  unfold laneRemap
  exact (retireUnit_mem K (State.setFld_mem K mh))

theorem bankForget_mem {s : State} {b : Nat} (mh : MemInv Q s) : MemInv Q (bankForget s b) := by
  unfold bankForget
  exact (MemInv.mk (MemInv.of mh))

theorem bankTurn_mem {s : State} {b cause : Nat} (mh : MemInv Q s) : MemInv Q (bankTurn s b cause) := by
  unfold bankTurn
  exact (MemInv.ite (MemInv.ite mh (MemInv.ite (MemInv.ite (dutySafe_mem K (bankForget_mem K mh)) (bankForget_mem K mh)) (MemInv.mk (MemInv.of (State.event_mem K (State.count_mem K (State.raise_mem K (bankForget_mem K mh)))))))) (MemInv.ite mh (MemInv.ite (MemInv.ite mh (MemInv.mk (MemInv.of mh))) (State.setBit_mem K (bankForget_mem K mh)))))

theorem bankMigrate_mem {s : State} {b cause : Nat} (mh : MemInv Q s) : MemInv Q (bankMigrate s b cause) := by
  unfold bankMigrate
  exact (MemInv.ite (bankTurn_mem K mh) mh)

theorem bankTurns_mem {s : State} (mh : MemInv Q s) : MemInv Q (bankTurns s) := by
  unfold bankTurns
  exact (MemInv.foldl (MemInv.mk (MemInv.of mh)) fun _ _ mh1 => (bankTurn_mem K mh1))

theorem bankRequest_mem {s : State} {v : BitVec 32} (mh : MemInv Q s) : MemInv Q (bankRequest s v) := by
  unfold bankRequest
  exact (MemInv.ite (bankMigrate_mem K (State.setFld_mem K mh)) (State.setFld_mem K mh))

theorem bankCopied_mem {s : State} {b : Nat} (mh : MemInv Q s) : MemInv Q (bankCopied s b) := by
  unfold bankCopied
  exact (MemInv.foldl mh fun _ _ mh1 => (yardPut_mem K (yardEcc_mem K mh1)))

theorem bankRemap_mem {s : State} {b : Nat} (mh : MemInv Q s) : MemInv Q (bankRemap s b) := by
  unfold bankRemap
  extract_lets old p s1 log
  have h1 : MemInv Q s1 := retireUnit_mem K (State.setReg_mem K mh)
  clear_value s1
  exact bankTurns_mem K (MemInv.mk (K.eccKeep _ (MemInv.of h1)))

theorem bankCopyEnd_mem {s : State} {b : Nat} (mh : MemInv Q s) : MemInv Q (bankCopyEnd s b) := by
  unfold bankCopyEnd
  exact (MemInv.ite (MemInv.ite (MemInv.mk (MemInv.of (bankCopied_mem K mh))) (bankRemap_mem K (bankCopied_mem K mh))) mh)

theorem shadowFrame_mem {s : State} {x : FarKind} {hold : Bool} (mh : MemInv Q s) : MemInv Q (shadowFrame s x hold) := by
  unfold shadowFrame
  exact (MemInv.ite mh (MemInv.ite (farPark_mem K mh) (MemInv.ite (farSkip_mem K mh) (MemInv.ite (farSkip_mem K mh) (MemInv.ite (lockstepStart_mem K mh) mh)))))

theorem moveFrame_mem {s : State} {x : FarKind} {hold : Bool} (mh : MemInv Q s) : MemInv Q (moveFrame s x hold) := by
  unfold moveFrame
  exact (by
    first | (extract_lets; split) | (dsimp only; split) | split
    · exact (farTakeover_mem K mh)
    · exact (farLose_mem K mh)
    · exact mh)

theorem engineMoveOne_mem {hold : Bool} {s : State} {be : Nat} (mh : MemInv Q s) : MemInv Q (engineMoveOne hold s be) := by
  unfold engineMoveOne
  exact (MemInv.ite (farLose_mem K mh) (MemInv.ite (MemInv.mk (MemInv.of mh)) (farTakeover_mem K mh)))

theorem engineMoves_mem {s : State} {moved : Option Nat} {hold : Bool} (mh : MemInv Q s) : MemInv Q (engineMoves s moved hold) := by
  unfold engineMoves
  exact (MemInv.ite mh (MemInv.foldl (MemInv.mk (MemInv.of mh)) fun _ _ mh1 => (engineMoveOne_mem K mh1)))

theorem farFrame_mem {s : State} (mh : MemInv Q s) : MemInv Q (farFrame s) := by
  unfold farFrame
  exact (shadowFrame_mem K (shadowFrame_mem K (by
    first | (extract_lets; split) | (dsimp only; split) | split
    · exact (bankRemap_mem K (MemInv.mk (MemInv.of (MemInv.foldl (MemInv.mk (MemInv.of (engineMoves_mem K (moveFrame_mem K (moveFrame_mem K mh))))) fun _ _ mh1 => (laneRemap_mem K mh1)))))
    · exact (MemInv.mk (MemInv.of (MemInv.foldl (MemInv.mk (MemInv.of (engineMoves_mem K (moveFrame_mem K (moveFrame_mem K mh))))) fun _ _ mh1 => (laneRemap_mem K mh1)))))))

theorem initEngine_mem {s : State} {x : FarKind} {u : Nat} (mh : MemInv Q s) : MemInv Q (initEngine s x u) := by
  unfold initEngine
  exact (MemInv.ite mh (by
    first | (extract_lets; split) | (dsimp only; split) | split
    · exact (useSpare_mem K (State.raise_mem K mh))
    · exact (MemInv.ite (useSpare_mem K (State.setFld_mem K (State.raise_mem K mh))) (State.setBit_mem K (State.raise_mem K mh)))))

theorem initLane_mem {s : State} {u : Nat} (mh : MemInv Q s) : MemInv Q (initLane s u) := by
  unfold initLane
  exact (MemInv.ite mh (MemInv.ite (putTether_mem K mh) (useSpare_mem K (putTether_mem K mh))))

theorem initUnit_mem {s : State} {kind u : Nat} (mh : MemInv Q s) : MemInv Q (initUnit s kind u) := by
  unfold initUnit
  exact (MemInv.ite (initEngine_mem K mh) (MemInv.ite (initEngine_mem K mh) (MemInv.ite (MemInv.ite mh (useSpare_mem K (State.setFld_mem K mh))) (MemInv.ite (MemInv.ite mh (useSpare_mem K (State.setReg_mem K mh))) (MemInv.ite (useSpare_mem K mh) (MemInv.ite (initLane_mem K mh) mh))))))

theorem farInit_mem {s : State} {v : BitVec 32} (mh : MemInv Q s) : MemInv Q (farInit s v) := by
  unfold farInit
  exact (MemInv.ite mh (initUnit_mem K (MemInv.mk (MemInv.of mh))))

theorem policyOnce_mem {s : State} (mh : MemInv Q s) : MemInv Q (policyOnce s) := by
  unfold policyOnce
  exact (MemInv.ite (policyStart_mem K (MemInv.ite mh (MemInv.foldl mh fun _ _ mh1 => (initUnit_mem K mh1)))) mh)

theorem startedWrite_mem {s : State} (mh : MemInv Q s) : MemInv Q (startedWrite s) := by
  unfold startedWrite
  exact (policyOnce_mem K (bootStart_mem K mh))

theorem execBootStarted_mem {s : State} (mh : MemInv Q s) : MemOut Q (execBootStarted s) := by
  unfold execBootStarted
  exact (done_mem K (startedWrite_mem K mh))

theorem execShadowRotate_mem {basin : Bool} {s : State} (mh : MemInv Q s) : MemOut Q (execShadowRotate basin s) := by
  unfold execShadowRotate
  exact (done_mem K (shadowRotate_mem K mh))

theorem execShadowCopyEnd_mem {basin : Bool} {s : State} (mh : MemInv Q s) : MemOut Q (execShadowCopyEnd basin s) := by
  unfold execShadowCopyEnd
  exact (done_mem K (shadowCopyEnd_mem K mh))

theorem execSkipped_mem {s : State} (mh : MemInv Q s) : MemOut Q (execSkipped s) := by
  unfold execSkipped
  exact (done_mem K (basinSkipped_mem K mh))

theorem execBistEnd_mem {basin activePass sparePass : Bool} {s : State} (mh : MemInv Q s) : MemOut Q (execBistEnd basin activePass sparePass s) := by
  unfold execBistEnd
  exact (done_mem K (bistEnd_mem K mh))

theorem execLaneShadow_mem {be : Fin 8} {check : LaneCheck} {s : State} (mh : MemInv Q s) : MemOut Q (execLaneShadow be check s) := by
  unfold execLaneShadow
  exact (done_mem K (laneShadow_mem K mh))

theorem execBankMigrationStart_mem {b : Fin 32} {cause : Fin 3} {s : State} (mh : MemInv Q s) : MemOut Q (execBankMigrationStart b cause s) := by
  unfold execBankMigrationStart
  exact (done_mem K (bankMigrate_mem K mh))

theorem execBankRemap_mem {b : Fin 32} {s : State} (mh : MemInv Q s) : MemOut Q (execBankRemap b s) := by
  unfold execBankRemap
  exact (done_mem K (bankCopyEnd_mem K mh))

theorem execFarApply_mem {v : BitVec 32} {s : State} (mh : MemInv Q s) : MemOut Q (execFarApply v s) := by
  unfold execFarApply
  exact (done_mem K (farInit_mem K mh))

end Sys2Proof.Machine
end

