-- ==== Sys2Proof/Laws/KeepRegFile.lean ====
section
/-! SUPPORT. The definitions of Machine/RegFile.lean keep what MemKeeps keeps. -/
namespace Sys2Proof.Machine

variable {Q : List Instr → Cells (BitVec 32) → Cells Word → Cells Byte → Cells (BitVec 32) → Cells (BitVec 2) → Cells (BitVec 2) → Cells Byte → Prop} (K : MemKeeps Q)
include K

set_option linter.unusedSectionVars false

theorem regRead_mem {s : State} {a : Nat} (mh : MemInv Q s) : MemInv Q (regRead s a).2 := by
  unfold regRead
  exact (by
    first | (extract_lets; split) | (dsimp only; split) | split
    · exact (MemInv.ite2 (MemInv.pair2 (State.setReg_mem K mh)) (MemInv.pair2 mh))
    · exact (MemInv.ite2 (MemInv.pair2 (State.setReg_mem K mh)) (MemInv.ite2 (MemInv.pair2 (State.setReg_mem K mh)) (MemInv.pair2 mh)))
    · exact (MemInv.ite2 (MemInv.pair2 (State.setReg_mem K mh)) (MemInv.pair2 mh))
    · exact (MemInv.ite2 (MemInv.pair2 (State.setReg_mem K mh)) (MemInv.pair2 mh))
    · exact (MemInv.ite2 (MemInv.pair2 (State.setReg_mem K (State.setReg_mem K mh))) (by
      first | (extract_lets; split) | (dsimp only; split) | split
      · exact (MemInv.pair2 (MemInv.mk (MemInv.of mh)))
      · exact (MemInv.pair2 mh)))
    · exact (MemInv.ite2 (MemInv.pair2 (State.takeFree_mem K mh)) (MemInv.pair2 mh))
    · exact (MemInv.ite2 (cspPop_mem K mh) (MemInv.pair2 mh))
    · exact (MemInv.ite2 (MemInv.pair2 (State.setReg_mem K (State.setReg_mem K (State.setReg_mem K mh)))) (MemInv.pair2 mh))
    · exact (MemInv.ite2 (msgRxRead_mem K mh) (MemInv.pair2 mh))
    · exact (MemInv.pair2 mh))

theorem plainWrite_mem {s : State} {d : RegDesc} {a : Nat} {v : BitVec 32} (mh : MemInv Q s) : MemInv Q (plainWrite s d a v) := by
  unfold plainWrite
  exact (State.setReg_mem K mh)

theorem ok_mem {s : State} (mh : MemInv Q s) : MemInv Q (ok s).2 := by
  unfold ok
  exact (MemInv.pair2 mh)

theorem stagedWrite_mem {s : State} {d : RegDesc} {a : Nat} {v : BitVec 32} {k : Nat} {twin : Option Nat} (mh : MemInv Q s) : MemInv Q (stagedWrite s d a v k twin).2 := by
  unfold stagedWrite
  exact (MemInv.ite2 (MemInv.ite2 (MemInv.pair2 (stageReject_mem K (plainWrite_mem K mh))) (ok_mem K (plainWrite_mem K mh))) (ok_mem K (by
    first | (extract_lets; split) | (dsimp only; split) | split
    · exact (State.setReg_mem K (State.setReg_mem K (plainWrite_mem K mh)))
    · exact (State.setReg_mem K (plainWrite_mem K mh)))))

theorem seedWritten_mem {s : State} {k : Nat} (mh : MemInv Q s) : MemInv Q (seedWritten s k) := by
  unfold seedWritten
  exact (putSet_mem K mh)

theorem commitRegWrite_mem {s : State} {k : Nat} {v : BitVec 32} (mh : MemInv Q s) : MemInv Q (commitRegWrite s k v) := by
  unfold commitRegWrite
  exact (MemInv.ite (commitWrite_mem K (State.setFld_mem K mh)) (State.setFld_mem K mh))

theorem peakClear_mem {s : State} {n : Nat} (mh : MemInv Q s) : MemInv Q (peakClear s n) := by
  unfold peakClear
  exact (State.setReg_mem K mh)

theorem rillRegWrite_mem {s : State} {d : RegDesc} {n o : Nat} {v : BitVec 32} (mh : MemInv Q s) : MemInv Q (rillRegWrite s d n o v).2 := by
  unfold rillRegWrite
  exact (MemInv.ite2 (MemInv.ite2 (MemInv.pair2 (State.raise_mem K mh)) (ok_mem K (State.setReg_mem K (plainWrite_mem K mh)))) (MemInv.ite2 (ok_mem K (commitRegWrite_mem K mh)) (MemInv.ite2 (ok_mem K (plainWrite_mem K mh)) (MemInv.ite2 (ok_mem K (seedWritten_mem K (stagedWrite_mem K mh))) (stagedWrite_mem K mh)))))

theorem basinRegWrite_mem {s : State} {d : RegDesc} {n o : Nat} {v : BitVec 32} (mh : MemInv Q s) : MemInv Q (basinRegWrite s d n o v).2 := by
  unfold basinRegWrite
  exact (MemInv.ite2 (MemInv.pair2 (State.raise_mem K mh)) (MemInv.ite2 (ok_mem K (State.setReg_mem K (plainWrite_mem K (MemInv.ite (peakClear_mem K mh) mh)))) (MemInv.ite2 (ok_mem K (commitRegWrite_mem K (MemInv.ite (peakClear_mem K mh) mh))) (MemInv.ite2 (ok_mem K (plainWrite_mem K (MemInv.ite (peakClear_mem K mh) mh))) (MemInv.ite2 (ok_mem K (seedWritten_mem K (stagedWrite_mem K (MemInv.ite (peakClear_mem K mh) mh)))) (stagedWrite_mem K (MemInv.ite (peakClear_mem K mh) mh)))))))

theorem bankOwnerWrite_mem {s : State} {b : Nat} {v : BitVec 32} (mh : MemInv Q s) : MemInv Q (bankOwnerWrite s b v).2 := by
  unfold bankOwnerWrite
  exact (MemInv.ite2 (MemInv.pair2 (State.raise_mem K mh)) (ok_mem K (MemInv.ite (State.setFld_mem K mh) (MemInv.mk (MemInv.of (State.setBit_mem K (State.setFld_mem K mh)))))))

theorem otpCommand_mem {s : State} {v : BitVec 32} (mh : MemInv Q s) : MemInv Q (otpCommand s v) := by
  unfold otpCommand
  exact (MemInv.ite (revokeKey_mem K (MemInv.ite (progHash_mem K mh) mh)) (MemInv.ite (progHash_mem K mh) mh))

theorem bootRegWrite_mem {s : State} {d : RegDesc} {a : Nat} {v : BitVec 32} {m : Nat} (mh : MemInv Q s) : MemInv Q (bootRegWrite s d a v m).2 := by
  unfold bootRegWrite
  exact (MemInv.ite2 (ok_mem K (MemInv.ite (bootConfirm_mem K (MemInv.ite (startedWrite_mem K mh) mh)) (MemInv.ite (startedWrite_mem K mh) mh))) (MemInv.ite2 (ok_mem K (bootSafeReq_mem K mh)) (MemInv.ite2 (ok_mem K (MemInv.ite (State.setReg_mem K mh) (lcReject_mem K mh))) (MemInv.ite2 (ok_mem K (bootLcReq_mem K mh)) (MemInv.ite2 (ok_mem K (otpCommand_mem K mh)) (MemInv.ite2 (ok_mem K (bootRun_mem K mh)) (MemInv.ite2 (MemInv.ite2 (MemInv.pair2 (masterErr_mem K mh)) (MemInv.ite2 (MemInv.ite2 (flashCommand_mem K mh) (MemInv.ite2 (flashCommand_mem K mh) (ok_mem K mh))) (ok_mem K (plainWrite_mem K mh)))) (MemInv.ite2 (ok_mem K (dbgCtlWrite_mem K mh)) (ok_mem K (plainWrite_mem K mh))))))))))

theorem timeRegWrite_mem {s : State} {d : RegDesc} {a : Nat} {v : BitVec 32} (mh : MemInv Q s) : MemInv Q (timeRegWrite s d a v) := by
  unfold timeRegWrite
  exact (MemInv.ite (timeSetCmd_mem K mh) (MemInv.ite (MemInv.mk (MemInv.of mh)) (MemInv.ite (plainWrite_mem K mh) (MemInv.ite (MemInv.ite (timeCapWrite_mem K mh) (plainWrite_mem K mh)) (MemInv.ite (timeCmpWrite_mem K mh) (MemInv.ite (plainWrite_mem K mh) (cmpTimeWrite_mem K mh)))))))

theorem ethRegWrite_mem {s : State} {d : RegDesc} {p a : Nat} {v : BitVec 32} (mh : MemInv Q s) : MemInv Q (ethRegWrite s d p a v).2 := by
  unfold ethRegWrite
  exact (MemInv.ite2 (ethCtrlWrite_mem K mh) (MemInv.ite2 (ethCfgWrite_mem K mh) (MemInv.ite2 (ok_mem K (cbsWrite_mem K mh)) (MemInv.ite2 (ok_mem K (mdioWrite_mem K mh)) (MemInv.ite2 (ok_mem K (filtWrite_mem K mh)) (MemInv.ite2 (ok_mem K (MemInv.ite (stampPop_mem K mh) mh)) (ok_mem K (plainWrite_mem K mh))))))))

theorem hostRegWrite_mem {s : State} {d : RegDesc} {a : Nat} {v : BitVec 32} (mh : MemInv Q s) : MemInv Q (hostRegWrite s d a v).2 := by
  unfold hostRegWrite
  exact (MemInv.ite2 (hostCtrlWrite_mem K mh) (MemInv.ite2 (ok_mem K (plainWrite_mem K mh)) (MemInv.ite2 (MemInv.ite2 (ringCfgWrite_mem K mh) (MemInv.ite2 (MemInv.pair2 (cfgReject_mem K mh)) (ok_mem K (plainWrite_mem K mh)))) (MemInv.ite2 (MemInv.ite2 (MemInv.pair2 (cfgReject_mem K mh)) (ok_mem K (plainWrite_mem K mh))) (MemInv.ite2 (ok_mem K (plainWrite_mem K mh)) (ok_mem K (doorbellRing_mem K mh)))))))

theorem tethCfgWrite_mem {s : State} {v : BitVec 32} (mh : MemInv Q s) : MemInv Q (tethCfgWrite s v) := by
  unfold tethCfgWrite
  exact (tetherAuth_mem K (State.setReg_mem K (MemInv.foldl mh fun _ _ mh1 => (MemInv.ite mh1 (tetherPortDown_mem K mh1)))))

theorem tetherRegWrite_mem {s : State} {d : RegDesc} {a : Nat} {v : BitVec 32} (mh : MemInv Q s) : MemInv Q (tetherRegWrite s d a v).2 := by
  unfold tetherRegWrite
  exact (MemInv.ite2 (ok_mem K (tethCfgWrite_mem K mh)) (MemInv.ite2 (ok_mem K (witnessWrite_mem K mh)) (MemInv.ite2 (ok_mem K (syncCtlWrite_mem K mh)) (MemInv.ite2 (ok_mem K (msgTxWrite_mem K mh)) (MemInv.ite2 (ok_mem K (commitRegWrite_mem K mh)) (MemInv.ite2 (ok_mem K (commitRegWrite_mem K mh)) (MemInv.ite2 (stagedWrite_mem K mh) (ok_mem K (plainWrite_mem K mh)))))))))

theorem gpioRegWrite_mem {s : State} {d : RegDesc} {a : Nat} {v : BitVec 32} (mh : MemInv Q s) : MemInv Q (gpioRegWrite s d a v) := by
  unfold gpioRegWrite
  exact (MemInv.ite (gpioCfgWrite_mem K mh) (MemInv.ite mh (MemInv.ite (gpioOut_mem K mh) (MemInv.ite (gpioOut_mem K mh) (plainWrite_mem K mh)))))

theorem adcCfgWrite_mem {s : State} {d : RegDesc} {i a : Nat} {v : BitVec 32} (mh : MemInv Q s) : MemInv Q (adcCfgWrite s d i a v) := by
  unfold adcCfgWrite
  exact (MemInv.ite (plainWrite_mem K mh) (MemInv.mk (MemInv.of (plainWrite_mem K mh))))

theorem anaCtrlWrite_mem {s : State} {d : RegDesc} {a : Nat} {v : BitVec 32} (mh : MemInv Q s) : MemInv Q (anaCtrlWrite s d a v) := by
  unfold anaCtrlWrite
  exact (MemInv.ite (muteLow_mem K (plainWrite_mem K mh)) (plainWrite_mem K mh))

theorem cacheWrite_mem {s : State} {v : BitVec 32} (mh : MemInv Q s) : MemInv Q (cacheWrite s v) := by
  unfold cacheWrite
  exact (MemInv.ite (MemInv.mk (MemInv.of (State.raise_mem K (State.setBit_mem K mh)))) (State.setBit_mem K mh))

theorem regWrite_mem {s : State} {d : RegDesc} {a : Nat} {v : BitVec 32} {m : Nat} {slave : Bool} (mh : MemInv Q s) : MemInv Q (regWrite s d a v m slave).2 := by
  unfold regWrite
  exact (by
    first | (extract_lets; split) | (dsimp only; split) | split
    · exact (ok_mem K (MemInv.ite (MemInv.ite (irqAck_mem K mh) mh) (plainWrite_mem K mh)))
    · exact (MemInv.ite2 (ok_mem K (mpllConfigWrite_mem K mh)) (MemInv.ite2 (ok_mem K (mncoFwWrite_mem K mh)) (MemInv.ite2 (mncoAdjWrite_mem K mh) (MemInv.ite2 (ok_mem K (clkOutWrite_mem K mh)) (MemInv.ite2 (ok_mem K (mpllBandWrite_mem K mh (plainWrite_mem K mh))) (ok_mem K (plainWrite_mem K mh)))))))
    · exact (ok_mem K (MemInv.ite (standbyWrite_mem K mh) (MemInv.ite (rtcWrite_mem K mh) (faultPin_mem K (plainWrite_mem K mh)))))
    · exact (bootRegWrite_mem K mh)
    · exact (MemInv.ite2 (ok_mem K (State.raiseIf_mem K mh)) (MemInv.ite2 (bankOwnerWrite_mem K mh) (ok_mem K (plainWrite_mem K mh))))
    · exact (MemInv.ite2 (tickSwitch_mem K mh) (ok_mem K (plainWrite_mem K mh)))
    · exact (rillRegWrite_mem K mh)
    · exact (rillRegWrite_mem K mh)
    · exact (MemInv.ite2 (ok_mem K (cacheWrite_mem K mh)) (MemInv.ite2 (basinRegWrite_mem K mh) (ok_mem K (plainWrite_mem K mh))))
    · exact (ok_mem K (MemInv.ite (commitRegWrite_mem K mh) (plainWrite_mem K mh)))
    · exact (MemInv.ite2 (ok_mem K (commitRegWrite_mem K mh)) (MemInv.ite2 (MemInv.ite2 (stagedWrite_mem K mh) (ok_mem K (seedWritten_mem K (stagedWrite_mem K mh)))) (MemInv.ite2 (ok_mem K (abortGroup_mem K mh)) (ok_mem K (plainWrite_mem K mh)))))
    · exact (ok_mem K (MemInv.ite (commitRegWrite_mem K mh) (plainWrite_mem K mh)))
    · exact (ok_mem K (MemInv.ite (pdmClkWrite_mem K mh) (plainWrite_mem K mh)))
    · exact (ok_mem K (MemInv.ite (anaCtrlWrite_mem K mh) (MemInv.ite (adcCfgWrite_mem K mh) (plainWrite_mem K mh))))
    · exact (MemInv.ite2 (MemInv.pair2 (mpllRecheck_mem K (tdmCtrlWrite_mem K mh))) (MemInv.ite2 (tdmFrameWrite_mem K mh) (ok_mem K (plainWrite_mem K mh))))
    · exact (ethRegWrite_mem K mh)
    · exact (ethRegWrite_mem K mh)
    · exact (ethRegWrite_mem K mh)
    · exact (MemInv.ite2 (ok_mem K (MemInv.mk (MemInv.of (plainWrite_mem K mh)))) (MemInv.ite2 (streamWrite_mem K mh) (MemInv.ite2 (streamWrite_mem K mh) (ok_mem K (plainWrite_mem K mh)))))
    · exact (ok_mem K (timeRegWrite_mem K mh))
    · exact (hostRegWrite_mem K mh)
    · exact (ok_mem K (cspMoved_mem K mh (MemInv.ite (cspCtrlWrite_mem K mh) (MemInv.ite (cspLenWrite_mem K mh) (MemInv.ite (cspPush_mem K mh) (MemInv.ite (cspSlCfgWrite_mem K mh) (plainWrite_mem K mh)))))))
    · exact (ok_mem K (MemInv.ite (supCtrlWrite_mem K mh) (plainWrite_mem K mh)))
    · exact (ok_mem K (MemInv.ite (bankRequest_mem K mh) (MemInv.ite (farInit_mem K mh) (plainWrite_mem K mh))))
    · exact (tetherRegWrite_mem K mh)
    · exact (ok_mem K (gpioRegWrite_mem K mh))
    · exact (ok_mem K (plainWrite_mem K mh)))

theorem sizeErr_mem {s : State} (mh : MemInv Q s) : MemInv Q (sizeErr s) := by
  unfold sizeErr
  exact (State.raise_mem K mh)

theorem unmapped_mem {s : State} {a m : Nat} {write : Bool} (mh : MemInv Q s) : MemInv Q (unmapped s a m write) := by
  unfold unmapped
  exact (State.setReg_mem K (State.raise_mem K mh))

theorem regReadBytes_mem {s : State} {a n m : Nat} (mh : MemInv Q s) : MemInv Q (regReadBytes s a n m).2.2 := by
  unfold regReadBytes
  exact (MemInv.ite22 (MemInv.pair22 (MemInv.pair2 mh)) (MemInv.ite22 (MemInv.pair22 (MemInv.pair2 (sizeErr_mem K mh))) (MemInv.ite22 (MemInv.pair22 (MemInv.pair2 (unmapped_mem K mh))) (MemInv.pair22 (MemInv.pair2 (regRead_mem K mh))))))

theorem regWriteBytes_mem {s : State} {a : Nat} {bs : List Byte} {m : Nat} {slave : Bool} (mh : MemInv Q s) : MemInv Q (regWriteBytes s a bs m slave).2 := by
  unfold regWriteBytes
  exact (MemInv.ite2 (MemInv.pair2 mh) (MemInv.ite2 (MemInv.pair2 (sizeErr_mem K mh)) (by
    first | (extract_lets; split) | (dsimp only; split) | split
    · exact (MemInv.pair2 (unmapped_mem K mh))
    · exact (MemInv.ite2 (regWrite_mem K mh) (MemInv.pair2 (sizeErr_mem K mh))))))

end Sys2Proof.Machine
end

