-- ==== Sys2Proof/Laws/KeepWindows.lean ====
section
/-! SUPPORT. The definitions of Machine/Windows.lean keep what MemKeeps keeps. -/
namespace Sys2Proof.Machine

variable {Q : List Instr → Cells (BitVec 32) → Cells Word → Cells Byte → Cells (BitVec 32) → Cells (BitVec 2) → Cells (BitVec 2) → Cells Byte → Prop} (K : MemKeeps Q)
include K

set_option linter.unusedSectionVars false

theorem windowRead_mem {s : State} {a : Nat} {site : EccSite} {field : Nat} {w : Word} (mh : MemInv Q s) : MemInv Q (windowRead s a site field w).2.2 := by
  unfold windowRead
  exact (MemInv.pair22 (MemInv.pair2 (State.eccEvent_mem K mh)))

theorem windowError_mem {s : State} {st : Nat} {m : BitVec 32} (mh : MemInv Q s) : MemInv Q (windowError s st m).2 := by
  unfold windowError
  exact (MemInv.pair2 (State.raise_mem K mh))

theorem windowStored_mem {s : State} {l : List Nat} (mh : MemInv Q s) : MemInv Q (windowStored s l).2 := by
  unfold windowStored
  exact (MemInv.pair2 (by
    refine MemInv.mk ?_
    try dsimp only
    exact (K.eccFold (MemInv.of mh))))

theorem rillWinRead_mem {s : State} {n o : Nat} (mh : MemInv Q s) : MemInv Q (rillWinRead s n o).2.2 := by
  unfold rillWinRead
  exact (MemInv.ite22 (MemInv.pair22 (MemInv.pair2 mh)) (MemInv.ite22 (windowRead_mem K mh) (MemInv.ite22 (windowRead_mem K mh) (MemInv.ite22 (MemInv.ite22 (windowRead_mem K mh) (windowRead_mem K mh)) (MemInv.pair22 (MemInv.pair2 mh))))))

theorem rillWinWrite_mem {s : State} {n o : Nat} {w : Word} (mh : MemInv Q s) : MemInv Q (rillWinWrite s n o w).2 := by
  unfold rillWinWrite
  exact (MemInv.ite2 (MemInv.pair2 mh) (MemInv.ite2 (windowError_mem K mh) (MemInv.ite2 (windowStored_mem K (onRill_mem K mh)) (MemInv.ite2 (MemInv.ite2 (windowError_mem K mh) (windowStored_mem K (onRill_mem K mh))) (MemInv.ite2 (MemInv.ite2 (windowError_mem K mh) (MemInv.ite2 (MemInv.pair2 (stageReject_mem K mh)) (windowStored_mem K (onRill_mem K mh)))) (windowError_mem K mh))))))

theorem basinWinRead_mem {s : State} {n o : Nat} (mh : MemInv Q s) : MemInv Q (basinWinRead s n o).2.2 := by
  unfold basinWinRead
  exact (MemInv.ite22 (MemInv.pair22 (MemInv.pair2 mh)) (MemInv.ite22 (windowRead_mem K mh) (MemInv.ite22 (windowRead_mem K mh) (MemInv.ite22 (MemInv.ite22 (windowRead_mem K mh) (windowRead_mem K mh)) (MemInv.pair22 (MemInv.pair2 mh))))))

theorem basinWinWrite_mem {s : State} {n o : Nat} {w : Word} (mh : MemInv Q s) : MemInv Q (basinWinWrite s n o w).2 := by
  unfold basinWinWrite
  exact (MemInv.ite2 (MemInv.pair2 mh) (MemInv.ite2 (windowError_mem K mh) (MemInv.ite2 (windowStored_mem K (onBasin_mem K mh)) (MemInv.ite2 (MemInv.ite2 (windowError_mem K mh) (windowStored_mem K (onBasin_mem K mh))) (MemInv.ite2 (MemInv.ite2 (windowError_mem K mh) (MemInv.ite2 (MemInv.pair2 (stageReject_mem K mh)) (windowStored_mem K (onBasin_mem K mh)))) (windowError_mem K mh))))))

theorem fabricWinRead_mem {s : State} {a : Nat} (mh : MemInv Q s) : MemInv Q (fabricWinRead s a).2.2 := by
  unfold fabricWinRead
  exact (MemInv.ite22 (MemInv.ite22 (windowRead_mem K mh) (windowRead_mem K mh)) (MemInv.ite22 (MemInv.ite22 (windowRead_mem K mh) (windowRead_mem K mh)) (MemInv.ite22 (MemInv.pair22 (MemInv.pair2 mh)) (MemInv.ite22 (MemInv.pair22 (MemInv.pair2 mh)) (MemInv.ite22 (MemInv.pair22 (MemInv.pair2 mh)) (MemInv.pair22 (MemInv.pair2 mh)))))))

theorem fabricWinWrite_mem {s : State} {a : Nat} {w : Word} (mh : MemInv Q s) : MemInv Q (fabricWinWrite s a w).2 := by
  unfold fabricWinWrite
  exact (MemInv.ite2 (MemInv.ite2 (windowError_mem K mh) (MemInv.ite2 (MemInv.pair2 (stageReject_mem K mh)) (windowStored_mem K (MemInv.mk (MemInv.of mh))))) (MemInv.ite2 (MemInv.ite2 (windowError_mem K mh) (MemInv.ite2 (MemInv.pair2 (stageReject_mem K mh)) (windowStored_mem K (MemInv.mk (MemInv.of mh))))) (MemInv.ite2 (windowError_mem K mh) (windowError_mem K mh))))

theorem cascadeWinRead_mem {s : State} {a : Nat} (mh : MemInv Q s) : MemInv Q (cascadeWinRead s a).2.2 := by
  unfold cascadeWinRead
  extract_lets o
  clear_value o
  split
  · split
    · exact windowRead_mem K mh
    · exact windowRead_mem K mh
  · split
    · exact State.raise_mem K mh
    · exact windowRead_mem K mh

theorem cascadeWinWrite_mem {s : State} {a : Nat} {w : Word} (mh : MemInv Q s) : MemInv Q (cascadeWinWrite s a w).2 := by
  unfold cascadeWinWrite
  exact (MemInv.ite2 (MemInv.ite2 (MemInv.pair2 (stageReject_mem K mh)) (windowStored_mem K (MemInv.mk (MemInv.of mh)))) (windowError_mem K mh))

theorem winRead_mem {s : State} {a : Nat} (mh : MemInv Q s) : MemInv Q (winRead s a).2.2 := by
  unfold winRead
  exact (MemInv.ite22 (rillWinRead_mem K mh) (MemInv.ite22 (basinWinRead_mem K mh) (MemInv.ite22 (fabricWinRead_mem K mh) (cascadeWinRead_mem K mh))))

theorem winWrite_mem {s : State} {a : Nat} {w : Word} (mh : MemInv Q s) : MemInv Q (winWrite s a w).2 := by
  unfold winWrite
  exact (MemInv.ite2 (rillWinWrite_mem K mh) (MemInv.ite2 (basinWinWrite_mem K mh) (MemInv.ite2 (fabricWinWrite_mem K mh) (cascadeWinWrite_mem K mh))))

end Sys2Proof.Machine
end

