-- ==== Sys2Proof/Laws/KeepCrossbar.lean ====
section
/-! SUPPORT. The definitions of Machine/Crossbar.lean keep what MemKeeps keeps. -/
namespace Sys2Proof.Machine

variable {Q : List Instr → Cells (BitVec 32) → Cells Word → Cells Byte → Cells (BitVec 32) → Cells (BitVec 2) → Cells (BitVec 2) → Cells Byte → Prop} (K : MemKeeps Q)
include K

set_option linter.unusedSectionVars false

theorem cacheInsert_mem {s : State} {l : Nat} (mh : MemInv Q s) : MemInv Q (cacheInsert s l) := by
  unfold cacheInsert
  exact (MemInv.mk (MemInv.of (by
    first | (extract_lets; split) | (dsimp only; split) | split
    · exact (MemInv.pair2 mh)
    · exact (MemInv.pair2 (State.takeFree_mem K mh)))))

theorem cacheLine_mem {s : State} {l : Nat} (mh : MemInv Q s) : MemInv Q (cacheLine s l).2 := by
  unfold cacheLine
  exact (MemInv.ite2 (by
    first | (extract_lets; split) | (dsimp only; split) | split
    · exact (MemInv.pair2 mh)
    · exact (MemInv.pair2 (cacheInsert_mem K (State.count_mem K mh)))) (MemInv.pair2 (State.count_mem K mh)))

theorem cacheRead_mem {s : State} {a n : Nat} (mh : MemInv Q s) : MemInv Q (cacheRead s a n).2 := by
  unfold cacheRead
  exact (MemInv.pair2 (MemInv.foldl2 (MemInv.pair2 mh) fun _ _ mh1 => (MemInv.pair2 (cacheLine_mem K mh1))))

theorem flashRead_mem {s : State} {m a n : Nat} (mh : MemInv Q s) : MemInv Q (flashRead s m a n).2 := by
  unfold flashRead
  exact (MemInv.ite2 (cacheRead_mem K mh) (MemInv.pair2 mh))

theorem tackEvent_mem {s : State} {w : Nat} (mh : MemInv Q s) : MemInv Q (tackEvent s w) := by
  unfold tackEvent
  exact (MemInv.ite (by
    refine MemInv.mk ?_
    try dsimp only
    exact (K.markSet _ _ (MemInv.of (State.eccEvent_mem K mh)))) (State.eccEvent_mem K mh))

theorem tackRead_mem {s : State} {o n : Nat} (mh : MemInv Q s) : MemInv Q (tackRead s o n).2.2 := by
  unfold tackRead
  exact (MemInv.ite22 (MemInv.pair22 (MemInv.pair2 (tackReject_mem K mh))) (MemInv.ite22 (MemInv.pair22 (MemInv.pair2 (MemInv.foldl mh fun _ _ mh1 => (tackEvent_mem K mh1)))) (MemInv.pair22 (MemInv.pair2 (MemInv.foldl mh fun _ _ mh1 => (tackEvent_mem K mh1))))))

theorem tackPut_mem {s : State} {o : Nat} {b : Byte} (mh : MemInv Q s) : MemInv Q (tackPut s o b) := by
  unfold tackPut
  exact (by
    refine MemInv.mk ?_
    try dsimp only
    exact (K.tackSet _ _ (K.markSet _ _ (MemInv.of (tackEvent_mem K mh)))))

theorem putEnabled_mem {put : State → Nat → Byte → State} {s : State} {o : Nat} {l : List (Option Byte)} (h : MemInv Q s)
    (hp : ∀ t o b, MemInv Q t → MemInv Q (put t o b)) : MemInv Q (putEnabled put s o l) := by
  induction l generalizing s o with
  | nil => exact h
  | cons b t ih =>
    cases b with
    | none => exact ih h
    | some b => exact ih (hp _ _ _ h)

theorem tackWrite_mem {s : State} {o : Nat} {bs : List (Option Byte)} (mh : MemInv Q s) : MemInv Q (tackWrite s o bs).2 := by
  unfold tackWrite
  exact (MemInv.ite2 (MemInv.pair2 (tackReject_mem K mh)) (MemInv.pair2 (putEnabled_mem K mh (fun _ _ _ mh1 => (tackPut_mem K mh1)))))

theorem xReadWord_mem {s : State} {m a : Nat} (mh : MemInv Q s) : MemInv Q (xReadWord s m a).2.2 := by
  unfold xReadWord
  exact (MemInv.ite22 (MemInv.pair22 (MemInv.pair2 (defaultTarget_mem K mh))) (MemInv.ite22 (yardRead_mem K mh) (winRead_mem K mh)))

theorem xWriteWord_mem {s : State} {m a : Nat} {w : Word} (mh : MemInv Q s) : MemInv Q (xWriteWord s m a w).2 := by
  unfold xWriteWord
  exact (MemInv.ite2 (MemInv.pair2 (defaultTarget_mem K mh)) (MemInv.ite2 (yardWrite_mem K mh) (winWrite_mem K mh)))

theorem xReadBytes_mem {s : State} {m a n : Nat} (mh : MemInv Q s) : MemInv Q (xReadBytes s m a n).2.2 := by
  unfold xReadBytes
  exact (by
    first | (extract_lets; split) | (dsimp only; split) | split
    · exact (MemInv.pair22 (MemInv.pair2 (flashRead_mem K mh)))
    · exact (yardReadBytes_mem K mh)
    · exact (tackRead_mem K mh)
    · exact (regReadBytes_mem K mh)
    · exact (MemInv.pair22 (MemInv.pair2 (defaultTarget_mem K mh))))

theorem yardPutByte_mem {s : State} {o : Nat} {b : Byte} (mh : MemInv Q s) : MemInv Q (yardPutByte s o b) := by
  unfold yardPutByte
  exact (yardPutBytes_mem K mh)

theorem xWriteBytes_mem {s : State} {m a : Nat} {bs : List (Option Byte)} {slave : Bool} (mh : MemInv Q s) : MemInv Q (xWriteBytes s m a bs slave).2 := by
  unfold xWriteBytes
  exact (by
    first | (extract_lets; split) | (dsimp only; split) | split
    · exact (MemInv.ite2 (MemInv.pair2 (putEnabled_mem K mh (fun _ _ _ mh1 => (yardPutByte_mem K mh1)))) (MemInv.pair2 (ownErr_mem K mh)))
    · exact (tackWrite_mem K mh)
    · exact (MemInv.ite2 (MemInv.pair2 mh) (regWriteBytes_mem K mh))
    · exact (MemInv.pair2 (defaultTarget_mem K mh))
    · exact (MemInv.pair2 (defaultTarget_mem K mh)))

theorem inbErr_mem {s : State} {bar off : Nat} (mh : MemInv Q s) : MemInv Q (inbErr s bar off) := by
  unfold inbErr
  exact (State.setReg_mem K (State.raise_mem K mh))

theorem accessRun_mem {s : State} {m : Nat} {x : Access} {slave : Bool} (mh : MemInv Q s) : MemInv Q (accessRun s m x slave).2 := by
  unfold accessRun
  exact (by
    first | (extract_lets; split) | (dsimp only; split) | split
    · exact (MemInv.pair2 (xReadWord_mem K mh))
    · exact (MemInv.pair2 (xWriteWord_mem K mh))
    · exact (MemInv.pair2 (xReadBytes_mem K mh))
    · exact (MemInv.pair2 (xWriteBytes_mem K mh)))

theorem acceptedPending_mem {h : HeldAccess} {b : Bool} {s : State} (mh : MemInv Q s) : MemInv Q (acceptedPending h b s) := by
  unfold acceptedPending
  exact (MemInv.foldl mh fun _ _ mh1 => (State.setBit_mem K mh1))

theorem slaveEnds_mem {s : State} {mine err : Bool} (mh : MemInv Q s) : MemInv Q (slaveEnds s mine err) := by
  unfold slaveEnds
  exact (MemInv.ite (MemInv.ite (MemInv.mk (MemInv.of (State.raise_mem K mh))) (State.raise_mem K mh)) mh)

theorem respond_mem {s : State} {h : HeldAccess} {r : Response} (mh : MemInv Q s) : MemInv Q (respond s h r) := by
  unfold respond
  exact (by
    first | (extract_lets; split) | (dsimp only; split) | split
    · exact (slaveEnds_mem K mh)
    · exact (MemInv.ite mh (MemInv.mk (MemInv.of mh))))

theorem accessDo_mem {s : State} {h : HeldAccess} (mh : MemInv Q s) : MemInv Q (accessDo s h) := by
  unfold accessDo
  extract_lets r s2
  have h2 : MemInv Q s2 := respond_mem K (acceptedPending_mem K (accessRun_mem K (acceptedPending_mem K mh)))
  clear_value s2 r
  split
  · split
    · exact inbErr_mem K h2
    · exact h2
  · exact h2

theorem access_mem {s : State} {h : HeldAccess} (mh : MemInv Q s) : MemInv Q (access s h) := by
  unfold access
  exact (MemInv.ite (State.hold_mem K mh) (accessDo_mem K mh))

theorem serveHeld_mem {s : State} (mh : MemInv Q s) : MemInv Q (serveHeld s) := by
  unfold serveHeld
  exact (MemInv.foldl (MemInv.mk (MemInv.of mh)) fun _ _ mh1 => (access_mem K mh1))

theorem masterAccess_mem {s : State} {m : Nat} {x : Access} (mh : MemInv Q s) : MemInv Q (masterAccess s m x) := by
  unfold masterAccess
  exact (access_mem K mh)

theorem handoverComplete_mem {s : State} {b : Nat} (mh : MemInv Q s) : MemInv Q (handoverComplete s b) := by
  unfold handoverComplete
  exact (MemInv.ite (serveHeld_mem K (State.setBit_mem K (State.setFld_mem K mh))) mh)

theorem clearEnd_mem {s : State} (mh : MemInv Q s) : MemInv Q (clearEnd s) := by
  unfold clearEnd
  exact (MemInv.ite (MemInv.ite (bootGo_mem K (MemInv.mk (MemInv.of (serveHeld_mem K (State.lower_mem K mh))))) (serveHeld_mem K (State.lower_mem K mh))) mh)

theorem tamper_mem {s : State} (mh : MemInv Q s) : MemInv Q (tamper s) := by
  unfold tamper
  exact (by
    refine MemInv.mk ?_
    try dsimp only
    exact (K.tackClear (K.markClear (MemInv.of (State.supEvent_mem K (State.raise_mem K mh))))))

theorem wipeEnd_mem {s : State} (mh : MemInv Q s) : MemInv Q (wipeEnd s) := by
  unfold wipeEnd
  exact (MemInv.ite (tackWipe_mem K (State.lower_mem K mh)) mh)

theorem spareEcc_mem {s : State} {mark : BitVec 2} {k : Nat} (mh : MemInv Q s) : MemInv Q (spareEcc s mark k) := by
  unfold spareEcc
  exact (MemInv.ite (by
    refine MemInv.mk ?_
    try dsimp only
    exact (K.eccSet _ _ (MemInv.of (State.eccEvent_mem K (State.takeFree_mem K mh))))) (State.eccEvent_mem K (State.takeFree_mem K mh)))

theorem scrubRow_mem {s : State} {r : Nat} (mh : MemInv Q s) : MemInv Q (scrubRow s r) := by
  unfold scrubRow
  exact (MemInv.ite (MemInv.foldl (MemInv.foldl mh fun _ _ mh1 => (yardEcc_mem K mh1)) fun _ _ mh1 => (spareEcc_mem K mh1)) mh)

theorem writeBack_mem {s : State} {w : Nat} (mh : MemInv Q s) : MemInv Q (writeBack s w) := by
  unfold writeBack
  exact (MemInv.ite (MemInv.ite (by
    refine MemInv.mk ?_
    try dsimp only
    exact (K.eccSet _ _ (MemInv.of mh))) (MemInv.mk (MemInv.of mh))) mh)

theorem bar2Put_mem {s : State} {o : Nat} {b : Byte} (mh : MemInv Q s) : MemInv Q (bar2Put s o b) := by
  unfold bar2Put
  exact (MemInv.ite (MemInv.mk (MemInv.of mh)) mh)

theorem hostAnswer_mem {s : State} {bs : List Byte} {err : Bool} (mh : MemInv Q s) : MemInv Q (hostAnswer s bs err) := by
  unfold hostAnswer
  exact (MemInv.mk (MemInv.of mh))

theorem hostAbort_mem {s : State} {n : Nat} (mh : MemInv Q s) : MemInv Q (hostAbort s n) := by
  unfold hostAbort
  exact (aerError_mem K (hostAnswer_mem K mh))

theorem hostRead_mem {s : State} {a n : Nat} (mh : MemInv Q s) : MemInv Q (hostRead s a n) := by
  unfold hostRead
  exact (MemInv.ite (aerError_mem K (access_mem K mh)) (access_mem K mh))

theorem barRead_mem {s : State} {b o n : Nat} (mh : MemInv Q s) : MemInv Q (barRead s b o n) := by
  unfold barRead
  exact (MemInv.ite (hostAnswer_mem K mh) (MemInv.ite (MemInv.ite (hostRead_mem K mh) (hostAbort_mem K mh)) (MemInv.ite (hostAbort_mem K mh) (hostRead_mem K mh))))

theorem barWrite_mem {s : State} {b o : Nat} {bs : List (Option Byte)} (mh : MemInv Q s) : MemInv Q (barWrite s b o bs) := by
  unfold barWrite
  exact (MemInv.ite (MemInv.foldl (msixUnmask_mem K (putEnabled_mem K mh (fun _ _ _ mh1 => (bar2Put_mem K mh1)))) fun _ _ mh1 => (doorbellRing_mem K mh1)) (MemInv.ite (MemInv.ite (access_mem K mh) (inbErr_mem K mh)) (MemInv.ite (inbErr_mem K mh) (access_mem K mh))))

theorem configRead_mem {s : State} {o n : Nat} (mh : MemInv Q s) : MemInv Q (configRead s o n) := by
  unfold configRead
  exact (hostAnswer_mem K (MemInv.foldl2 (MemInv.pair2 mh) fun _ _ mh1 => (MemInv.pair2 (configWord_mem K mh1))))

theorem d3Request_mem {s : State} {b o : Nat} {req : BarRequest} (mh : MemInv Q s) : MemInv Q (d3Request s b o req) := by
  unfold d3Request
  exact (by
    first | (extract_lets; split) | (dsimp only; split) | split
    · exact (hostAnswer_mem K (aerError_mem K mh))
    · exact (MemInv.ite (aerError_mem K mh) (inbErr_mem K (aerError_mem K mh))))

theorem execProgramStoreWrite_mem {master : Fin 18} {re : Fin 17} {word : Fin 98304} {data : BitVec 36} {s : State} (mh : MemInv Q s) : MemOut Q (execProgramStoreWrite master re word data s) := by
  unfold execProgramStoreWrite
  exact (done_mem K (masterAccess_mem K mh))

theorem execCodeStoreWrite_mem {master : Fin 18} {be : Fin 9} {word : BitVec 16} {data : BitVec 36} {s : State} (mh : MemInv Q s) : MemOut Q (execCodeStoreWrite master be word data s) := by
  unfold execCodeStoreWrite
  exact (done_mem K (masterAccess_mem K mh))

theorem execEngineWindowWrite_mem {master : Fin 18} {off : BitVec 23} {data : BitVec 36} {s : State} (mh : MemInv Q s) : MemOut Q (execEngineWindowWrite master off data s) := by
  unfold execEngineWindowWrite
  exact (done_mem K (masterAccess_mem K mh))

theorem execYardWordAccess_mem {master : Fin 18} {w : BitVec 23} {wr : Option (BitVec 36)} {s : State} (mh : MemInv Q s) : MemOut Q (execYardWordAccess master w wr s) := by
  unfold execYardWordAccess
  exact (done_mem K (masterAccess_mem K mh))

theorem execYardByteWrite_mem {master : Fin 18} {o : BitVec 25} {data : List Byte} {s : State} (mh : MemInv Q s) : MemOut Q (execYardByteWrite master o data s) := by
  unfold execYardByteWrite
  exact (done_mem K (masterAccess_mem K mh))

theorem execCorrectedWordWriteBack_mem {w : BitVec 23} {s : State} (mh : MemInv Q s) : MemOut Q (execCorrectedWordWriteBack w s) := by
  unfold execCorrectedWordWriteBack
  exact (done_mem K (writeBack_mem K mh))

theorem execScrubRow_mem {row : BitVec 16} {s : State} (mh : MemInv Q s) : MemOut Q (execScrubRow row s) := by
  unfold execScrubRow
  exact (done_mem K (scrubRow_mem K mh))

theorem execTackRoomAccess_mem {master : Fin 18} {o : BitVec 14} {size : Fin 3} {wr : Option (BitVec 32)} {s : State} (mh : MemInv Q s) : MemOut Q (execTackRoomAccess master o size wr s) := by
  unfold execTackRoomAccess
  exact (done_mem K (masterAccess_mem K mh))

theorem execWlock_mem {v : BitVec 32} {s : State} (mh : MemInv Q s) : MemOut Q (execWlock v s) := by
  unfold execWlock
  exact (done_mem K (State.raiseIf_mem K mh))

theorem execTamper_mem {s : State} (mh : MemInv Q s) : MemOut Q (execTamper s) := by
  unfold execTamper
  exact (done_mem K (tamper_mem K mh))

theorem execTamperRelease_mem {s : State} (mh : MemInv Q s) : MemOut Q (execTamperRelease s) := by
  unfold execTamperRelease
  exact (done_mem K (MemInv.mk (MemInv.of mh)))

theorem execTackWipeEnd_mem {s : State} (mh : MemInv Q s) : MemOut Q (execTackWipeEnd s) := by
  unfold execTackWipeEnd
  exact (done_mem K (wipeEnd_mem K mh))

theorem execDefaultTargetAccess_mem {master : Fin 18} {addr : BitVec 32} {word write : Bool} {s : State} (mh : MemInv Q s) : MemOut Q (execDefaultTargetAccess master addr word write s) := by
  unfold execDefaultTargetAccess
  exact (done_mem K (MemInv.ite (masterAccess_mem K mh) mh))

theorem execMemBankOwnerWrite_mem {master : Fin 18} {b : Fin 32} {v : BitVec 32} {s : State} (mh : MemInv Q s) : MemOut Q (execMemBankOwnerWrite master b v s) := by
  unfold execMemBankOwnerWrite
  exact (done_mem K (masterAccess_mem K mh))

theorem execHandoverComplete_mem {b : Fin 32} {s : State} (mh : MemInv Q s) : MemOut Q (execHandoverComplete b s) := by
  unfold execHandoverComplete
  exact (done_mem K (handoverComplete_mem K mh))

theorem execWakeClearEnd_mem {s : State} (mh : MemInv Q s) : MemOut Q (execWakeClearEnd s) := by
  unfold execWakeClearEnd
  exact (done_mem K (clearEnd_mem K mh))

theorem execBarRequest_mem {bar : Fin 4} {off : BitVec 25} {req : BarRequest} {s : State} (mh : MemInv Q s) : MemOut Q (execBarRequest bar off req s) := by
  unfold execBarRequest
  exact (done_mem K (MemInv.ite (by
    first | (extract_lets; split) | (dsimp only; split) | split
    · exact (configRead_mem K mh)
    · exact mh) (MemInv.ite (d3Request_mem K mh) (by
    first | (extract_lets; split) | (dsimp only; split) | split
    · exact (barRead_mem K mh)
    · exact (barWrite_mem K mh)))))

theorem bridgeAccess_mem {s : State} {x : Access} (mh : MemInv Q s) : MemInv Q (bridgeAccess s x) := by
  unfold bridgeAccess
  exact (masterAccess_mem K (MemInv.mk (MemInv.of mh)))

theorem tapRun_mem {s : State} {addr : BitVec 32} {wr : Option (BitVec 32)} {i : TapInstr} (h : MemInv Q s) :
    MemInv Q (tapRun s addr wr i) := by
  unfold tapRun
  split
  · exact bridgeAccess_mem K h
  · exact bridgeAccess_mem K h
  · split
    · exact bridgeAccess_mem K h
    · exact h
  · exact h
  · exact h
  · exact h

theorem execDebugBridgeAccess_mem {what : TapInstr} {addr : BitVec 32} {wr : Option (BitVec 32)} {s : State} (mh : MemInv Q s) : MemOut Q (execDebugBridgeAccess what addr wr s) := by
  unfold execDebugBridgeAccess
  exact (done_mem K (tapRun_mem K (MemInv.mk (MemInv.of mh))))

theorem execRegisterWrite_mem {master : Fin 18} {off : BitVec 24} {size : Fin 3} {v : BitVec 32} {s : State} (mh : MemInv Q s) : MemOut Q (execRegisterWrite master off size v s) := by
  unfold execRegisterWrite
  exact (done_mem K (masterAccess_mem K mh))

theorem execCommit_mem {set : Fin 29} {group : BitVec 4} {s : State} (mh : MemInv Q s) : MemOut Q (execCommit set group s) := by
  unfold execCommit
  exact (done_mem K (commitCommand_mem K mh))

theorem execSlAbort_mem {group : BitVec 4} {s : State} (mh : MemInv Q s) : MemOut Q (execSlAbort group s) := by
  unfold execSlAbort
  exact (done_mem K (abortGroup_mem K mh))

theorem execPeakClr_mem {be : Fin 9} {s : State} (mh : MemInv Q s) : MemOut Q (execPeakClr be s) := by
  unfold execPeakClr
  exact (done_mem K (MemInv.ite (State.raise_mem K mh) (peakClear_mem K mh)))

theorem execCcCacheInv_mem {v : BitVec 32} {s : State} (mh : MemInv Q s) : MemOut Q (execCcCacheInv v s) := by
  unfold execCcCacheInv
  exact (done_mem K (cacheWrite_mem K mh))

theorem execCacheInvalidationEnd_mem {s : State} (mh : MemInv Q s) : MemOut Q (execCacheInvalidationEnd s) := by
  unfold execCacheInvalidationEnd
  exact (done_mem K (State.lower_mem K mh))

theorem execCopyBackComplete_mem {set : Fin 29} {s : State} (mh : MemInv Q s) : MemOut Q (execCopyBackComplete set s) := by
  unfold execCopyBackComplete
  exact (done_mem K (copyBackComplete_mem K mh))

theorem execFlashOperationDone_mem {failed : Bool} {s : State} (mh : MemInv Q s) : MemOut Q (execFlashOperationDone failed s) := by
  unfold execFlashOperationDone
  exact (done_mem K (serveHeld_mem K (flashOperationDone_mem K mh)))

end Sys2Proof.Machine
end

