-- ==== Sys2Proof/Laws/KeepBundle.lean ====
section
/-! SUPPORT. The definitions of Machine/Bundle.lean keep what MemKeeps keeps. -/
namespace Sys2Proof.Machine

variable {Q : List Instr → Cells (BitVec 32) → Cells Word → Cells Byte → Cells (BitVec 32) → Cells (BitVec 2) → Cells (BitVec 2) → Cells Byte → Prop} (K : MemKeeps Q)
include K

set_option linter.unusedSectionVars false

theorem putCore_mem {s : State} {n : Nat} {e : BasinEngine} (mh : MemInv Q s) : MemInv Q (putCore s n e) := by
  unfold putCore
  exact (MemInv.mk (MemInv.of mh))

theorem landDue_mem {s : State} {n k : Nat} (mh : MemInv Q s) : MemInv Q (landDue s n k) := by
  unfold landDue
  exact (putCore_mem K (MemInv.mk (MemInv.of mh)))

theorem landAll_mem {s : State} {n : Nat} (mh : MemInv Q s) : MemInv Q (landAll s n) := by
  unfold landAll
  exact (MemInv.foldl mh fun _ _ mh1 => (landDue_mem K mh1))

theorem flowNext_mem {s : State} {n : Nat} (mh : MemInv Q s) : MemInv Q (flowNext s n) := by
  unfold flowNext
  exact (by
    first | (extract_lets; split) | (dsimp only; split) | split
    · exact (putCore_mem K mh)
    · exact (MemInv.ite (putCore_mem K (MemInv.mk (MemInv.of mh))) (putCore_mem K mh)))

theorem ccEnter_mem {s : State} {cause : Nat} {epc : BitVec 32} (mh : MemInv Q s) : MemInv Q (ccEnter s cause epc) := by
  unfold ccEnter
  exact (putCore_mem K (MemInv.mk (MemInv.of mh)))

theorem ccException_mem {s : State} {cause : Nat} {epc : BitVec 32} (mh : MemInv Q s) : MemInv Q (ccException s cause epc) := by
  unfold ccException
  exact (MemInv.ite (warmReset_mem K (landAll_mem K mh)) (ccEnter_mem K (landAll_mem K mh)))

theorem missEntry_mem {s : State} {n i cause : Nat} (mh : MemInv Q s) : MemInv Q (missEntry s n i cause) := by
  unfold missEntry
  exact (MemInv.ite (State.event_mem K (State.raise_mem K (State.setFld_mem K (State.setFld_mem K (State.count_mem K mh))))) (State.raise_mem K (State.setFld_mem K (State.setFld_mem K (State.count_mem K mh)))))

theorem dmaRelease_mem {s : State} {n ch : Nat} (mh : MemInv Q s) : MemInv Q (dmaRelease s n ch) := by
  unfold dmaRelease
  exact (MemInv.ite (resRelease_mem K mh) mh)

theorem dmaCancel_mem {s : State} {n : Nat} (mh : MemInv Q s) : MemInv Q (dmaCancel s n) := by
  unfold dmaCancel
  exact (MemInv.foldl (putCore_mem K mh) fun _ _ mh1 => (dmaRelease_mem K mh1))

theorem entryEnd_mem {s : State} {n : Nat} {st : EntryStatus} (mh : MemInv Q s) : MemInv Q (entryEnd s n st) := by
  unfold entryEnd
  exact (by
    first | (extract_lets; split) | (dsimp only; split) | split
    · exact mh
    · exact (putCore_mem K (landAll_mem K mh)))

theorem kernelFault_mem {s : State} {n cause : Nat} (mh : MemInv Q s) : MemInv Q (kernelFault s n cause) := by
  unfold kernelFault
  exact (by
    first | (extract_lets; split) | (dsimp only; split) | split
    · exact mh
    · exact (missEntry_mem K (State.raise_mem K (State.setReg_mem K (dmaCancel_mem K (entryEnd_mem K (putCore_mem K mh)))))))

theorem slotFault_mem {s : State} {n : Nat} {f : SlotFault} (mh : MemInv Q s) : MemInv Q (slotFault s n f) := by
  unfold slotFault
  exact (MemInv.ite (ccException_mem K (MemInv.mk (MemInv.of (putCore_mem K mh)))) (kernelFault_mem K mh))

theorem codeFetch_mem {s : State} {n : Nat} (mh : MemInv Q s) : MemInv Q (codeFetch s n).2 := by
  unfold codeFetch
  exact (MemInv.pair2 (State.eccEvents_mem K mh))

theorem ccYardFetch_mem {s : State} {o : Nat} (mh : MemInv Q s) : MemInv Q (ccYardFetch s o).2 := by
  unfold ccYardFetch
  exact (MemInv.ite2 (MemInv.pair2 mh) (MemInv.pair2 (yardReadBytes_mem K mh)))

theorem ccFlashFetch_mem {s : State} {a : Nat} (mh : MemInv Q s) : MemInv Q (ccFlashFetch s a).2 := by
  unfold ccFlashFetch
  exact (MemInv.ite2 (MemInv.pair2 mh) (MemInv.pair2 (cacheLine_mem K mh)))

theorem ccFetchAt_mem {s : State} {a : Nat} (mh : MemInv Q s) : MemInv Q (ccFetchAt s a).2 := by
  unfold ccFetchAt
  exact (MemInv.ite2 (MemInv.pair2 mh) (MemInv.ite2 (ccFlashFetch_mem K mh) (MemInv.ite2 (ccYardFetch_mem K mh) (MemInv.pair2 (defaultTarget_mem K mh)))))

theorem ccFetch_mem {s : State} (mh : MemInv Q s) : MemInv Q (ccFetch s).2 := by
  unfold ccFetch
  exact (ccFetchAt_mem K mh)

theorem ccStartBundle_mem {s : State} {atomic : Bool} (mh : MemInv Q s) : MemInv Q (ccStartBundle s atomic).2 := by
  unfold ccStartBundle
  exact (MemInv.ite2 (MemInv.pair2 (MemInv.foldl mh fun _ _ mh1 => (State.raise_mem K mh1))) (MemInv.pair2 (State.raiseIf_mem K (ccFetch_mem K (MemInv.mk (MemInv.of mh))))))

theorem bundleStart_mem {s : State} {n : Nat} {atomic : Bool} {rsv : BitVec 2} (mh : MemInv Q s) : MemInv Q (bundleStart s n atomic rsv).2 := by
  unfold bundleStart
  exact (MemInv.ite2 (MemInv.pair2 mh) (MemInv.ite2 (MemInv.pair2 (putCore_mem K (MemInv.ite2 (ccStartBundle_mem K mh) (codeFetch_mem K mh)))) (MemInv.ite2 (ccStartBundle_mem K mh) (codeFetch_mem K mh))))

theorem bundleEnd_mem {s : State} {n : Nat} {atomic : Bool} (mh : MemInv Q s) : MemInv Q (bundleEnd s n atomic) := by
  unfold bundleEnd
  exact (MemInv.ite (MemInv.ite (ccException_mem K (MemInv.mk (MemInv.of (flowNext_mem K (landDue_mem K (putCore_mem K mh)))))) (MemInv.mk (MemInv.of (flowNext_mem K (landDue_mem K (putCore_mem K mh)))))) (flowNext_mem K (landDue_mem K (putCore_mem K mh))))

theorem slotNext_mem {n : Nat} {h : SlotHead} {s : State} (mh : MemInv Q s) : MemInv Q (slotNext n h s) := by
  unfold slotNext
  exact (MemInv.ite (bundleEnd_mem K mh) mh)

theorem slotRun_mem {n : Nat} {hd : SlotHead} {bad : BasinEngine → Bool} {body : State → Nat → SlotOut} {s : State} (h : MemInv Q s)
    (hb : ∀ t n, MemInv Q t → MemInv Q (body t n).s) : MemInv Q (slotRun n hd bad body s) := by
  unfold slotRun
  split
  · have h1 : MemInv Q (bundleStart s n hd.atomic hd.rsv).2 := bundleStart_mem K h
    split
    · exact h
    next f s1 e => rw [e] at h1; exact slotFault_mem K h1
    next s1 e =>
      rw [e] at h1
      extract_lets c r
      have hr : MemInv Q r.s := hb _ _ h1
      split
      · exact slotFault_mem K h1
      · split
        · split
          · exact h
          · split
            · exact slotFault_mem K hr
            · split
              · exact hr
              · exact slotNext_mem K hr
        · exact slotNext_mem K h1
  · exact h

theorem coreRun_mem {be : Nat} {f : Nat → State → State} {s : State} (h : MemInv Q s) (hf : ∀ n t, MemInv Q t → MemInv Q (f n t)) :
    MemInv Q (coreRun be f s) := by
  unfold coreRun
  split
  · exact h
  · extract_lets s1
    split
    · exact hf _ _ (hf _ _ h)
    · exact hf _ _ h

theorem slot_mem {be : Fin 10} {hd : SlotHead} {bad : Nat → BasinEngine → Bool} {body : State → Nat → SlotOut} {s : State}
    (h : MemInv Q s) (hb : ∀ t n, MemInv Q t → MemInv Q (body t n).s) : MemInv Q (slot be hd bad body s) :=
  coreRun_mem K h fun _ _ ht => slotRun_mem K ht hb

theorem fxApply_mem {s : State} {n : Nat} {x : BasinFx} (mh : MemInv Q s) : MemInv Q (fxApply s n x) := by
  unfold fxApply
  exact (MemInv.ite (putCore_mem K mh) (State.raiseIf_mem K (State.raiseIf_mem K (putCore_mem K mh))))

theorem regBody_mem {f : Nat → BasinEngine → BasinFx} {s : State} {n : Nat} (mh : MemInv Q s) : MemInv Q (regBody f s n).s := by
  unfold regBody
  exact (MemInv.slotOut (fxApply_mem K mh))

end Sys2Proof.Machine
end

