-- ==== Sys2Proof/Laws/KeepBasinM.lean ====
section
/-! SUPPORT. The definitions of Machine/BasinM.lean keep what MemKeeps keeps. -/
namespace Sys2Proof.Machine

variable {Q : List Instr → Cells (BitVec 32) → Cells Word → Cells Byte → Cells (BitVec 32) → Cells (BitVec 2) → Cells (BitVec 2) → Cells Byte → Prop} (K : MemKeeps Q)
include K

set_option linter.unusedSectionVars false

theorem putDma_mem {s : State} {n ch : Nat} {c : DmaChannel} (mh : MemInv Q s) : MemInv Q (putDma s n ch c) := by
  unfold putDma
  exact (putCore_mem K mh)

theorem dmaStart_mem {s : State} {n ch : Nat} {w : Word} (mh : MemInv Q s) : MemInv Q (dmaStart s n ch w) := by
  unfold dmaStart
  exact (MemInv.ite (MemInv.ite (claimRefused_mem K (State.raise_mem K mh)) (State.raise_mem K mh)) (putDma_mem K (MemInv.ite (resTake_mem K mh) mh)))

theorem localPut_mem {s : State} {n a : Nat} {w : Word} (mh : MemInv Q s) : MemInv Q (localPut s n a w) := by
  unfold localPut
  exact (by
    refine MemInv.mk ?_
    try dsimp only
    exact (K.eccSet _ _ (MemInv.of (putCore_mem K mh))))

theorem engineWrite_mem {s : State} {n a : Nat} {w : Word} (mh : MemInv Q s) : MemInv Q (engineWrite s n a w) := by
  unfold engineWrite
  exact (by
    first | (extract_lets; split) | (dsimp only; split) | split
    · exact (localPut_mem K mh)
    · exact (dmaStart_mem K mh)
    · exact mh
    · exact mh
    · exact mh
    · exact mh)

theorem engineStore_mem {e : BasinEngine} {n : Nat} {s : State} {x : MAccess} (mh : MemInv Q s) : MemInv Q (engineStore e n s x) := by
  unfold engineStore
  exact (MemInv.ite (MemInv.foldl mh fun _ _ mh1 => (engineWrite_mem K mh1)) (MemInv.ite (MemInv.foldl mh fun _ _ mh1 => (engineWrite_mem K mh1)) mh))

theorem engineLoad_mem {n : Nat} {s : State} {x : MAccess} (mh : MemInv Q s) : MemInv Q (engineLoad n s x) := by
  unfold engineLoad
  exact (MemInv.ite mh (State.eccEvents_mem K (putCore_mem K mh)))

theorem engineBody_mem {plan : BasinEngine → MPlan} {s : State} {n : Nat} (mh : MemInv Q s) : MemInv Q (engineBody plan s n).s := by
  unfold engineBody
  exact (MemInv.iteS (MemInv.slotOut (putCore_mem K (MemInv.foldl (MemInv.foldl mh fun _ _ mh1 => (engineStore_mem K mh1)) fun _ _ mh1 => (engineLoad_mem K mh1)))) (MemInv.slotOut mh))

theorem ccData_mem {s : State} {x : MAccess} (mh : MemInv Q s) : MemInv Q (ccData s x).s := by
  unfold ccData
  exact (MemInv.iteS (MemInv.slotOut mh) (MemInv.iteS (MemInv.slotOut (accessRun_mem K mh)) (MemInv.iteS (MemInv.slotOut (accessRun_mem K mh)) (MemInv.slotOut (putCore_mem K (accessRun_mem K mh))))))

theorem ccDataAll_mem {s : State} {l : List MAccess} (h : MemInv Q s) : MemInv Q (ccDataAll s l).s := by
  induction l generalizing s with
  | nil => exact h
  | cons x t ih =>
    unfold ccDataAll
    extract_lets r
    have hr : MemInv Q r.s := ccData_mem K h
    split
    · exact hr
    · exact ih hr

theorem ccBody_mem {plan : BasinEngine → MPlan} {s : State} (h : MemInv Q s) : MemInv Q (ccBody plan s).s := by
  unfold ccBody
  extract_lets p r
  have hr : MemInv Q r.s := ccDataAll_mem K h
  split
  · exact hr
  · exact putCore_mem K hr

theorem memBody_mem {plan : BasinEngine → MPlan} {s : State} {n : Nat} (mh : MemInv Q s) : MemInv Q (memBody plan s n).s := by
  unfold memBody
  exact (MemInv.iteS (ccBody_mem K mh) (engineBody_mem K mh))

theorem execMnop_mem {be : Fin 10} {x : IdleSlot 4} {s : State} (mh : MemInv Q s) : MemOut Q (execMnop be x s) := by
  unfold execMnop
  exact (done_mem K (slot_mem K mh (fun _ _ mh1 => (regBody_mem K mh1))))

theorem execLds_mem {be : Fin 10} {h : SlotHead} {f : MSingle} {s : State} (mh : MemInv Q s) : MemOut Q (execLds be h f s) := by
  unfold execLds
  exact (done_mem K (slot_mem K mh (fun _ _ mh1 => (memBody_mem K mh1))))

theorem execSts_mem {be : Fin 10} {h : SlotHead} {f : MSingle} {s : State} (mh : MemInv Q s) : MemOut Q (execSts be h f s) := by
  unfold execSts
  exact (done_mem K (slot_mem K mh (fun _ _ mh1 => (memBody_mem K mh1))))

theorem execLdv_mem {be : Fin 10} {h : SlotHead} {f : MSingle} {s : State} (mh : MemInv Q s) : MemOut Q (execLdv be h f s) := by
  unfold execLdv
  exact (done_mem K (slot_mem K mh (fun _ _ mh1 => (memBody_mem K mh1))))

theorem execStv_mem {be : Fin 10} {h : SlotHead} {f : MSingle} {s : State} (mh : MemInv Q s) : MemOut Q (execStv be h f s) := by
  unfold execStv
  exact (done_mem K (slot_mem K mh (fun _ _ mh1 => (memBody_mem K mh1))))

theorem execLdbc_mem {be : Fin 10} {h : SlotHead} {f : MSingle} {s : State} (mh : MemInv Q s) : MemOut Q (execLdbc be h f s) := by
  unfold execLdbc
  exact (done_mem K (slot_mem K mh (fun _ _ mh1 => (memBody_mem K mh1))))

theorem execLd2v_mem {be : Fin 10} {h : SlotHead} {x1 x2 : MPair} {s : State} (mh : MemInv Q s) : MemOut Q (execLd2v be h x1 x2 s) := by
  unfold execLd2v
  exact (done_mem K (slot_mem K mh (fun _ _ mh1 => (memBody_mem K mh1))))

theorem execSt2v_mem {be : Fin 10} {h : SlotHead} {x1 x2 : MPair} {s : State} (mh : MemInv Q s) : MemOut Q (execSt2v be h x1 x2 s) := by
  unfold execSt2v
  exact (done_mem K (slot_mem K mh (fun _ _ mh1 => (memBody_mem K mh1))))

theorem execLsv_mem {be : Fin 10} {h : SlotHead} {x1 x2 : MPair} {s : State} (mh : MemInv Q s) : MemOut Q (execLsv be h x1 x2 s) := by
  unfold execLsv
  exact (done_mem K (slot_mem K mh (fun _ _ mh1 => (memBody_mem K mh1))))

theorem execLd2s_mem {be : Fin 10} {h : SlotHead} {x1 x2 : MPair} {s : State} (mh : MemInv Q s) : MemOut Q (execLd2s be h x1 x2 s) := by
  unfold execLd2s
  exact (done_mem K (slot_mem K mh (fun _ _ mh1 => (memBody_mem K mh1))))

theorem execLdbv_mem {be : Fin 10} {h : SlotHead} {f : MSingle} {s : State} (mh : MemInv Q s) : MemOut Q (execLdbv be h f s) := by
  unfold execLdbv
  exact (done_mem K (slot_mem K mh (fun _ _ mh1 => (memBody_mem K mh1))))

theorem execStbv_mem {be : Fin 10} {h : SlotHead} {f : MSingle} {s : State} (mh : MemInv Q s) : MemOut Q (execStbv be h f s) := by
  unfold execStbv
  exact (done_mem K (slot_mem K mh (fun _ _ mh1 => (memBody_mem K mh1))))

theorem execLdb8_mem {be : Fin 10} {h : SlotHead} {f : MSingle} {s : State} (mh : MemInv Q s) : MemOut Q (execLdb8 be h f s) := by
  unfold execLdb8
  exact (done_mem K (slot_mem K mh (fun _ _ mh1 => (memBody_mem K mh1))))

theorem execStb8_mem {be : Fin 10} {h : SlotHead} {f : MSingle} {s : State} (mh : MemInv Q s) : MemOut Q (execStb8 be h f s) := by
  unfold execStb8
  exact (done_mem K (slot_mem K mh (fun _ _ mh1 => (memBody_mem K mh1))))

end Sys2Proof.Machine
end

