-- ==== Sys2Proof/Laws/KeepBasinS.lean ====
section
/-! SUPPORT. The definitions of Machine/BasinS.lean keep what MemKeeps keeps. -/
namespace Sys2Proof.Machine

variable {Q : List Instr → Cells (BitVec 32) → Cells Word → Cells Byte → Cells (BitVec 32) → Cells (BitVec 2) → Cells (BitVec 2) → Cells Byte → Prop} (K : MemKeeps Q)
include K

set_option linter.unusedSectionVars false

theorem sBinary_mem {be : Fin 10} {h : SlotHead} {f : SlotR} {lat : Nat} {op : Word → Word → Word × Bool} {s : State} (mh : MemInv Q s) : MemInv Q (sBinary be h f lat op s) := by
  unfold sBinary
  exact (slot_mem K mh (fun _ _ mh1 => (regBody_mem K mh1)))

theorem sImmediate_mem {be : Fin 10} {h : SlotHead} {f : SlotI} {op : Word → Word → Word} {s : State} (mh : MemInv Q s) : MemInv Q (sImmediate be h f op s) := by
  unfold sImmediate
  exact (slot_mem K mh (fun _ _ mh1 => (regBody_mem K mh1)))

theorem sCompare_mem {be : Fin 10} {h : SlotHead} {f : SlotR} {op : Word → Word → Bool} {s : State} (mh : MemInv Q s) : MemInv Q (sCompare be h f op s) := by
  unfold sCompare
  exact (slot_mem K mh (fun _ _ mh1 => (regBody_mem K mh1)))

theorem sCompareImm_mem {be : Fin 10} {h : SlotHead} {f : SlotI} {op : Word → Word → Bool} {s : State} (mh : MemInv Q s) : MemInv Q (sCompareImm be h f op s) := by
  unfold sCompareImm
  exact (slot_mem K mh (fun _ _ mh1 => (regBody_mem K mh1)))

theorem branchRun_mem {be : Fin 10} {h : SlotHead} {bad : Nat → BasinEngine → Bool} {f : State → Nat → BasinEngine → BasinEngine}
    {s : State} (hs : MemInv Q s) : MemInv Q (branchRun be h bad f s) := by
  unfold branchRun
  exact slot_mem K hs fun _ _ ht => MemInv.slotOut (putCore_mem K ht)

theorem execSnop_mem {be : Fin 10} {x : IdleSlot 6} {s : State} (mh : MemInv Q s) : MemOut Q (execSnop be x s) := by
  unfold execSnop
  exact (done_mem K (slot_mem K mh (fun _ _ mh1 => (regBody_mem K mh1))))

theorem execBasinMov_mem {be : Fin 10} {h : SlotHead} {f : SlotR} {s : State} (mh : MemInv Q s) : MemOut Q (execBasinMov be h f s) := by
  unfold execBasinMov
  exact (done_mem K (sBinary_mem K mh))

theorem execBasinAdd_mem {be : Fin 10} {h : SlotHead} {f : SlotR} {s : State} (mh : MemInv Q s) : MemOut Q (execBasinAdd be h f s) := by
  unfold execBasinAdd
  exact (done_mem K (sBinary_mem K mh))

theorem execBasinSub_mem {be : Fin 10} {h : SlotHead} {f : SlotR} {s : State} (mh : MemInv Q s) : MemOut Q (execBasinSub be h f s) := by
  unfold execBasinSub
  exact (done_mem K (sBinary_mem K mh))

theorem execAddi_mem {be : Fin 10} {h : SlotHead} {f : SlotI} {s : State} (mh : MemInv Q s) : MemOut Q (execAddi be h f s) := by
  unfold execAddi
  exact (done_mem K (sImmediate_mem K mh))

theorem execLdi_mem {be : Fin 10} {h : SlotHead} {f : SlotI} {s : State} (mh : MemInv Q s) : MemOut Q (execLdi be h f s) := by
  unfold execLdi
  exact (done_mem K (sImmediate_mem K mh))

theorem execLdih_mem {be : Fin 10} {h : SlotHead} {f : SlotI} {s : State} (mh : MemInv Q s) : MemOut Q (execLdih be h f s) := by
  unfold execLdih
  exact (done_mem K (sImmediate_mem K mh))

theorem execBasinAnd_mem {be : Fin 10} {h : SlotHead} {f : SlotR} {s : State} (mh : MemInv Q s) : MemOut Q (execBasinAnd be h f s) := by
  unfold execBasinAnd
  exact (done_mem K (sBinary_mem K mh))

theorem execBasinOr_mem {be : Fin 10} {h : SlotHead} {f : SlotR} {s : State} (mh : MemInv Q s) : MemOut Q (execBasinOr be h f s) := by
  unfold execBasinOr
  exact (done_mem K (sBinary_mem K mh))

theorem execBasinXor_mem {be : Fin 10} {h : SlotHead} {f : SlotR} {s : State} (mh : MemInv Q s) : MemOut Q (execBasinXor be h f s) := by
  unfold execBasinXor
  exact (done_mem K (sBinary_mem K mh))

theorem execAndi_mem {be : Fin 10} {h : SlotHead} {f : SlotI} {s : State} (mh : MemInv Q s) : MemOut Q (execAndi be h f s) := by
  unfold execAndi
  exact (done_mem K (sImmediate_mem K mh))

theorem execBasinShl_mem {be : Fin 10} {h : SlotHead} {f : SlotR} {s : State} (mh : MemInv Q s) : MemOut Q (execBasinShl be h f s) := by
  unfold execBasinShl
  exact (done_mem K (sBinary_mem K mh))

theorem execBasinShr_mem {be : Fin 10} {h : SlotHead} {f : SlotR} {s : State} (mh : MemInv Q s) : MemOut Q (execBasinShr be h f s) := by
  unfold execBasinShr
  exact (done_mem K (sBinary_mem K mh))

theorem execSra_mem {be : Fin 10} {h : SlotHead} {f : SlotR} {s : State} (mh : MemInv Q s) : MemOut Q (execSra be h f s) := by
  unfold execSra
  exact (done_mem K (sBinary_mem K mh))

theorem execAdds_mem {be : Fin 10} {h : SlotHead} {f : SlotR} {s : State} (mh : MemInv Q s) : MemOut Q (execAdds be h f s) := by
  unfold execAdds
  exact (done_mem K (sBinary_mem K mh))

theorem execSubs_mem {be : Fin 10} {h : SlotHead} {f : SlotR} {s : State} (mh : MemInv Q s) : MemOut Q (execSubs be h f s) := by
  unfold execSubs
  exact (done_mem K (sBinary_mem K mh))

theorem execBasinMin_mem {be : Fin 10} {h : SlotHead} {f : SlotR} {s : State} (mh : MemInv Q s) : MemOut Q (execBasinMin be h f s) := by
  unfold execBasinMin
  exact (done_mem K (sBinary_mem K mh))

theorem execBasinMax_mem {be : Fin 10} {h : SlotHead} {f : SlotR} {s : State} (mh : MemInv Q s) : MemOut Q (execBasinMax be h f s) := by
  unfold execBasinMax
  exact (done_mem K (sBinary_mem K mh))

theorem execMulf_mem {be : Fin 10} {h : SlotHead} {f : SlotR} {s : State} (mh : MemInv Q s) : MemOut Q (execMulf be h f s) := by
  unfold execMulf
  exact (done_mem K (sBinary_mem K mh))

theorem execMuli_mem {be : Fin 10} {h : SlotHead} {f : SlotR} {s : State} (mh : MemInv Q s) : MemOut Q (execMuli be h f s) := by
  unfold execMuli
  exact (done_mem K (sBinary_mem K mh))

theorem execCls_mem {be : Fin 10} {h : SlotHead} {f : SlotR} {s : State} (mh : MemInv Q s) : MemOut Q (execCls be h f s) := by
  unfold execCls
  exact (done_mem K (sBinary_mem K mh))

theorem execBasinCmpeq_mem {be : Fin 10} {h : SlotHead} {f : SlotR} {s : State} (mh : MemInv Q s) : MemOut Q (execBasinCmpeq be h f s) := by
  unfold execBasinCmpeq
  exact (done_mem K (sCompare_mem K mh))

theorem execBasinCmplt_mem {be : Fin 10} {h : SlotHead} {f : SlotR} {s : State} (mh : MemInv Q s) : MemOut Q (execBasinCmplt be h f s) := by
  unfold execBasinCmplt
  exact (done_mem K (sCompare_mem K mh))

theorem execCmpltu_mem {be : Fin 10} {h : SlotHead} {f : SlotR} {s : State} (mh : MemInv Q s) : MemOut Q (execCmpltu be h f s) := by
  unfold execCmpltu
  exact (done_mem K (sCompare_mem K mh))

theorem execBasinCmple_mem {be : Fin 10} {h : SlotHead} {f : SlotR} {s : State} (mh : MemInv Q s) : MemOut Q (execBasinCmple be h f s) := by
  unfold execBasinCmple
  exact (done_mem K (sCompare_mem K mh))

theorem execCmpeqi_mem {be : Fin 10} {h : SlotHead} {f : SlotI} {s : State} (mh : MemInv Q s) : MemOut Q (execCmpeqi be h f s) := by
  unfold execCmpeqi
  exact (done_mem K (sCompareImm_mem K mh))

theorem execCmplti_mem {be : Fin 10} {h : SlotHead} {f : SlotI} {s : State} (mh : MemInv Q s) : MemOut Q (execCmplti be h f s) := by
  unfold execCmplti
  exact (done_mem K (sCompareImm_mem K mh))

theorem execBasinPlog_mem {be : Fin 10} {h : SlotHead} {f : SlotR} {s : State} (mh : MemInv Q s) : MemOut Q (execBasinPlog be h f s) := by
  unfold execBasinPlog
  exact (done_mem K (slot_mem K mh (fun _ _ mh1 => (regBody_mem K mh1))))

theorem execMfc_mem {be : Fin 10} {h : SlotHead} {f : SlotR} {s : State} (mh : MemInv Q s) : MemOut Q (execMfc be h f s) := by
  unfold execMfc
  exact (done_mem K (slot_mem K mh (fun _ _ mh1 => (MemInv.slotOut (fxApply_mem K mh1)))))

theorem execMtc_mem {be : Fin 10} {h : SlotHead} {f : SlotR} {s : State} (mh : MemInv Q s) : MemOut Q (execMtc be h f s) := by
  unfold execMtc
  exact (done_mem K (slot_mem K mh (fun _ _ mh1 => (regBody_mem K mh1))))

theorem execMset_mem {be : Fin 10} {h : SlotHead} {f : SlotR} {s : State} (mh : MemInv Q s) : MemOut Q (execMset be h f s) := by
  unfold execMset
  exact (done_mem K (slot_mem K mh (fun _ _ mh1 => (regBody_mem K mh1))))

theorem execMget_mem {be : Fin 10} {h : SlotHead} {f : SlotR} {s : State} (mh : MemInv Q s) : MemOut Q (execMget be h f s) := by
  unfold execMget
  exact (done_mem K (slot_mem K mh (fun _ _ mh1 => (MemInv.slotOut (fxApply_mem K (MemInv.ite2 (MemInv.pair2 (State.takeFree_mem K mh1)) (MemInv.pair2 mh1)))))))

theorem execBr_mem {be : Fin 10} {h : SlotHead} {f : SlotB} {s : State} (mh : MemInv Q s) : MemOut Q (execBr be h f s) := by
  unfold execBr
  exact (done_mem K (branchRun_mem K mh))

theorem execBrl_mem {be : Fin 10} {h : SlotHead} {f : SlotB} {s : State} (mh : MemInv Q s) : MemOut Q (execBrl be h f s) := by
  unfold execBrl
  exact (done_mem K (branchRun_mem K mh))

theorem execBrr_mem {be : Fin 10} {h : SlotHead} {f : SlotR} {s : State} (mh : MemInv Q s) : MemOut Q (execBrr be h f s) := by
  unfold execBrr
  exact (done_mem K (branchRun_mem K mh))

theorem execBrt_mem {be : Fin 10} {h : SlotHead} {f : SlotB} {s : State} (mh : MemInv Q s) : MemOut Q (execBrt be h f s) := by
  unfold execBrt
  exact (done_mem K (branchRun_mem K mh))

theorem execTrap_mem {be : Fin 10} {h : SlotHead} {s : State} (mh : MemInv Q s) : MemOut Q (execTrap be h s) := by
  unfold execTrap
  exact (done_mem K (slot_mem K mh (fun _ _ mh1 => (MemInv.slotOut (MemInv.mk (MemInv.of mh1))))))

theorem execRfe_mem {be : Fin 10} {h : SlotHead} {s : State} (mh : MemInv Q s) : MemOut Q (execRfe be h s) := by
  unfold execRfe
  exact (done_mem K (branchRun_mem K mh))

end Sys2Proof.Machine
end

