-- ==== Sys2Proof/Laws/KeepBasinV.lean ====
section
/-! SUPPORT. The definitions of Machine/BasinV.lean keep what MemKeeps keeps. -/
namespace Sys2Proof.Machine

variable {Q : List Instr → Cells (BitVec 32) → Cells Word → Cells Byte → Cells (BitVec 32) → Cells (BitVec 2) → Cells (BitVec 2) → Cells Byte → Prop} (K : MemKeeps Q)
include K

set_option linter.unusedSectionVars false

theorem vOp_mem {be : Fin 10} {h : SlotHead} {f : VFields} {lat : Nat} {op : BasinEngine → Nat → Word × Bool} {s : State} (mh : MemInv Q s) : MemInv Q (vOp be h f lat op s) := by
  unfold vOp
  exact (slot_mem K mh (fun _ _ mh1 => (regBody_mem K mh1)))

theorem vOpNoise_mem {be : Fin 10} {h : SlotHead} {f : VFields} {lat : Nat} {noise : BasinEngine → Bool} {op : BasinEngine → Nat → Word × Bool} {s : State} (mh : MemInv Q s) : MemInv Q (vOpNoise be h f lat noise op s) := by
  unfold vOpNoise
  exact (slot_mem K mh (fun _ _ mh1 => (regBody_mem K mh1)))

theorem vAccOp_mem {be : Fin 10} {h : SlotHead} {f : VFields} {op : BasinEngine → Nat → AccReg → AccReg × Bool} {s : State} (mh : MemInv Q s) : MemInv Q (vAccOp be h f op s) := by
  unfold vAccOp
  exact (slot_mem K mh (fun _ _ mh1 => (regBody_mem K mh1)))

theorem vCompare_mem {be : Fin 10} {h : SlotHead} {f : VFields} {op : Int → Int → Bool} {s : State} (mh : MemInv Q s) : MemInv Q (vCompare be h f op s) := by
  unfold vCompare
  exact (slot_mem K mh (fun _ _ mh1 => (regBody_mem K mh1)))

theorem execVnop_mem {be : Fin 10} {x : IdleSlot 7} {s : State} (mh : MemInv Q s) : MemOut Q (execVnop be x s) := by
  unfold execVnop
  exact (done_mem K (slot_mem K mh (fun _ _ mh1 => (regBody_mem K mh1))))

theorem execVmov_mem {be : Fin 10} {h : SlotHead} {f : VFields} {s : State} (mh : MemInv Q s) : MemOut Q (execVmov be h f s) := by
  unfold execVmov
  exact (done_mem K (vOp_mem K mh))

theorem execVadd_mem {be : Fin 10} {h : SlotHead} {f : VFields} {s : State} (mh : MemInv Q s) : MemOut Q (execVadd be h f s) := by
  unfold execVadd
  exact (done_mem K (vOp_mem K mh))

theorem execVsub_mem {be : Fin 10} {h : SlotHead} {f : VFields} {s : State} (mh : MemInv Q s) : MemOut Q (execVsub be h f s) := by
  unfold execVsub
  exact (done_mem K (vOp_mem K mh))

theorem execVcadd_mem {be : Fin 10} {h : SlotHead} {f : VFields} {s : State} (mh : MemInv Q s) : MemOut Q (execVcadd be h f s) := by
  unfold execVcadd
  exact (done_mem K (vOp_mem K mh))

theorem execVcsub_mem {be : Fin 10} {h : SlotHead} {f : VFields} {s : State} (mh : MemInv Q s) : MemOut Q (execVcsub be h f s) := by
  unfold execVcsub
  exact (done_mem K (vOp_mem K mh))

theorem execVconj_mem {be : Fin 10} {h : SlotHead} {f : VFields} {s : State} (mh : MemInv Q s) : MemOut Q (execVconj be h f s) := by
  unfold execVconj
  exact (done_mem K (vOp_mem K mh))

theorem execVneg_mem {be : Fin 10} {h : SlotHead} {f : VFields} {s : State} (mh : MemInv Q s) : MemOut Q (execVneg be h f s) := by
  unfold execVneg
  exact (done_mem K (vOp_mem K mh))

theorem execVmax_mem {be : Fin 10} {h : SlotHead} {f : VFields} {s : State} (mh : MemInv Q s) : MemOut Q (execVmax be h f s) := by
  unfold execVmax
  exact (done_mem K (vOp_mem K mh))

theorem execVmin_mem {be : Fin 10} {h : SlotHead} {f : VFields} {s : State} (mh : MemInv Q s) : MemOut Q (execVmin be h f s) := by
  unfold execVmin
  exact (done_mem K (vOp_mem K mh))

theorem execVsel_mem {be : Fin 10} {h : SlotHead} {f : VFields} {s : State} (mh : MemInv Q s) : MemOut Q (execVsel be h f s) := by
  unfold execVsel
  exact (done_mem K (vOp_mem K mh))

theorem execVperm_mem {be : Fin 10} {h : SlotHead} {f : VFields} {s : State} (mh : MemInv Q s) : MemOut Q (execVperm be h f s) := by
  unfold execVperm
  exact (done_mem K (vOp_mem K mh))

theorem execVbcast_mem {be : Fin 10} {h : SlotHead} {f : VFields} {s : State} (mh : MemInv Q s) : MemOut Q (execVbcast be h f s) := by
  unfold execVbcast
  exact (done_mem K (vOp_mem K mh))

theorem execVext_mem {be : Fin 10} {h : SlotHead} {f : VFields} {s : State} (mh : MemInv Q s) : MemOut Q (execVext be h f s) := by
  unfold execVext
  exact (done_mem K (slot_mem K mh (fun _ _ mh1 => (regBody_mem K mh1))))

theorem execVcmplt_mem {be : Fin 10} {h : SlotHead} {f : VFields} {s : State} (mh : MemInv Q s) : MemOut Q (execVcmplt be h f s) := by
  unfold execVcmplt
  exact (done_mem K (vCompare_mem K mh))

theorem execVcmple_mem {be : Fin 10} {h : SlotHead} {f : VFields} {s : State} (mh : MemInv Q s) : MemOut Q (execVcmple be h f s) := by
  unfold execVcmple
  exact (done_mem K (vCompare_mem K mh))

theorem execVscale_mem {be : Fin 10} {h : SlotHead} {f : VFields} {s : State} (mh : MemInv Q s) : MemOut Q (execVscale be h f s) := by
  unfold execVscale
  exact (done_mem K (vOpNoise_mem K mh))

theorem execVnorm_mem {be : Fin 10} {h : SlotHead} {f : VFields} {s : State} (mh : MemInv Q s) : MemOut Q (execVnorm be h f s) := by
  unfold execVnorm
  exact (done_mem K (slot_mem K mh (fun _ _ mh1 => (regBody_mem K mh1))))

theorem execVabs2_mem {be : Fin 10} {h : SlotHead} {f : VFields} {s : State} (mh : MemInv Q s) : MemOut Q (execVabs2 be h f s) := by
  unfold execVabs2
  exact (done_mem K (vOp_mem K mh))

theorem execVrcp_mem {be : Fin 10} {h : SlotHead} {f : VFields} {s : State} (mh : MemInv Q s) : MemOut Q (execVrcp be h f s) := by
  unfold execVrcp
  exact (done_mem K (vOp_mem K mh))

theorem execVmac_mem {be : Fin 10} {h : SlotHead} {f : VFields} {s : State} (mh : MemInv Q s) : MemOut Q (execVmac be h f s) := by
  unfold execVmac
  exact (done_mem K (vAccOp_mem K mh))

theorem execVcmac_mem {be : Fin 10} {h : SlotHead} {f : VFields} {s : State} (mh : MemInv Q s) : MemOut Q (execVcmac be h f s) := by
  unfold execVcmac
  exact (done_mem K (vAccOp_mem K mh))

theorem execVcmacj_mem {be : Fin 10} {h : SlotHead} {f : VFields} {s : State} (mh : MemInv Q s) : MemOut Q (execVcmacj be h f s) := by
  unfold execVcmacj
  exact (done_mem K (vAccOp_mem K mh))

theorem execVtapm_mem {be : Fin 10} {h : SlotHead} {f : VFields} {s : State} (mh : MemInv Q s) : MemOut Q (execVtapm be h f s) := by
  unfold execVtapm
  exact (done_mem K (slot_mem K mh (fun _ _ mh1 => (regBody_mem K mh1))))

theorem execVmulr_mem {be : Fin 10} {h : SlotHead} {f : VFields} {s : State} (mh : MemInv Q s) : MemOut Q (execVmulr be h f s) := by
  unfold execVmulr
  exact (done_mem K (vOpNoise_mem K mh))

theorem execVcmulr_mem {be : Fin 10} {h : SlotHead} {f : VFields} {s : State} (mh : MemInv Q s) : MemOut Q (execVcmulr be h f s) := by
  unfold execVcmulr
  exact (done_mem K (vOpNoise_mem K mh))

theorem execVcmuljr_mem {be : Fin 10} {h : SlotHead} {f : VFields} {s : State} (mh : MemInv Q s) : MemOut Q (execVcmuljr be h f s) := by
  unfold execVcmuljr
  exact (done_mem K (vOpNoise_mem K mh))

theorem execVsta_mem {be : Fin 10} {h : SlotHead} {f : VFields} {s : State} (mh : MemInv Q s) : MemOut Q (execVsta be h f s) := by
  unfold execVsta
  exact (done_mem K (vOpNoise_mem K mh))

theorem execVstax_mem {be : Fin 10} {h : SlotHead} {f : VFields} {s : State} (mh : MemInv Q s) : MemOut Q (execVstax be h f s) := by
  unfold execVstax
  exact (done_mem K (vOpNoise_mem K mh))

theorem execVlda_mem {be : Fin 10} {h : SlotHead} {f : VFields} {s : State} (mh : MemInv Q s) : MemOut Q (execVlda be h f s) := by
  unfold execVlda
  exact (done_mem K (vAccOp_mem K mh))

theorem execVldax_mem {be : Fin 10} {h : SlotHead} {f : VFields} {s : State} (mh : MemInv Q s) : MemOut Q (execVldax be h f s) := by
  unfold execVldax
  exact (done_mem K (vAccOp_mem K mh))

theorem execVaclr_mem {be : Fin 10} {h : SlotHead} {f : VFields} {s : State} (mh : MemInv Q s) : MemOut Q (execVaclr be h f s) := by
  unfold execVaclr
  exact (done_mem K (vAccOp_mem K mh))

theorem execVnlmsu_mem {be : Fin 10} {h : SlotHead} {f : VFields} {s : State} (mh : MemInv Q s) : MemOut Q (execVnlmsu be h f s) := by
  unfold execVnlmsu
  exact (done_mem K (vOp_mem K mh))

theorem execVtw_mem {be : Fin 10} {h : SlotHead} {f : VFields} {s : State} (mh : MemInv Q s) : MemOut Q (execVtw be h f s) := by
  unfold execVtw
  exact (done_mem K (vOp_mem K mh))

theorem execVbf4_mem {be : Fin 10} {h : SlotHead} {f : VFields} {s : State} (mh : MemInv Q s) : MemOut Q (execVbf4 be h f s) := by
  unfold execVbf4
  exact (done_mem K (slot_mem K mh (fun _ _ mh1 => (regBody_mem K mh1))))

end Sys2Proof.Machine
end

