-- ==== Sys2Proof/Laws/KeepHostCmd.lean ====
section
/-! SUPPORT. The definitions of Machine/HostCmd.lean keep what MemKeeps keeps. -/
namespace Sys2Proof.Machine

variable {Q : List Instr → Cells (BitVec 32) → Cells Word → Cells Byte → Cells (BitVec 32) → Cells (BitVec 2) → Cells (BitVec 2) → Cells Byte → Prop} (K : MemKeeps Q)
include K

set_option linter.unusedSectionVars false

theorem cmdFetch_mem {s : State} {g : Command} (mh : MemInv Q s) : MemInv Q (cmdFetch s g).2 := by
  unfold cmdFetch
  exact (MemInv.ite2 (MemInv.pair2 mh) (MemInv.ite2 (MemInv.pair2 (hostGet_mem K mh)) (MemInv.ite2 (MemInv.pair2 (ringFail_mem K (hostGet_mem K mh))) (MemInv.ite2 (MemInv.pair2 (hostGet_mem K mh)) (MemInv.pair2 mh)))))

theorem cmdComplete_mem {s : State} {opcode : Nat} {tag : BitVec 16} {status d0 d1 : Nat} {frame : BitVec 64} (mh : MemInv Q s) : MemInv Q (cmdComplete s opcode tag status d0 d1 frame) := by
  unfold cmdComplete
  exact (ringAdvance_mem K (ringRecord_mem K mh))

theorem cmdStart_mem {s : State} {g : Command} {wait : Command → State → Bool} {run : Command → State → State} (h : MemInv Q s)
    (hb : ∀ c t, MemInv Q t → MemInv Q (run c t)) : MemInv Q (cmdStart s g wait run) := by
  have hf : MemInv Q (cmdFetch s g).2 := cmdFetch_mem K h
  unfold cmdStart
  split
  · generalize cmdFetch s g = x at hf
    obtain ⟨o, t⟩ := x
    cases o with
    | none => exact hf
    | some c =>
      dsimp only
      split
      · exact cmdComplete_mem K hf
      · split
        · exact h
        · exact hb _ _ hf
  · exact h

theorem cmdRun_mem {s : State} {g : Command} {wait : Command → State → Bool} {body : Command → State → CmdResult} (h : MemInv Q s)
    (hb : ∀ c t, MemInv Q t → MemInv Q (body c t).st) : MemInv Q (cmdRun s g wait body) :=
  cmdStart_mem K h fun _ _ ht => cmdComplete_mem K (hb _ _ ht)

theorem cmdAnswer_mem {s : State} {status : Nat} (h : MemInv Q s) : MemInv Q (cmdAnswer s status).st := h

theorem loadWords_mem {s : State} {a i : Nat} {l : List Word} (h : MemInv Q s) : MemInv Q (loadWords s a i l).2 := by
  induction l generalizing s i with
  | nil => exact h
  | cons w t ih =>
    have h1 := xWriteWord_mem K (m := masterHost) (a := a + i) (w := w) h
    unfold loadWords
    extract_lets r
    split
    · exact h1
    · exact ih h1

theorem readWords_mem {s : State} {a i n : Nat} (h : MemInv Q s) : MemInv Q (readWords s a i n).2.2 := by
  induction n generalizing s i with
  | zero => exact h
  | succ n ih =>
    have h1 := xReadWord_mem K (m := masterHost) (a := a + i) h
    unfold readWords
    extract_lets r
    split
    · exact h1
    · exact ih h1

theorem loadBytes_mem {s : State} {moved : Nat} {bs : List Byte} {l : List (Nat × Nat)} (h : MemInv Q s) :
    MemInv Q (loadBytes s moved bs l).2 := by
  induction l generalizing s moved bs with
  | nil => exact h
  | cons c t ih =>
    have h1 := yardWriteBytes_mem K (master := masterHost) (o := c.1) (bs := bs.take c.2) h
    unfold loadBytes
    extract_lets r
    split
    · exact h1
    · exact ih h1

theorem readBytes_mem {s : State} {moved : Nat} {l : List (Nat × Nat)} (h : MemInv Q s) : MemInv Q (readBytes s moved l).2.2 := by
  induction l generalizing s moved with
  | nil => exact h
  | cons c t ih =>
    have h1 := yardReadBytes_mem K (master := masterHost) (o := c.1) (n := c.2) h
    unfold readBytes
    extract_lets r
    split
    · exact h1
    · exact ih h1

theorem cmdBuffer_mem {s : State} {addr : BitVec 64} {n : Nat} {data : List Byte} (mh : MemInv Q s) : MemInv Q (cmdBuffer s addr n data).2.2 := by
  unfold cmdBuffer
  exact (MemInv.ite22 (by
    first | (extract_lets; split) | (dsimp only; split) | split
    · exact (readBytes_mem K mh)
    · exact (MemInv.pair22 (MemInv.pair2 (defaultTarget_mem K mh)))) (MemInv.pair22 (MemInv.pair2 (tagsNote_mem K mh))))

theorem withBuffer_mem {s : State} {addr : BitVec 64} {n : Nat} {data : List Byte} {body : List Byte → State → CmdResult}
    (h : MemInv Q s) (hb : ∀ bs t, MemInv Q t → MemInv Q (body bs t).st) : MemInv Q (withBuffer s addr n data body).st := by
  have hc : MemInv Q (cmdBuffer s addr n data).2.2 := cmdBuffer_mem K h
  unfold withBuffer
  extract_lets b
  split
  · exact hc
  · exact hb _ _ hc

theorem moveStatus_mem {i : Option Nat} {s : State} (h : MemInv Q s) : MemInv Q (moveStatus i s).st := by
  unfold moveStatus
  split
  · exact h
  · exact h

theorem cmdLoadWords_mem {s : State} {a n : Nat} {addr : BitVec 64} {data : List Byte} (mh : MemInv Q s) : MemInv Q (cmdLoadWords s a n addr data).st := by
  unfold cmdLoadWords
  exact (MemInv.iteR (withBuffer_mem K mh (fun _ _ mh1 => (moveStatus_mem K (loadWords_mem K mh1)))) (cmdAnswer_mem K mh))

theorem cmdReadWords_mem {s : State} {a n : Nat} {addr : BitVec 64} (mh : MemInv Q s) : MemInv Q (cmdReadWords s a n addr).st := by
  unfold cmdReadWords
  exact (MemInv.iteR (moveStatus_mem K (hostPut_mem K (readWords_mem K mh))) (cmdAnswer_mem K mh))

theorem cmdLoadBytes_mem {s : State} {a n : Nat} {addr : BitVec 64} {data : List Byte} (mh : MemInv Q s) : MemInv Q (cmdLoadBytes s a n addr data).st := by
  unfold cmdLoadBytes
  exact (MemInv.iteR (withBuffer_mem K mh (fun _ _ mh1 => (moveStatus_mem K (loadBytes_mem K mh1)))) (cmdAnswer_mem K mh))

theorem cmdReadBytes_mem {s : State} {a n : Nat} {addr : BitVec 64} (mh : MemInv Q s) : MemInv Q (cmdReadBytes s a n addr).st := by
  unfold cmdReadBytes
  exact (MemInv.iteR (moveStatus_mem K (hostPut_mem K (readBytes_mem K mh))) (MemInv.iteR (cmdAnswer_mem K (hostPut_mem K mh)) (cmdAnswer_mem K mh)))

theorem commitComplete_mem {s : State} {h : CommitWait} (mh : MemInv Q s) : MemInv Q (commitComplete s h) := by
  unfold commitComplete
  exact (MemInv.ite (cmdComplete_mem K (MemInv.mk (MemInv.of mh))) (MemInv.ite (cmdComplete_mem K (MemInv.mk (MemInv.of mh))) (cmdComplete_mem K (MemInv.mk (MemInv.of mh)))))

theorem cmdCommit_mem {s : State} {tag : BitVec 16} {mask : BitVec 64} {g : BitVec 4} {wait : Bool} (mh : MemInv Q s) : MemInv Q (cmdCommit s tag mask g wait) := by
  unfold cmdCommit
  exact (MemInv.ite (commitComplete_mem K (MemInv.foldl mh fun _ _ mh1 => (MemInv.ite (commitCommand_mem K mh1) mh1))) (MemInv.mk (MemInv.of (MemInv.foldl mh fun _ _ mh1 => (MemInv.ite (commitCommand_mem K mh1) mh1)))))

theorem commitWaitEnd_mem {s : State} (mh : MemInv Q s) : MemInv Q (commitWaitEnd s) := by
  unfold commitWaitEnd
  exact (by
    first | (extract_lets; split) | (dsimp only; split) | split
    · exact (MemInv.ite (commitComplete_mem K mh) mh)
    · exact mh)

theorem cmdModeSet_mem {s : State} {tag : BitVec 16} {m : BitVec 3} {fam : Bool} {g : BitVec 4} (mh : MemInv Q s) : MemInv Q (cmdModeSet s tag m fam g) := by
  unfold cmdModeSet
  exact (MemInv.ite (modeRequest_mem K (cmdComplete_mem K mh)) (cmdComplete_mem K (modeRequest_mem K mh)))

theorem cmdPolicyLoad_mem {s : State} {n : Nat} {addr : BitVec 64} {data : List Byte} (mh : MemInv Q s) : MemInv Q (cmdPolicyLoad s n addr data).st := by
  unfold cmdPolicyLoad
  exact (withBuffer_mem K mh (fun _ _ mh1 => (by
    first | (extract_lets; split) | (dsimp only; split) | split
    · exact (MemInv.cmdResult (policyLoad_mem K mh1))
    · exact (cmdAnswer_mem K (policyLoad_mem K mh1)))))

theorem flashStep_mem {s : State} {a : Nat} {bs : List Byte} {erase : Bool} (mh : MemInv Q s) : MemInv Q (flashStep s a bs erase).2 := by
  unfold flashStep
  exact (MemInv.pair2 (flashDone_mem K (flashCommand_mem K (MemInv.ite (State.setReg_mem K mh) (MemInv.foldl (State.setReg_mem K mh) fun _ _ mh1 => (State.setReg_mem K mh1))))))

theorem flashRun_mem {s : State} {a : Nat} {bs : List Byte} {erase : Bool} {l : List Nat} (h : MemInv Q s) :
    MemInv Q (flashRun s a bs erase l).2 := by
  induction l generalizing s with
  | nil => exact h
  | cons o t ih =>
    have h1 := flashStep_mem K (a := a + o) (bs := (bs.drop o).take 16) (erase := erase) h
    unfold flashRun
    extract_lets r
    split
    · exact h1
    · exact ih h1

theorem cmdFlashProgram_mem {s : State} {a n : Nat} {addr : BitVec 64} {data : List Byte} (mh : MemInv Q s) : MemInv Q (cmdFlashProgram s a n addr data).st := by
  unfold cmdFlashProgram
  exact (by
    first | (extract_lets; split) | (dsimp only; split) | split
    · exact (MemInv.cmdResult mh)
    · exact (withBuffer_mem K mh (fun _ _ mh1 => (moveStatus_mem K (flashRun_mem K mh1)))))

theorem cmdFlashErase_mem {s : State} {a n : Nat} (mh : MemInv Q s) : MemInv Q (cmdFlashErase s a n).st := by
  unfold cmdFlashErase
  exact (by
    first | (extract_lets; split) | (dsimp only; split) | split
    · exact (MemInv.cmdResult mh)
    · exact (moveStatus_mem K (flashRun_mem K mh)))

theorem execNopCommand_mem {opcode tag : BitVec 16} {s : State} (mh : MemInv Q s) : MemOut Q (execNopCommand opcode tag s) := by
  unfold execNopCommand
  exact (done_mem K (MemInv.ite (cmdRun_mem K mh (fun _ _ mh1 => (cmdAnswer_mem K mh1))) (MemInv.ite mh (cmdRun_mem K mh (fun _ _ mh1 => (cmdAnswer_mem K mh1))))))

theorem execIdentify_mem {tag : BitVec 16} {addr : BitVec 64} {s : State} (mh : MemInv Q s) : MemOut Q (execIdentify tag addr s) := by
  unfold execIdentify
  exact (done_mem K (cmdRun_mem K mh (fun _ _ mh1 => (cmdAnswer_mem K (hostPut_mem K mh1)))))

theorem execLoadWords_mem {tag : BitVec 16} {arg0 len : BitVec 32} {addr : BitVec 64} {data : List Byte} {s : State} (mh : MemInv Q s) : MemOut Q (execLoadWords tag arg0 len addr data s) := by
  unfold execLoadWords
  exact (done_mem K (cmdRun_mem K mh (fun _ _ mh1 => (cmdLoadWords_mem K mh1))))

theorem execReadWords_mem {tag : BitVec 16} {arg0 len : BitVec 32} {addr : BitVec 64} {s : State} (mh : MemInv Q s) : MemOut Q (execReadWords tag arg0 len addr s) := by
  unfold execReadWords
  exact (done_mem K (cmdRun_mem K mh (fun _ _ mh1 => (cmdReadWords_mem K mh1))))

theorem execLoadBytes_mem {tag : BitVec 16} {arg0 len : BitVec 32} {addr : BitVec 64} {data : List Byte} {s : State} (mh : MemInv Q s) : MemOut Q (execLoadBytes tag arg0 len addr data s) := by
  unfold execLoadBytes
  exact (done_mem K (cmdRun_mem K mh (fun _ _ mh1 => (cmdLoadBytes_mem K mh1))))

theorem execReadBytes_mem {tag : BitVec 16} {arg0 len : BitVec 32} {addr : BitVec 64} {s : State} (mh : MemInv Q s) : MemOut Q (execReadBytes tag arg0 len addr s) := by
  unfold execReadBytes
  exact (done_mem K (cmdRun_mem K mh (fun _ _ mh1 => (cmdReadBytes_mem K mh1))))

theorem execCommitCommand_mem {tag : BitVec 16} {mask : BitVec 64} {group : BitVec 4} {wait : Bool} {s : State} (mh : MemInv Q s) : MemOut Q (execCommitCommand tag mask group wait s) := by
  unfold execCommitCommand
  exact (done_mem K (cmdStart_mem K mh (fun _ _ mh1 => (cmdCommit_mem K mh1))))

theorem execCommitWaitCompletion_mem {s : State} (mh : MemInv Q s) : MemOut Q (execCommitWaitCompletion s) := by
  unfold execCommitWaitCompletion
  exact (done_mem K (commitWaitEnd_mem K mh))

theorem cmdGroupMask_mem {s : State} {arg0 arg1 : BitVec 32} {group : BitVec 4} (mh : MemInv Q s) : MemInv Q (cmdGroupMask s arg0 arg1 group).st := by
  unfold cmdGroupMask
  exact (MemInv.iteR (cmdAnswer_mem K mh) (cmdAnswer_mem K (State.setReg_mem K (State.setReg_mem K mh))))

theorem execGroupMask_mem {tag : BitVec 16} {arg0 arg1 : BitVec 32} {group : BitVec 4} {s : State} (mh : MemInv Q s) : MemOut Q (execGroupMask tag arg0 arg1 group s) := by
  unfold execGroupMask
  exact (done_mem K (cmdRun_mem K mh (fun _ _ mh1 => (cmdGroupMask_mem K mh1))))

theorem execAbortGroup_mem {tag : BitVec 16} {group : BitVec 4} {s : State} (mh : MemInv Q s) : MemOut Q (execAbortGroup tag group s) := by
  unfold execAbortGroup
  exact (done_mem K (cmdRun_mem K mh (fun _ _ mh1 => (cmdAnswer_mem K (abortGroup_mem K mh1)))))

theorem execModeSet_mem {tag : BitVec 16} {mode : BitVec 3} {family : Bool} {group : BitVec 4} {s : State} (mh : MemInv Q s) : MemOut Q (execModeSet tag mode family group s) := by
  unfold execModeSet
  exact (done_mem K (cmdStart_mem K mh (fun _ _ mh1 => (cmdModeSet_mem K mh1))))

theorem execPolicyLoad_mem {tag : BitVec 16} {len : BitVec 32} {addr : BitVec 64} {data : List Byte} {s : State} (mh : MemInv Q s) : MemOut Q (execPolicyLoad tag len addr data s) := by
  unfold execPolicyLoad
  exact (done_mem K (cmdRun_mem K mh (fun _ _ mh1 => (cmdPolicyLoad_mem K mh1))))

theorem execFlashProgram_mem {tag : BitVec 16} {arg0 len : BitVec 32} {addr : BitVec 64} {data : List Byte} {s : State} (mh : MemInv Q s) : MemOut Q (execFlashProgram tag arg0 len addr data s) := by
  unfold execFlashProgram
  exact (done_mem K (cmdRun_mem K mh (fun _ _ mh1 => (cmdFlashProgram_mem K mh1))))

theorem execFlashErase_mem {tag : BitVec 16} {arg0 len : BitVec 32} {s : State} (mh : MemInv Q s) : MemOut Q (execFlashErase tag arg0 len s) := by
  unfold execFlashErase
  exact (done_mem K (cmdRun_mem K mh (fun _ _ mh1 => (cmdFlashErase_mem K mh1))))

theorem cmdReset_mem {c : Command} {s : State} (mh : MemInv Q s) : MemInv Q (cmdReset c s) := by
  unfold cmdReset
  exact (MemInv.ite (warmReset_mem K (cmdComplete_mem K mh)) (cmdComplete_mem K mh))

theorem execResetCommand_mem {tag : BitVec 16} {arg0 : BitVec 32} {s : State} (mh : MemInv Q s) : MemOut Q (execResetCommand tag arg0 s) := by
  unfold execResetCommand
  exact (done_mem K (cmdStart_mem K mh (fun _ _ mh1 => (cmdReset_mem K mh1))))

theorem hostReadError_mem {s : State} {what : HostRead} {timeout : Bool} (mh : MemInv Q s) : MemInv Q (hostReadError s what timeout) := by
  unfold hostReadError
  exact (by
    first | (extract_lets; split) | (dsimp only; split) | split
    · exact (ringFail_mem K (hostReadFail_mem K mh))
    · exact (cmdRun_mem K (hostReadFail_mem K mh) (fun _ _ mh1 => (MemInv.cmdResult mh1)))
    · exact (ainFetch_mem K (hostReadFail_mem K mh))
    · exact (txDescriptor_mem K (hostReadFail_mem K mh)))

theorem execHostReadError_mem {what : HostRead} {timeout : Bool} {s : State} (mh : MemInv Q s) : MemOut Q (execHostReadError what timeout s) := by
  unfold execHostReadError
  exact (done_mem K (MemInv.ite mh (hostReadError_mem K mh)))

theorem execDoorbell_mem {r : Fin 64} {v : BitVec 32} {fromCore : Bool} {descs : List (List Byte)} {s : State} (mh : MemInv Q s) : MemOut Q (execDoorbell r v fromCore descs s) := by
  unfold execDoorbell
  exact (done_mem K (doorbellRing_mem K mh))

end Sys2Proof.Machine
end

