-- ==== Sys2Proof/Laws/KeepKernel.lean ====
section
/-! SUPPORT. The definitions of Machine/Kernel.lean keep what MemKeeps keeps. -/
namespace Sys2Proof.Machine

variable {Q : List Instr → Cells (BitVec 32) → Cells Word → Cells Byte → Cells (BitVec 32) → Cells (BitVec 2) → Cells (BitVec 2) → Cells Byte → Prop} (K : MemKeeps Q)
include K

set_option linter.unusedSectionVars false

theorem dispatchEntry_mem {s : State} {n i : Nat} (mh : MemInv Q s) : MemInv Q (dispatchEntry s n i) := by
  unfold dispatchEntry
  exact (putCore_mem K (MemInv.foldl (State.eccEvents_mem K (State.eccEvents_mem K mh)) fun _ _ mh1 => (localPut_mem K mh1)))

theorem dispatchEnd_mem {s : State} {n : Nat} (mh : MemInv Q s) : MemInv Q (dispatchEnd s n) := by
  unfold dispatchEnd
  exact (MemInv.ite (putCore_mem K (State.eccEvents_mem K mh)) mh)

theorem kernelDispatch_mem {n : Nat} {s : State} (mh : MemInv Q s) : MemInv Q (kernelDispatch n s) := by
  unfold kernelDispatch
  exact (MemInv.ite mh (by
    first | (extract_lets; split) | (dsimp only; split) | split
    · exact (dispatchEntry_mem K mh)
    · exact (dispatchEnd_mem K mh)))

theorem kernelStop_mem {n : Nat} {s : State} (h : MemInv Q s) : MemInv Q (kernelStop n s) := by
  have hb : MemInv Q (bundleStart s n false 0#2).2 := bundleStart_mem K h
  unfold kernelStop
  split
  · split
    next f s1 e => rw [e] at hb; exact slotFault_mem K hb
    next s1 e => rw [e] at hb; exact entryEnd_mem K hb
    · exact h
  · exact h

theorem entryComplete_mem {i cycle : Nat} {n : Nat} {s : State} (mh : MemInv Q s) : MemInv Q (entryComplete i cycle n s) := by
  unfold entryComplete
  exact (MemInv.ite (putCore_mem K mh) mh)

theorem entryCompleted_mem {be i cycle : Nat} {s : State} (mh : MemInv Q s) : MemInv Q (entryCompleted be i cycle s) := by
  unfold entryCompleted
  exact (MemInv.ite (sigCompare_mem K (coreRun_mem K mh (fun _ _ mh1 => (entryComplete_mem K mh1)))) (coreRun_mem K mh (fun _ _ mh1 => (entryComplete_mem K mh1))))

theorem dmaFetch_mem {s : State} {n a : Nat} (mh : MemInv Q s) : MemInv Q (dmaFetch s n a).2 := by
  unfold dmaFetch
  exact (MemInv.pair2 (State.eccEvent_mem K mh))

theorem dmaSign_mem {s : State} {n ch a : Nat} {w : Word} (mh : MemInv Q s) : MemInv Q (dmaSign s n ch a w) := by
  unfold dmaSign
  exact (putCore_mem K mh)

theorem dmaMove_mem {n ch : Nat} {d : DmaDesc} {s : State} {p : Int × Nat} (mh : MemInv Q s) : MemInv Q (dmaMove n ch d s p).2 := by
  unfold dmaMove
  exact (MemInv.ite2 (MemInv.pair2 (MemInv.ite mh (defaultTarget_mem K mh))) (MemInv.ite2 (MemInv.ite2 (MemInv.ite2 (MemInv.pair2 (dmaFetch_mem K mh)) (yardWrite_mem K (dmaFetch_mem K mh))) (MemInv.pair2 (dmaSign_mem K (MemInv.ite2 (MemInv.pair2 (dmaFetch_mem K mh)) (yardWrite_mem K (dmaFetch_mem K mh)))))) (MemInv.ite2 (MemInv.pair2 (yardRead_mem K mh)) (MemInv.pair2 (dmaSign_mem K (localPut_mem K (yardRead_mem K mh)))))))

theorem dmaMoveAll_mem {n ch : Nat} {d : DmaDesc} {l : List (Int × Nat)} {s : State} (h : MemInv Q s) :
    MemInv Q (dmaMoveAll n ch d l s).2 := by
  induction l generalizing s with
  | nil => exact h
  | cons p t ih =>
    have h1 := dmaMove_mem K (n := n) (ch := ch) (d := d) (p := p) h
    unfold dmaMoveAll
    extract_lets r
    split
    · exact h1
    · exact ih h1

theorem dmaEnd_mem {n ch : Nat} {d : DmaDesc} {err : Bool} {s : State} (mh : MemInv Q s) : MemInv Q (dmaEnd n ch d err s) := by
  unfold dmaEnd
  exact (MemInv.ite (MemInv.ite (State.event_mem K (State.raise_mem K (dmaRelease_mem K (putDma_mem K (localPut_mem K mh))))) (State.raise_mem K (dmaRelease_mem K (putDma_mem K (localPut_mem K mh))))) (MemInv.ite (putDma_mem K (localPut_mem K mh)) (dmaRelease_mem K (putDma_mem K (localPut_mem K mh)))))

theorem dmaDone_mem {ch : Nat} {n : Nat} {s : State} (mh : MemInv Q s) : MemInv Q (dmaDone ch n s) := by
  unfold dmaDone
  exact (MemInv.ite mh (MemInv.ite (dmaEnd_mem K (State.eccEvents_mem K mh)) (dmaEnd_mem K (dmaMoveAll_mem K (State.eccEvents_mem K mh)))))

theorem monitorStop_mem {s : State} {n : Nat} (mh : MemInv Q s) : MemInv Q (monitorStop s n) := by
  unfold monitorStop
  exact (putCore_mem K (dmaCancel_mem K (entryEnd_mem K mh)))

theorem engineDeadline_mem {s : State} {n : Nat} (mh : MemInv Q s) : MemInv Q (engineDeadline s n) := by
  unfold engineDeadline
  exact (putCore_mem K (State.setFld_mem K (State.setReg_mem K (MemInv.ite mh (MemInv.foldl (monitorStop_mem K mh) fun _ _ mh1 => (missEntry_mem K (putCore_mem K mh1)))))))

theorem basinDeadline_mem {s : State} (mh : MemInv Q s) : MemInv Q (basinDeadline s) := by
  unfold basinDeadline
  exact (MemInv.foldl mh fun _ _ mh1 => (engineDeadline_mem K mh1))

theorem engineFrame_mem {s : State} {n : Nat} (mh : MemInv Q s) : MemInv Q (engineFrame s n) := by
  unfold engineFrame
  exact (putCore_mem K mh)

theorem bexFrame_mem {s : State} (mh : MemInv Q s) : MemInv Q (bexFrame s) := by
  unfold bexFrame
  exact (MemInv.ite (putCore_mem K mh) mh)

theorem basinFrameStart_mem {s : State} (mh : MemInv Q s) : MemInv Q (basinFrameStart s) := by
  unfold basinFrameStart
  exact (bexFrame_mem K (MemInv.foldl mh fun _ _ mh1 => (engineFrame_mem K mh1)))

theorem interruptEntry_mem {s : State} {nextAtomic : Bool} (mh : MemInv Q s) : MemInv Q (interruptEntry s nextAtomic) := by
  unfold interruptEntry
  exact (MemInv.ite (ccEnter_mem K (landAll_mem K mh)) mh)

theorem ccWait_mem {s : State} {atomic : Bool} (h : MemInv Q s) : MemInv Q (ccWait s atomic) := by
  unfold ccWait
  split
  · have h1 : MemInv Q (bundleStart s ccCore atomic 0#2).2 := bundleStart_mem K h
    split
    · exact h
    next f s1 e => rw [e] at h1; exact slotFault_mem K h1
    next s1 e =>
      rw [e] at h1
      split
      · exact slotFault_mem K h1
      · extract_lets s2
        split
        · exact bundleEnd_mem K h1
        · exact MemInv.mk (MemInv.of (bundleEnd_mem K h1))
  · exact h

theorem execKernelDispatch_mem {be : Fin 8} {s : State} (mh : MemInv Q s) : MemOut Q (execKernelDispatch be s) := by
  unfold execKernelDispatch
  exact (done_mem K (coreRun_mem K mh (fun _ _ mh1 => (kernelDispatch_mem K mh1))))

theorem execKernelStop_mem {be : Fin 8} {s : State} (mh : MemInv Q s) : MemOut Q (execKernelStop be s) := by
  unfold execKernelStop
  exact (done_mem K (coreRun_mem K mh (fun _ _ mh1 => (kernelStop_mem K mh1))))

theorem execEntryComplete_mem {be : Fin 8} {entry : Fin 64} {cycle : BitVec 24} {s : State} (mh : MemInv Q s) : MemOut Q (execEntryComplete be entry cycle s) := by
  unfold execEntryComplete
  exact (done_mem K (entryCompleted_mem K mh))

theorem execDmaDescriptorDone_mem {be : Fin 8} {ch : Fin 4} {s : State} (mh : MemInv Q s) : MemOut Q (execDmaDescriptorDone be ch s) := by
  unfold execDmaDescriptorDone
  exact (done_mem K (coreRun_mem K mh (fun _ _ mh1 => (dmaDone_mem K mh1))))

theorem execInterruptEntry_mem {nextAtomic : Bool} {s : State} (mh : MemInv Q s) : MemOut Q (execInterruptEntry nextAtomic s) := by
  unfold execInterruptEntry
  exact (done_mem K (interruptEntry_mem K mh))

theorem execCcWait_mem {atomic : Bool} {s : State} (mh : MemInv Q s) : MemOut Q (execCcWait atomic s) := by
  unfold execCcWait
  exact (done_mem K (ccWait_mem K mh))

end Sys2Proof.Machine
end

