-- ==== Sys2Proof/Laws/KeepRill.lean ====
section
/-! SUPPORT. The definitions of Machine/Rill.lean keep what MemKeeps keeps. -/
namespace Sys2Proof.Machine

variable {Q : List Instr → Cells (BitVec 32) → Cells Word → Cells Byte → Cells (BitVec 32) → Cells (BitVec 2) → Cells (BitVec 2) → Cells Byte → Prop} (K : MemKeeps Q)
include K

set_option linter.unusedSectionVars false

theorem execRillNop_mem {re : Fin 16} {x : IdleStep} {s : State} (mh : MemInv Q s) : MemOut Q (execRillNop re x s) := by
  unfold execRillNop
  exact (done_mem K (rillStep_mem K mh))

theorem execRillMov_mem {re : Fin 16} {f : RillFields} {s : State} (mh : MemInv Q s) : MemOut Q (execRillMov re f s) := by
  unfold execRillMov
  exact (done_mem K (rillStep_mem K mh))

theorem execRillAdd_mem {re : Fin 16} {f : RillFields} {s : State} (mh : MemInv Q s) : MemOut Q (execRillAdd re f s) := by
  unfold execRillAdd
  exact (done_mem K (rillStep_mem K mh))

theorem execRillSub_mem {re : Fin 16} {f : RillFields} {s : State} (mh : MemInv Q s) : MemOut Q (execRillSub re f s) := by
  unfold execRillSub
  exact (done_mem K (rillStep_mem K mh))

theorem execRillNeg_mem {re : Fin 16} {f : RillFields} {s : State} (mh : MemInv Q s) : MemOut Q (execRillNeg re f s) := by
  unfold execRillNeg
  exact (done_mem K (rillStep_mem K mh))

theorem execRillAbs_mem {re : Fin 16} {f : RillFields} {s : State} (mh : MemInv Q s) : MemOut Q (execRillAbs re f s) := by
  unfold execRillAbs
  exact (done_mem K (rillStep_mem K mh))

theorem execRillMin_mem {re : Fin 16} {f : RillFields} {s : State} (mh : MemInv Q s) : MemOut Q (execRillMin re f s) := by
  unfold execRillMin
  exact (done_mem K (rillStep_mem K mh))

theorem execRillMax_mem {re : Fin 16} {f : RillFields} {s : State} (mh : MemInv Q s) : MemOut Q (execRillMax re f s) := by
  unfold execRillMax
  exact (done_mem K (rillStep_mem K mh))

theorem execRillAnd_mem {re : Fin 16} {f : RillFields} {s : State} (mh : MemInv Q s) : MemOut Q (execRillAnd re f s) := by
  unfold execRillAnd
  exact (done_mem K (rillStep_mem K mh))

theorem execRillOr_mem {re : Fin 16} {f : RillFields} {s : State} (mh : MemInv Q s) : MemOut Q (execRillOr re f s) := by
  unfold execRillOr
  exact (done_mem K (rillStep_mem K mh))

theorem execRillXor_mem {re : Fin 16} {f : RillFields} {s : State} (mh : MemInv Q s) : MemOut Q (execRillXor re f s) := by
  unfold execRillXor
  exact (done_mem K (rillStep_mem K mh))

theorem execRillShl_mem {re : Fin 16} {f : RillFields} {s : State} (mh : MemInv Q s) : MemOut Q (execRillShl re f s) := by
  unfold execRillShl
  exact (done_mem K (rillStep_mem K mh))

theorem execRillShr_mem {re : Fin 16} {f : RillFields} {s : State} (mh : MemInv Q s) : MemOut Q (execRillShr re f s) := by
  unfold execRillShr
  exact (done_mem K (rillStep_mem K mh))

theorem execRillSel_mem {re : Fin 16} {f : RillFields} {s : State} (mh : MemInv Q s) : MemOut Q (execRillSel re f s) := by
  unfold execRillSel
  exact (done_mem K (rillStep_mem K mh))

theorem execRillCadd_mem {re : Fin 16} {f : RillFields} {s : State} (mh : MemInv Q s) : MemOut Q (execRillCadd re f s) := by
  unfold execRillCadd
  exact (done_mem K (rillStep_mem K mh))

theorem execRillCsub_mem {re : Fin 16} {f : RillFields} {s : State} (mh : MemInv Q s) : MemOut Q (execRillCsub re f s) := by
  unfold execRillCsub
  exact (done_mem K (rillStep_mem K mh))

theorem execRillConj_mem {re : Fin 16} {f : RillFields} {s : State} (mh : MemInv Q s) : MemOut Q (execRillConj re f s) := by
  unfold execRillConj
  exact (done_mem K (rillStep_mem K mh))

theorem execRillCpack_mem {re : Fin 16} {f : RillFields} {s : State} (mh : MemInv Q s) : MemOut Q (execRillCpack re f s) := by
  unfold execRillCpack
  exact (done_mem K (rillStep_mem K mh))

theorem execRillMova_mem {re : Fin 16} {f : RillFields} {s : State} (mh : MemInv Q s) : MemOut Q (execRillMova re f s) := by
  unfold execRillMova
  exact (done_mem K (rillStep_mem K mh))

theorem execRillMovax_mem {re : Fin 16} {f : RillFields} {s : State} (mh : MemInv Q s) : MemOut Q (execRillMovax re f s) := by
  unfold execRillMovax
  exact (done_mem K (rillStep_mem K mh))

theorem execRillLut_mem {re : Fin 16} {f : RillFields} {s : State} (mh : MemInv Q s) : MemOut Q (execRillLut re f s) := by
  unfold execRillLut
  exact (done_mem K (rillStep_mem K mh))

theorem execRillCmpeq_mem {re : Fin 16} {f : RillFields} {s : State} (mh : MemInv Q s) : MemOut Q (execRillCmpeq re f s) := by
  unfold execRillCmpeq
  exact (done_mem K (rillStep_mem K mh))

theorem execRillCmplt_mem {re : Fin 16} {f : RillFields} {s : State} (mh : MemInv Q s) : MemOut Q (execRillCmplt re f s) := by
  unfold execRillCmplt
  exact (done_mem K (rillStep_mem K mh))

theorem execRillCmple_mem {re : Fin 16} {f : RillFields} {s : State} (mh : MemInv Q s) : MemOut Q (execRillCmple re f s) := by
  unfold execRillCmple
  exact (done_mem K (rillStep_mem K mh))

theorem execRillPlog_mem {re : Fin 16} {f : RillFields} {s : State} (mh : MemInv Q s) : MemOut Q (execRillPlog re f s) := by
  unfold execRillPlog
  exact (done_mem K (rillStep_mem K mh))

theorem execRillLdc_mem {re : Fin 16} {f : RillFields} {s : State} (mh : MemInv Q s) : MemOut Q (execRillLdc re f s) := by
  unfold execRillLdc
  exact (done_mem K (rillStep_mem K mh))

theorem execRillStc_mem {re : Fin 16} {f : RillFields} {s : State} (mh : MemInv Q s) : MemOut Q (execRillStc re f s) := by
  unfold execRillStc
  exact (done_mem K (rillStep_mem K mh))

theorem execRillStcx_mem {re : Fin 16} {f : RillFields} {s : State} (mh : MemInv Q s) : MemOut Q (execRillStcx re f s) := by
  unfold execRillStcx
  exact (done_mem K (rillStep_mem K mh))

theorem execRillLdw_mem {re : Fin 16} {f : RillFields} {s : State} (mh : MemInv Q s) : MemOut Q (execRillLdw re f s) := by
  unfold execRillLdw
  exact (done_mem K (rillStep_mem K mh))

theorem execRillStw_mem {re : Fin 16} {f : RillFields} {s : State} (mh : MemInv Q s) : MemOut Q (execRillStw re f s) := by
  unfold execRillStw
  exact (done_mem K (rillStep_mem K mh))

theorem execRillStwx_mem {re : Fin 16} {f : RillFields} {s : State} (mh : MemInv Q s) : MemOut Q (execRillStwx re f s) := by
  unfold execRillStwx
  exact (done_mem K (rillStep_mem K mh))

theorem execRillAclr_mem {re : Fin 16} {f : RillFields} {s : State} (mh : MemInv Q s) : MemOut Q (execRillAclr re f s) := by
  unfold execRillAclr
  exact (done_mem K (rillStep_mem K mh))

theorem execRillLda_mem {re : Fin 16} {f : RillFields} {s : State} (mh : MemInv Q s) : MemOut Q (execRillLda re f s) := by
  unfold execRillLda
  exact (done_mem K (rillStep_mem K mh))

theorem execRillLdax_mem {re : Fin 16} {f : RillFields} {s : State} (mh : MemInv Q s) : MemOut Q (execRillLdax re f s) := by
  unfold execRillLdax
  exact (done_mem K (rillStep_mem K mh))

theorem execRillAdda_mem {re : Fin 16} {f : RillFields} {s : State} (mh : MemInv Q s) : MemOut Q (execRillAdda re f s) := by
  unfold execRillAdda
  exact (done_mem K (rillStep_mem K mh))

theorem execRillAddaC_mem {re : Fin 16} {f : RillFields} {s : State} (mh : MemInv Q s) : MemOut Q (execRillAddaC re f s) := by
  unfold execRillAddaC
  exact (done_mem K (rillStep_mem K mh))

theorem execRillAddax_mem {re : Fin 16} {f : RillFields} {s : State} (mh : MemInv Q s) : MemOut Q (execRillAddax re f s) := by
  unfold execRillAddax
  exact (done_mem K (rillStep_mem K mh))

theorem execRillAddaxC_mem {re : Fin 16} {f : RillFields} {s : State} (mh : MemInv Q s) : MemOut Q (execRillAddaxC re f s) := by
  unfold execRillAddaxC
  exact (done_mem K (rillStep_mem K mh))

theorem execMacr_mem {re : Fin 16} {f : RillFields} {cx z nj am : Bool} {s : State} (mh : MemInv Q s) : MemOut Q (execMacr re f cx z nj am s) := by
  unfold execMacr
  exact (done_mem K (rillStep_mem K mh))

theorem execMack_mem {re : Fin 16} {f : RillFields} {cx z nj am : Bool} {s : State} (mh : MemInv Q s) : MemOut Q (execMack re f cx z nj am s) := by
  unfold execMack
  exact (done_mem K (rillStep_mem K mh))

theorem execMacc_mem {re : Fin 16} {f : RillFields} {cx z nj am : Bool} {s : State} (mh : MemInv Q s) : MemOut Q (execMacc re f cx z nj am s) := by
  unfold execMacc
  exact (done_mem K (rillStep_mem K mh))

theorem execMacw_mem {re : Fin 16} {f : RillFields} {cx z nj am : Bool} {s : State} (mh : MemInv Q s) : MemOut Q (execMacw re f cx z nj am s) := by
  unfold execMacw
  exact (done_mem K (rillStep_mem K mh))

theorem execTapm_mem {re : Fin 16} {f : RillFields} {z n am : Bool} {s : State} (mh : MemInv Q s) : MemOut Q (execTapm re f z n am s) := by
  unfold execTapm
  exact (done_mem K (rillStep_mem K mh))

end Sys2Proof.Machine
end

