-- ==== Sys2Proof/Laws/KeepSlave.lean ====
section
/-! SUPPORT. The definitions of Machine/Slave.lean keep what MemKeeps keeps. -/
namespace Sys2Proof.Machine

variable {Q : List Instr → Cells (BitVec 32) → Cells Word → Cells Byte → Cells (BitVec 32) → Cells (BitVec 2) → Cells (BitVec 2) → Cells Byte → Prop} (K : MemKeeps Q)
include K

set_option linter.unusedSectionVars false

theorem slaveNext_mem {s : State} {t : Option CspTxn} {out : BitVec 32} (mh : MemInv Q s) : MemInv Q (slaveNext s t out) := by
  unfold slaveNext
  exact (MemInv.ite (MemInv.mk (MemInv.of mh)) mh)

theorem slaveErr_mem {s : State} {err : Bool} (mh : MemInv Q s) : MemInv Q (slaveErr s err) := by
  unfold slaveErr
  exact (State.raiseIf_mem K mh)

theorem slaveUnder_mem {s : State} {t : CspTxn} (mh : MemInv Q s) : MemInv Q (slaveUnder s t) := by
  unfold slaveUnder
  exact (slaveNext_mem K (State.count_mem K (State.raise_mem K mh)))

theorem slaveHold_mem {s : State} {x : Access} (mh : MemInv Q s) : MemInv Q (slaveHold s x) := by
  unfold slaveHold
  exact (State.hold_mem K mh)

theorem slaveRead_mem {s : State} {t : CspTxn} {ready : Bool} (mh : MemInv Q s) : MemInv Q (slaveRead s t ready) := by
  unfold slaveRead
  exact (MemInv.ite (slaveNext_mem K mh) (MemInv.ite (MemInv.ite (slaveNext_mem K (State.raise_mem K mh)) (slaveUnder_mem K mh)) (MemInv.ite (slaveUnder_mem K (slaveHold_mem K mh)) (MemInv.ite (slaveNext_mem K (slaveErr_mem K (xReadBytes_mem K mh))) (slaveUnder_mem K (slaveErr_mem K (xReadBytes_mem K mh)))))))

theorem slaveWrite_mem {s : State} {t : CspTxn} {v : BitVec 32} {ready : Bool} (mh : MemInv Q s) : MemInv Q (slaveWrite s t v ready) := by
  unfold slaveWrite
  exact (MemInv.ite (slaveNext_mem K mh) (MemInv.ite (slaveNext_mem K (State.count_mem K (State.raise_mem K mh))) (MemInv.ite (slaveUnder_mem K mh) (MemInv.ite (slaveNext_mem K (slaveHold_mem K mh)) (slaveNext_mem K (slaveErr_mem K (xWriteBytes_mem K mh)))))))

theorem slaveTurn_mem {s : State} (mh : MemInv Q s) : MemInv Q (slaveTurn s) := by
  unfold slaveTurn
  exact (MemInv.mk (MemInv.of mh))

theorem slaveCommand_mem {s : State} {v : BitVec 32} {ready : Bool} (mh : MemInv Q s) : MemInv Q (slaveCommand s v ready) := by
  unfold slaveCommand
  exact (MemInv.ite (slaveRead_mem K (slaveTurn_mem K mh)) (MemInv.ite (slaveNext_mem K (State.takeFree_mem K (slaveTurn_mem K mh))) (slaveNext_mem K mh)))

theorem slaveWord_mem {s0 : State} {v : BitVec 32} {ready : Bool} (mh : MemInv Q s0) : MemInv Q (slaveWord s0 v ready) := by
  unfold slaveWord
  exact (MemInv.ite (by
    first | (extract_lets; split) | (dsimp only; split) | split
    · exact (slaveCommand_mem K (MemInv.mk (MemInv.of mh)))
    · exact (MemInv.ite (MemInv.ite (slaveNext_mem K (MemInv.mk (MemInv.of mh))) (slaveWrite_mem K (MemInv.mk (MemInv.of mh)))) (MemInv.ite (slaveNext_mem K (MemInv.mk (MemInv.of mh))) (MemInv.ite (slaveNext_mem K (MemInv.mk (MemInv.of mh))) (slaveRead_mem K (MemInv.mk (MemInv.of mh))))))) (MemInv.mk (MemInv.of mh)))

theorem selAssert_mem {s0 : State} (mh : MemInv Q s0) : MemInv Q (selAssert s0) := by
  unfold selAssert
  exact (MemInv.ite (gpioEdge_mem K mh) (MemInv.mk (MemInv.of (gpioEdge_mem K mh))))

theorem selRelease_mem {s0 : State} {partialWord : Bool} (mh : MemInv Q s0) : MemInv Q (selRelease s0 partialWord) := by
  unfold selRelease
  exact (MemInv.ite (by
    first | (extract_lets; split) | (dsimp only; split) | split
    · exact (roleApply_mem K (MemInv.mk (MemInv.of (MemInv.ite (State.count_mem K (State.raise_mem K (gpioEdge_mem K mh))) (gpioEdge_mem K mh)))))
    · exact (MemInv.mk (MemInv.of (MemInv.ite (State.count_mem K (State.raise_mem K (gpioEdge_mem K mh))) (gpioEdge_mem K mh))))) (gpioEdge_mem K mh))

theorem execCspRole_mem {v : BitVec 32} {s : State} (mh : MemInv Q s) : MemOut Q (execCspRole v s) := by
  unfold execCspRole
  exact (done_mem K (cspMoved_mem K mh (cspCtrlWrite_mem K mh)))

theorem execCspStart_mem {v : BitVec 32} {s : State} (mh : MemInv Q s) : MemOut Q (execCspStart v s) := by
  unfold execCspStart
  exact (done_mem K (cspMoved_mem K mh (cspLenWrite_mem K mh)))

theorem execMDone_mem {rx : List (BitVec 8)} {s : State} (mh : MemInv Q s) : MemOut Q (execMDone rx s) := by
  unfold execMDone
  exact (done_mem K (cspMoved_mem K mh (cspEnd_mem K (cspSent_mem K (cspReceived_mem K mh)))))

theorem execCspFifoPush_mem {v : BitVec 32} {sent : Fin 65} {s : State} (mh : MemInv Q s) : MemOut Q (execCspFifoPush v sent s) := by
  unfold execCspFifoPush
  exact (done_mem K (cspMoved_mem K mh (cspPush_mem K (cspSent_mem K mh))))

theorem execCspFifoPop_mem {rx : List (BitVec 8)} {s : State} (mh : MemInv Q s) : MemOut Q (execCspFifoPop rx s) := by
  unfold execCspFifoPop
  exact (done_mem K (cspMoved_mem K mh (cspPop_mem K (cspReceived_mem K mh))))

theorem execCspSelNAssert_mem {s : State} (mh : MemInv Q s) : MemOut Q (execCspSelNAssert s) := by
  unfold execCspSelNAssert
  exact (done_mem K (cspMoved_mem K mh (selAssert_mem K mh)))

theorem execCspSlaveWord_mem {v : BitVec 32} {ready : Bool} {s : State} (mh : MemInv Q s) : MemOut Q (execCspSlaveWord v ready s) := by
  unfold execCspSlaveWord
  exact (done_mem K (cspMoved_mem K mh (slaveWord_mem K mh)))

theorem execGpioEdge_mem {i : Fin 124} {level : Bool} {s : State} (mh : MemInv Q s) : MemOut Q (execGpioEdge i level s) := by
  unfold execGpioEdge
  exact (done_mem K (MemInv.ite (cspMoved_mem K mh (MemInv.ite (selRelease_mem K mh) (selAssert_mem K mh))) (gpioEdge_mem K mh)))

theorem execCspSelNRelease_mem {partialWord : Bool} {s : State} (mh : MemInv Q s) : MemOut Q (execCspSelNRelease partialWord s) := by
  unfold execCspSelNRelease
  exact (done_mem K (cspMoved_mem K mh (selRelease_mem K mh)))

end Sys2Proof.Machine
end

