-- ==== Sys2Proof/Laws/KeepTick.lean ====
section
/-! SUPPORT. The definitions of Machine/Tick.lean keep what MemKeeps keeps. -/
namespace Sys2Proof.Machine

variable {Q : List Instr → Cells (BitVec 32) → Cells Word → Cells Byte → Cells (BitVec 32) → Cells (BitVec 2) → Cells (BitVec 2) → Cells Byte → Prop} (K : MemKeeps Q)
include K

set_option linter.unusedSectionVars false

theorem scatterWord_mem {re : Nat} {s : State} {j : Nat} (mh : MemInv Q s) : MemInv Q (scatterWord re s j) := by
  unfold scatterWord
  exact (MemInv.ite (stallWrite_mem K (State.eccEvent_mem K mh)) (State.eccEvent_mem K mh))

theorem scatterRun_mem {s : State} {re : Nat} (mh : MemInv Q s) : MemInv Q (scatterRun s re) := by
  unfold scatterRun
  exact (MemInv.ite mh (MemInv.foldl mh fun _ _ mh1 => (scatterWord_mem K mh1)))

theorem nowriteRun_mem {s : State} (mh : MemInv Q s) : MemInv Q (nowriteRun s) := by
  unfold nowriteRun
  exact (MemInv.ite mh (State.raise_mem K (State.count_mem K mh)))

theorem stallEcc_mem {s : State} (mh : MemInv Q s) : MemInv Q (stallEcc s) := by
  unfold stallEcc
  exact (State.eccEvents_mem K mh)

theorem stallFlip_mem {s : State} (mh : MemInv Q s) : MemInv Q (stallFlip s) := by
  unfold stallFlip
  exact (MemInv.mk (MemInv.of (moveMarks_mem K mh)))

theorem troughReads_mem {s : State} (mh : MemInv Q s) : MemInv Q (troughReads s) := by
  unfold troughReads
  exact (MemInv.foldl mh fun _ _ mh1 => (MemInv.ite (stallWrite_mem K (troughPlay_mem K mh1)) mh1))

theorem troughWrites_mem {s : State} {j : Nat} (mh : MemInv Q s) : MemInv Q (troughWrites s j) := by
  unfold troughWrites
  exact (MemInv.foldl mh fun _ _ mh1 => (MemInv.ite mh1 (troughCapture_mem K mh1)))

theorem troughEcc_mem {s : State} (mh : MemInv Q s) : MemInv Q (troughEcc s) := by
  unfold troughEcc
  exact (MemInv.foldl mh fun _ _ mh1 => (MemInv.foldl mh1 fun _ _ mh2 => (State.eccEvent_mem K mh2)))

theorem gainStep_mem {s : State} (mh : MemInv Q s) : MemInv Q (gainStep s) := by
  unfold gainStep
  exact (by
    first | (extract_lets; split) | (dsimp only; split) | split
    · exact mh
    · exact (MemInv.mk (MemInv.of mh))
    · exact (MemInv.mk (MemInv.of mh)))

theorem rillBoundary_mem {s : State} (mh : MemInv Q s) : MemInv Q (rillBoundary s) := by
  unfold rillBoundary
  exact (MemInv.mk (MemInv.of mh))

theorem countBoundary_mem {s : State} (mh : MemInv Q s) : MemInv Q (countBoundary s) := by
  unfold countBoundary
  exact (MemInv.mk (MemInv.of mh))

theorem coreLeaves_mem {s : State} (mh : MemInv Q s) : MemInv Q (coreLeaves s) := by
  unfold coreLeaves
  exact (MemInv.ite (t1sWait_mem K (hostWait_mem K (portsAcquire_mem K (MemInv.mk (MemInv.of (mpllTake_mem K (setCore_mem K mh))))))) mh)

theorem rampOver_mem {s : State} (mh : MemInv Q s) : MemInv Q (rampOver s) := by
  unfold rampOver
  exact (MemInv.ite (stopNow_mem K mh) mh)

theorem intervalWrites_mem {s : State} {x : SampleInput} (mh : MemInv Q s) : MemInv Q (intervalWrites s x) := by
  unfold intervalWrites
  exact (MemInv.foldl (t1sSample_mem K (streamRx_mem K (hostSample_mem K (portsRx_mem K (troughReads_mem K (troughEcc_mem K (cascadeRun_mem K (fabricRun_mem K (MemInv.foldl (rillBoundary_mem K (gainStep_mem K mh)) fun _ _ mh1 => (scatterRun_mem K mh1)))))))))) fun _ _ mh1 => (tetherRxSample_mem K mh1))

theorem intervalReads_mem {s : State} {x : SampleInput} (mh : MemInv Q s) : MemInv Q (intervalReads s x) := by
  unfold intervalReads
  exact (MemInv.foldl (t1sTake_mem K (streamTx_mem K (portsTx_mem K (farCompare_mem K mh)))) fun _ _ mh1 => (tetherTxSample_mem K mh1))

theorem sampleTick_mem {s0 : State} {x : SampleInput} (mh : MemInv Q s0) : MemInv Q (sampleTick s0 x) := by
  unfold sampleTick
  exact (MemInv.ite (tickCaptures_mem K (rampOver_mem K (coreLeaves_mem K (MemInv.ite (troughWrites_mem K (countBoundary_mem K (stallFlip_mem K (stallEcc_mem K (nowriteRun_mem K (intervalReads_mem K (intervalWrites_mem K (elapse_mem K mh)))))))) (serveHeld_mem K (troughWrites_mem K (countBoundary_mem K (stallFlip_mem K (stallEcc_mem K (nowriteRun_mem K (intervalReads_mem K (intervalWrites_mem K (elapse_mem K mh))))))))))))) mh)

theorem swapRill_mem {s : State} {k : Nat} (mh : MemInv Q s) : MemInv Q (swapRill s k) := by
  unfold swapRill
  exact (onRill_mem K mh)

theorem swapBasin_mem {s : State} {k : Nat} (mh : MemInv Q s) : MemInv Q (swapBasin s k) := by
  unfold swapBasin
  exact (onBasin_mem K mh)

theorem swapSet_mem {sw : Bool} {s0 : State} {k : Nat} (mh : MemInv Q s0) : MemInv Q (swapSet sw s0 k) := by
  unfold swapSet
  exact (MemInv.ite (swapRill_mem K (swapMarks_mem K mh)) (MemInv.ite (swapBasin_mem K (swapMarks_mem K mh)) (MemInv.ite (swapTroughTable_mem K (swapMarks_mem K mh)) (MemInv.ite (swapFabric_mem K (swapMarks_mem K mh)) (MemInv.ite (swapCascade_mem K (swapMarks_mem K mh)) (swapTether_mem K (swapMarks_mem K mh)))))))

theorem setSwapped_mem {s : State} {k : Nat} (mh : MemInv Q s) : MemInv Q (setSwapped s k) := by
  unfold setSwapped
  exact (commitLeave_mem K (putSet_mem K mh))

theorem releaseScatter_mem {re : Nat} {old : Cells Word} {s : State} (mh : MemInv Q s) : MemInv Q (releaseScatter re old s) := by
  unfold releaseScatter
  exact (MemInv.foldl mh fun _ _ mh1 => (MemInv.ite (releaseStall_mem K mh1) mh1))

theorem claimScatter_mem {s : State} {re : Nat} (mh : MemInv Q s) : MemInv Q (claimScatter s re) := by
  unfold claimScatter
  exact (MemInv.foldl mh fun _ _ mh1 => (MemInv.ite (MemInv.ite (claimStall_mem K mh1) (onRill_mem K (claimStall_mem K mh1))) mh1))

theorem swapReleases_mem {old s : State} {sets : List Nat} (mh_old : MemInv Q old) (mh_s : MemInv Q s) : MemInv Q (swapReleases old s sets) := by
  unfold swapReleases
  exact (MemInv.foldl (MemInv.foldl (MemInv.ite (releaseTroughs_mem K (releaseBuses_mem K (MemInv.ite (releaseChains_mem K mh_s) mh_s))) (releaseBuses_mem K (MemInv.ite (releaseChains_mem K mh_s) mh_s))) fun _ _ mh2 => (releaseScatter_mem K mh2)) fun _ _ mh2 => (MemInv.ite (releaseTether_mem K mh2) mh2))

theorem swapClaims_mem {old s : State} {sets : List Nat} (mh_old : MemInv Q old) (mh_s : MemInv Q s) : MemInv Q (swapClaims old s sets) := by
  unfold swapClaims
  exact (MemInv.foldl (MemInv.foldl (MemInv.ite (claimTroughs_mem K (MemInv.ite (claimBuses_mem K (MemInv.ite (claimChains_mem K mh_s) mh_s)) (MemInv.ite (claimChains_mem K mh_s) mh_s))) (MemInv.ite (claimBuses_mem K (MemInv.ite (claimChains_mem K mh_s) mh_s)) (MemInv.ite (claimChains_mem K mh_s) mh_s))) fun _ _ mh2 => (claimScatter_mem K mh2)) fun _ _ mh2 => (MemInv.ite (claimTether_mem K mh2) mh2))

theorem swapSets_mem {s : State} {sw : Bool} {sets : List Nat} (mh : MemInv Q s) : MemInv Q (swapSets s sw sets) := by
  unfold swapSets
  exact (MemInv.ite (MemInv.foldl (swapClaims_mem K mh (swapReleases_mem K mh (MemInv.foldl mh fun _ _ mh1 => (swapSet_mem K mh1)))) fun _ _ mh1 => (setSwapped_mem K mh1)) (State.setReg_mem K (MemInv.foldl (swapClaims_mem K mh (swapReleases_mem K mh (MemInv.foldl mh fun _ _ mh1 => (swapSet_mem K mh1)))) fun _ _ mh1 => (setSwapped_mem K mh1))))

theorem applyMode_mem {s : State} (mh : MemInv Q s) : MemInv Q (applyMode s) := by
  unfold applyMode
  exact (MemInv.ite (State.raise_mem K (MemInv.mk (MemInv.of mh))) mh)

theorem switchCore_mem {s : State} (mh : MemInv Q s) : MemInv Q (switchCore s) := by
  unfold switchCore
  exact (MemInv.ite (tetherDown_mem K (linksDown_mem K (setMpll_mem K (setCore_mem K mh)))) (MemInv.ite (setCore_mem K mh) mh))

theorem switchSeq_mem {s : State} (mh : MemInv Q s) : MemInv Q (switchSeq s) := by
  unfold switchSeq
  exact (MemInv.ite (putSeq_mem K mh) (MemInv.ite (setBusy_mem K (putSeq_mem K mh)) (MemInv.ite (MemInv.mk (MemInv.of mh)) mh)))

theorem acquireStart_mem {s : State} (mh : MemInv Q s) : MemInv Q (acquireStart s) := by
  unfold acquireStart
  exact (t1sWait_mem K (hostWait_mem K (portsAcquire_mem K (putSeq_mem K (muteLow_mem K (mpllTake_mem K (setCore_mem K mh)))))))

theorem muteFrame_mem {s : State} {sw : Bool} (mh : MemInv Q s) : MemInv Q (muteFrame s sw) := by
  unfold muteFrame
  exact (MemInv.ite (MemInv.ite (muteLow_mem K mh) mh) (MemInv.mk (MemInv.of mh)))

theorem pinsFrame_mem {s : State} (mh : MemInv Q s) : MemInv Q (pinsFrame s) := by
  unfold pinsFrame
  exact (faultPin_mem K (MemInv.mk (MemInv.of mh)))

theorem lengthen_mem {s : State} (mh : MemInv Q s) : MemInv Q (lengthen s) := by
  unfold lengthen
  exact (MemInv.mk (MemInv.of (State.takeFree_mem K mh)))

theorem alignLoad_mem {s : State} {sw : Bool} (mh : MemInv Q s) : MemInv Q (alignLoad s sw) := by
  unfold alignLoad
  exact (by
    first | (extract_lets; split) | (dsimp only; split) | split
    · exact (MemInv.ite (MemInv.mk (MemInv.of (State.takeFree_mem K mh))) (MemInv.ite (MemInv.mk (MemInv.of mh)) mh))
    · exact mh)

theorem firstOnMedia_mem {old s : State} (mh_old : MemInv Q old) (mh_s : MemInv Q s) : MemInv Q (firstOnMedia old s) := by
  unfold firstOnMedia
  exact (MemInv.ite (lengthen_mem K mh_s) mh_s)

theorem switchClears_mem {old s : State} (mh_old : MemInv Q old) (mh_s : MemInv Q s) : MemInv Q (switchClears old s) := by
  unfold switchClears
  exact (t1sWait_mem K (streamWait_mem K (hostWait_mem K (portsSwitch_mem K (cascadeClear_mem K (troughClear_mem K mh_s))))))

theorem holdFrame_mem {s : State} {k : FrameKind} (mh : MemInv Q s) : MemInv Q (holdFrame s k) := by
  unfold holdFrame
  exact (MemInv.ite (MemInv.mk (MemInv.of (MemInv.ite (putSeq_mem K mh) mh))) mh)

theorem frameSwaps_mem {s : State} {k : FrameKind} (mh : MemInv Q s) : MemInv Q (frameSwaps s k) := by
  unfold frameSwaps
  exact (MemInv.ite (swapSets_mem K (MemInv.mk (MemInv.of (MemInv.ite (endAllFades_mem K (modeCutoff_mem K mh)) (modeCutoff_mem K mh))))) (releaseBuses_mem K (MemInv.mk (MemInv.of mh))))

theorem frameTurn_mem {s0 : State} {k : FrameKind} {verdicts : List (Nat × Bool)} (mh : MemInv Q s0) : MemInv Q (frameTurn s0 k verdicts) := by
  unfold frameTurn
  exact (by
    first | (extract_lets; split) | (dsimp only; split) | split
    · exact (farFrame_mem K (switchSeq_mem K (switchClears_mem K (MemInv.mk (MemInv.of mh)) (firstOnMedia_mem K (MemInv.mk (MemInv.of mh)) (switchCore_mem K (applyMode_mem K (MemInv.mk (MemInv.of mh))))))))
    · exact (farFrame_mem K (acquireStart_mem K (troughSwap_mem K (MemInv.mk (MemInv.of mh)))))
    · exact (farFrame_mem K (troughSwap_mem K (MemInv.mk (MemInv.of mh))))
    · exact (farFrame_mem K (troughSwap_mem K (MemInv.mk (MemInv.of mh)))))

theorem frameClaims_mem {s : State} {resume : Bool} (mh : MemInv Q s) : MemInv Q (frameClaims s resume) := by
  unfold frameClaims
  exact (hostFrame_mem K (streamFrame_mem K (t1sChApply_mem K (portsFrame_mem K (ainRelease_mem K (srxRelease_mem K (t1sChRetire_mem K (portsRetire_mem K mh))))))))

theorem frameStart_mem {s : State} {k : FrameKind} (mh : MemInv Q s) : MemInv Q (frameStart s k) := by
  unfold frameStart
  exact (MemInv.mk (MemInv.of (State.raise_mem K (holdFrame_mem K (supFrame_mem K (tetherFrame_mem K (tickCaptures_mem K (timeFrame_mem K (alignLoad_mem K (frameClaims_mem K (muteFrame_mem K (pinsFrame_mem K (weirTakeIn_mem K (basinFrameStart_mem K mh))))))))))))))

theorem frameBody_mem {s : State} {k : FrameKind} (mh : MemInv Q s) : MemInv Q (frameBody s k) := by
  unfold frameBody
  exact (frameStart_mem K (frameTurn_mem K (frameSwaps_mem K (basinDeadline_mem K mh))))

theorem frameTick_mem {s : State} {cycles : Nat} (mh : MemInv Q s) : MemInv Q (frameTick s cycles) := by
  unfold frameTick
  exact (MemInv.ite (MemInv.ite (stopNow_mem K (frameBody_mem K (elapse_mem K mh))) (frameBody_mem K (elapse_mem K mh))) mh)

theorem frameTickOf_mem {s : State} {cycles : Nat} {k : FrameKind} (mh : MemInv Q s) : MemInv Q (frameTickOf s cycles k) := by
  unfold frameTickOf
  exact (MemInv.ite (frameTick_mem K mh) mh)

theorem firstEntry_mem {s : State} {cycles : Nat} (mh : MemInv Q s) : MemInv Q (firstEntry s cycles) := by
  unfold firstEntry
  exact (MemInv.ite (frameBody_mem K (tickCaptures_mem K (State.lower_mem K (MemInv.ite (MemInv.mk (MemInv.of (elapse_mem K mh))) (setCore_mem K (MemInv.mk (MemInv.of (elapse_mem K mh)))))))) mh)

theorem firstMode_mem {s : State} {cycles : Nat} (mh : MemInv Q s) : MemInv Q (firstMode s cycles) := by
  unfold firstMode
  exact (firstEntry_mem K (armNamed_mem K (policyOnce_mem K mh)))

theorem deadlinePoint_mem {s : State} (mh : MemInv Q s) : MemInv Q (deadlinePoint s) := by
  unfold deadlinePoint
  exact (MemInv.ite (MemInv.mk (MemInv.of (basinDeadline_mem K mh))) mh)

theorem execSampleTick_mem {x : SampleInput} {s : State} (mh : MemInv Q s) : MemOut Q (execSampleTick x s) := by
  unfold execSampleTick
  exact (done_mem K (sampleTick_mem K mh))

theorem execFrameTick_mem {cycles : BitVec 64} {s : State} (mh : MemInv Q s) : MemOut Q (execFrameTick cycles s) := by
  unfold execFrameTick
  exact (done_mem K (frameTick_mem K mh))

theorem execDeadlinePoint_mem {s : State} (mh : MemInv Q s) : MemOut Q (execDeadlinePoint s) := by
  unfold execDeadlinePoint
  exact (done_mem K (deadlinePoint_mem K mh))

theorem execSwitchTick_mem {cycles : BitVec 64} {s : State} (mh : MemInv Q s) : MemOut Q (execSwitchTick cycles s) := by
  unfold execSwitchTick
  exact (done_mem K (frameTickOf_mem K mh))

theorem execAcquisitionSwitch_mem {cycles : BitVec 64} {s : State} (mh : MemInv Q s) : MemOut Q (execAcquisitionSwitch cycles s) := by
  unfold execAcquisitionSwitch
  exact (done_mem K (frameTickOf_mem K mh))

theorem execFirstModeEntry_mem {cycles : BitVec 64} {s : State} (mh : MemInv Q s) : MemOut Q (execFirstModeEntry cycles s) := by
  unfold execFirstModeEntry
  exact (done_mem K (firstMode_mem K mh))

end Sys2Proof.Machine
end

