-- ==== Sys2Proof/Laws/Store.lean ====
section
/-! SUPPORT. The laws of the sparse store: a read after a write, the frame of a write, and that every operation keeps the canonical
form. -/
namespace Sys2Proof.Machine

variable {α : Type} [DecidableEq α] {d : Nat → α}

theorem Cells.wfFrom_mono {m : Cells α} {i j : Nat} (h : i ≤ j) (w : Cells.wfFrom d j m = true) : Cells.wfFrom d i m = true := by
  cases m with
  | nil => rfl
  | cons e t =>
    simp only [Cells.wfFrom, Bool.and_eq_true, decide_eq_true_eq] at w ⊢
    exact ⟨⟨Nat.le_trans h w.1.1, w.1.2⟩, w.2⟩

/-- Below its first address a canonical store reads as unlisted. -/
theorem Cells.read_below {m : Cells α} {i k : Nat} (w : Cells.wfFrom d i m = true) (h : k < i) : Cells.read d m k = d k := by
  induction m generalizing i with
  | nil => rfl
  | cons e t ih =>
    simp only [Cells.wfFrom, Bool.and_eq_true, decide_eq_true_eq] at w
    have hk : k ≠ e.1 := by omega
    simp only [Cells.read, if_neg hk]
    exact ih w.2 (by omega)

/-- A read after a write of the same address gives the value written. -/
theorem Cells.read_write_same {m : Cells α} {k : Nat} {v : α} (w : Cells.wf d m = true) : Cells.read d (Cells.write d m k v) k = v := by
  have go : ∀ (m : Cells α) (i : Nat), Cells.wfFrom d i m = true → Cells.read d (Cells.write d m k v) k = v := by
    intro m
    induction m with
    | nil => intro i _; simp only [Cells.write]; split <;> simp_all [Cells.read]
    | cons e t ih =>
      intro i w
      simp only [Cells.wfFrom, Bool.and_eq_true, decide_eq_true_eq] at w
      simp only [Cells.write]
      split
      next hlt =>
        split
        next hv =>
          rw [hv]
          simp only [Cells.read, if_neg (Nat.ne_of_lt hlt)]
          exact Cells.read_below w.2 (by omega)
        · simp [Cells.read]
      · split
        next he =>
          split
          next hv => rw [hv]; exact Cells.read_below w.2 (by omega)
          · simp [Cells.read]
        next hne => simp only [Cells.read, if_neg hne]; exact ih _ w.2
  exact go m 0 w

/-- A write leaves every other address as it was. -/
theorem Cells.read_write_other {m : Cells α} {k j : Nat} {v : α} (h : j ≠ k) :
    Cells.read d (Cells.write d m k v) j = Cells.read d m j := by
  induction m with
  | nil => simp only [Cells.write]; split <;> simp [Cells.read, h]
  | cons e t ih =>
    simp only [Cells.write]
    split
    · split
      · rfl
      · simp [Cells.read, h]
    · split
      next he =>
        split
        · simp [Cells.read, ← he, h]
        · simp [Cells.read, ← he, h]
      · simp only [Cells.read, ih]

theorem Cells.wfFrom_write {m : Cells α} {i k : Nat} {v : α} (w : Cells.wfFrom d i m = true) (h : i ≤ k) :
    Cells.wfFrom d i (Cells.write d m k v) = true := by
  induction m generalizing i with
  | nil => simp only [Cells.write]; split <;> simp_all [Cells.wfFrom]
  | cons e t ih =>
    have w0 := w
    simp only [Cells.wfFrom, Bool.and_eq_true, decide_eq_true_eq] at w
    simp only [Cells.write]
    split
    next hlt =>
      split
      · exact w0
      next hv =>
        simp only [Cells.wfFrom, Bool.and_eq_true, decide_eq_true_eq, Bool.not_eq_true', decide_eq_false_iff_not]
        exact ⟨⟨h, hv⟩, ⟨by omega, by simpa using w.1.2⟩, w.2⟩
    · split
      next he =>
        subst he
        split
        · exact Cells.wfFrom_mono (by omega) w.2
        next hv =>
          simp only [Cells.wfFrom, Bool.and_eq_true, decide_eq_true_eq, Bool.not_eq_true', decide_eq_false_iff_not]
          exact ⟨⟨h, hv⟩, w.2⟩
      next hne =>
        simp only [Cells.wfFrom, Bool.and_eq_true, decide_eq_true_eq]
        exact ⟨w.1, ih w.2 (by omega)⟩

/-- A write keeps the canonical form. -/
theorem Cells.wf_write {m : Cells α} {k : Nat} {v : α} (w : Cells.wf d m = true) : Cells.wf d (Cells.write d m k v) = true :=
  Cells.wfFrom_write w (Nat.zero_le k)

theorem Cells.wfFrom_keep {m : Cells α} {i : Nat} {p : Nat → Bool} (w : Cells.wfFrom d i m = true) :
    Cells.wfFrom d i (Cells.keep p m) = true := by
  induction m generalizing i with
  | nil => rfl
  | cons e t ih =>
    have w1 := w
    simp only [Cells.wfFrom, Bool.and_eq_true, decide_eq_true_eq] at w1
    have k1 := ih w1.2
    unfold Cells.keep at k1 ⊢
    simp only [List.filter_cons]
    split
    · simp only [Cells.wfFrom, Bool.and_eq_true, decide_eq_true_eq]
      exact ⟨w1.1, k1⟩
    · exact Cells.wfFrom_mono (by omega) k1

/-- Dropping entries keeps the canonical form. -/
theorem Cells.wf_keep {m : Cells α} {p : Nat → Bool} (w : Cells.wf d m = true) : Cells.wf d (Cells.keep p m) = true :=
  Cells.wfFrom_keep w

/-- Reads of the zero-filled stores. -/
theorem Cells.get_set_same {w k : Nat} {m : Cells (BitVec w)} {v : BitVec w} (h : Cells.wf zeroAt m = true) :
    Cells.get (Cells.set m k v) k = v := Cells.read_write_same h

theorem Cells.get_set_other {w k j : Nat} {m : Cells (BitVec w)} {v : BitVec w} (h : j ≠ k) :
    Cells.get (Cells.set m k v) j = Cells.get m j := Cells.read_write_other h

theorem Cells.wf_set {w k : Nat} {m : Cells (BitVec w)} {v : BitVec w} (h : Cells.wf zeroAt m = true) :
    Cells.wf zeroAt (Cells.set m k v) = true := Cells.wf_write h

/-- The registers of an engine file. -/
@[simp] theorem vget_vset_same {α : Type} {n i : Nat} {v : Vector α n} {x d : α} (h : i < n) : vget (vset v i x) i d = x := by
  simp [vget, vset, h]

@[simp] theorem vget_vset_other {α : Type} {n i j : Nat} {v : Vector α n} {x d : α} (h : i ≠ j) : vget (vset v i x) j d = vget v j d := by
  simp [vget, vset, h]

end Sys2Proof.Machine
end

