-- ==== Sys2Proof/Laws/KeepExec.lean ====
section
/-! SUPPORT. Every command keeps what MemKeeps keeps, and the canonical form of the registers and addressed memories is such a property. -/
namespace Sys2Proof.Machine

variable {Q : List Instr → Cells (BitVec 32) → Cells Word → Cells Byte → Cells (BitVec 32) → Cells (BitVec 2) → Cells (BitVec 2) → Cells Byte → Prop} (K : MemKeeps Q)
include K

/-- What every memory operation keeps, every command keeps. -/
theorem exec_mem {c : Instr} {s : State} (h : MemInv Q s) : MemOut Q (exec c s) := by
  cases c with
  | sampleTick _ => exact execSampleTick_mem K h
  | frameTick _ => exact execFrameTick_mem K h
  | deadlinePoint => exact execDeadlinePoint_mem K h
  | copyBackComplete _ => exact execCopyBackComplete_mem K h
  | kernelDispatch _ => exact execKernelDispatch_mem K h
  | kernelStop _ => exact execKernelStop_mem K h
  | entryComplete _ _ _ => exact execEntryComplete_mem K h
  | dmaDescriptorDone _ _ => exact execDmaDescriptorDone_mem K h
  | interruptEntry _ => exact execInterruptEntry_mem K h
  | ccWait _ => exact execCcWait_mem K h
  | ccCacheInv _ => exact execCcCacheInv_mem K h
  | cacheInvalidationEnd => exact execCacheInvalidationEnd_mem K h
  | peakClr _ => exact execPeakClr_mem K h
  | commit _ _ => exact execCommit_mem K h
  | slAbort _ => exact execSlAbort_mem K h
  | modeChangeStart => exact execModeChangeStart_mem K h
  | switchTick _ => exact execSwitchTick_mem K h
  | acquisitionSwitch _ => exact execAcquisitionSwitch_mem K h
  | outputRampUpStart => exact execOutputRampUpStart_mem K h
  | modeComplete => exact execModeComplete_mem K h
  | groupTimeout => exact execGroupTimeout_mem K h
  | firstModeEntry _ => exact execFirstModeEntry_mem K h
  | weirStep _ => exact execWeirStep_mem K h
  | fadeEnd _ => exact execFadeEnd_mem K h
  | rillNop _ _ => exact execRillNop_mem K h
  | rillMov _ _ => exact execRillMov_mem K h
  | rillAdd _ _ => exact execRillAdd_mem K h
  | rillSub _ _ => exact execRillSub_mem K h
  | rillNeg _ _ => exact execRillNeg_mem K h
  | rillAbs _ _ => exact execRillAbs_mem K h
  | rillMin _ _ => exact execRillMin_mem K h
  | rillMax _ _ => exact execRillMax_mem K h
  | rillAnd _ _ => exact execRillAnd_mem K h
  | rillOr _ _ => exact execRillOr_mem K h
  | rillXor _ _ => exact execRillXor_mem K h
  | rillShl _ _ => exact execRillShl_mem K h
  | rillShr _ _ => exact execRillShr_mem K h
  | rillSel _ _ => exact execRillSel_mem K h
  | rillCadd _ _ => exact execRillCadd_mem K h
  | rillCsub _ _ => exact execRillCsub_mem K h
  | rillConj _ _ => exact execRillConj_mem K h
  | rillCpack _ _ => exact execRillCpack_mem K h
  | rillMova _ _ => exact execRillMova_mem K h
  | rillMovax _ _ => exact execRillMovax_mem K h
  | rillLut _ _ => exact execRillLut_mem K h
  | rillCmpeq _ _ => exact execRillCmpeq_mem K h
  | rillCmplt _ _ => exact execRillCmplt_mem K h
  | rillCmple _ _ => exact execRillCmple_mem K h
  | rillPlog _ _ => exact execRillPlog_mem K h
  | rillLdc _ _ => exact execRillLdc_mem K h
  | rillStc _ _ => exact execRillStc_mem K h
  | rillStcx _ _ => exact execRillStcx_mem K h
  | rillLdw _ _ => exact execRillLdw_mem K h
  | rillStw _ _ => exact execRillStw_mem K h
  | rillStwx _ _ => exact execRillStwx_mem K h
  | rillAclr _ _ => exact execRillAclr_mem K h
  | rillLda _ _ => exact execRillLda_mem K h
  | rillLdax _ _ => exact execRillLdax_mem K h
  | rillAdda _ _ => exact execRillAdda_mem K h
  | rillAddaC _ _ => exact execRillAddaC_mem K h
  | rillAddax _ _ => exact execRillAddax_mem K h
  | rillAddaxC _ _ => exact execRillAddaxC_mem K h
  | macr _ _ _ _ _ _ => exact execMacr_mem K h
  | mack _ _ _ _ _ _ => exact execMack_mem K h
  | macc _ _ _ _ _ _ => exact execMacc_mem K h
  | macw _ _ _ _ _ _ => exact execMacw_mem K h
  | tapm _ _ _ _ _ => exact execTapm_mem K h
  | snop _ _ => exact execSnop_mem K h
  | basinMov _ _ _ => exact execBasinMov_mem K h
  | basinAdd _ _ _ => exact execBasinAdd_mem K h
  | basinSub _ _ _ => exact execBasinSub_mem K h
  | addi _ _ _ => exact execAddi_mem K h
  | ldi _ _ _ => exact execLdi_mem K h
  | ldih _ _ _ => exact execLdih_mem K h
  | basinAnd _ _ _ => exact execBasinAnd_mem K h
  | basinOr _ _ _ => exact execBasinOr_mem K h
  | basinXor _ _ _ => exact execBasinXor_mem K h
  | andi _ _ _ => exact execAndi_mem K h
  | basinShl _ _ _ => exact execBasinShl_mem K h
  | basinShr _ _ _ => exact execBasinShr_mem K h
  | sra _ _ _ => exact execSra_mem K h
  | adds _ _ _ => exact execAdds_mem K h
  | subs _ _ _ => exact execSubs_mem K h
  | basinMin _ _ _ => exact execBasinMin_mem K h
  | basinMax _ _ _ => exact execBasinMax_mem K h
  | mulf _ _ _ => exact execMulf_mem K h
  | muli _ _ _ => exact execMuli_mem K h
  | cls _ _ _ => exact execCls_mem K h
  | basinCmpeq _ _ _ => exact execBasinCmpeq_mem K h
  | basinCmplt _ _ _ => exact execBasinCmplt_mem K h
  | cmpltu _ _ _ => exact execCmpltu_mem K h
  | basinCmple _ _ _ => exact execBasinCmple_mem K h
  | cmpeqi _ _ _ => exact execCmpeqi_mem K h
  | cmplti _ _ _ => exact execCmplti_mem K h
  | basinPlog _ _ _ => exact execBasinPlog_mem K h
  | mfc _ _ _ => exact execMfc_mem K h
  | mtc _ _ _ => exact execMtc_mem K h
  | mset _ _ _ => exact execMset_mem K h
  | mget _ _ _ => exact execMget_mem K h
  | br _ _ _ => exact execBr_mem K h
  | brl _ _ _ => exact execBrl_mem K h
  | brr _ _ _ => exact execBrr_mem K h
  | brt _ _ _ => exact execBrt_mem K h
  | trap _ _ => exact execTrap_mem K h
  | rfe _ _ => exact execRfe_mem K h
  | mnop _ _ => exact execMnop_mem K h
  | lds _ _ _ => exact execLds_mem K h
  | sts _ _ _ => exact execSts_mem K h
  | ldv _ _ _ => exact execLdv_mem K h
  | stv _ _ _ => exact execStv_mem K h
  | ldbc _ _ _ => exact execLdbc_mem K h
  | ld2v _ _ _ _ => exact execLd2v_mem K h
  | st2v _ _ _ _ => exact execSt2v_mem K h
  | lsv _ _ _ _ => exact execLsv_mem K h
  | ld2s _ _ _ _ => exact execLd2s_mem K h
  | ldbv _ _ _ => exact execLdbv_mem K h
  | stbv _ _ _ => exact execStbv_mem K h
  | ldb8 _ _ _ => exact execLdb8_mem K h
  | stb8 _ _ _ => exact execStb8_mem K h
  | vnop _ _ => exact execVnop_mem K h
  | vmov _ _ _ => exact execVmov_mem K h
  | vadd _ _ _ => exact execVadd_mem K h
  | vsub _ _ _ => exact execVsub_mem K h
  | vcadd _ _ _ => exact execVcadd_mem K h
  | vcsub _ _ _ => exact execVcsub_mem K h
  | vconj _ _ _ => exact execVconj_mem K h
  | vneg _ _ _ => exact execVneg_mem K h
  | vmax _ _ _ => exact execVmax_mem K h
  | vmin _ _ _ => exact execVmin_mem K h
  | vsel _ _ _ => exact execVsel_mem K h
  | vperm _ _ _ => exact execVperm_mem K h
  | vbcast _ _ _ => exact execVbcast_mem K h
  | vext _ _ _ => exact execVext_mem K h
  | vcmplt _ _ _ => exact execVcmplt_mem K h
  | vcmple _ _ _ => exact execVcmple_mem K h
  | vscale _ _ _ => exact execVscale_mem K h
  | vnorm _ _ _ => exact execVnorm_mem K h
  | vabs2 _ _ _ => exact execVabs2_mem K h
  | vrcp _ _ _ => exact execVrcp_mem K h
  | vmac _ _ _ => exact execVmac_mem K h
  | vcmac _ _ _ => exact execVcmac_mem K h
  | vcmacj _ _ _ => exact execVcmacj_mem K h
  | vtapm _ _ _ => exact execVtapm_mem K h
  | vmulr _ _ _ => exact execVmulr_mem K h
  | vcmulr _ _ _ => exact execVcmulr_mem K h
  | vcmuljr _ _ _ => exact execVcmuljr_mem K h
  | vsta _ _ _ => exact execVsta_mem K h
  | vstax _ _ _ => exact execVstax_mem K h
  | vlda _ _ _ => exact execVlda_mem K h
  | vldax _ _ _ => exact execVldax_mem K h
  | vaclr _ _ _ => exact execVaclr_mem K h
  | vnlmsu _ _ _ => exact execVnlmsu_mem K h
  | vtw _ _ _ => exact execVtw_mem K h
  | vbf4 _ _ _ => exact execVbf4_mem K h
  | programStoreWrite _ _ _ _ => exact execProgramStoreWrite_mem K h
  | codeStoreWrite _ _ _ _ => exact execCodeStoreWrite_mem K h
  | engineWindowWrite _ _ _ => exact execEngineWindowWrite_mem K h
  | yardWordAccess _ _ _ => exact execYardWordAccess_mem K h
  | yardByteWrite _ _ _ => exact execYardByteWrite_mem K h
  | correctedWordWriteBack _ => exact execCorrectedWordWriteBack_mem K h
  | scrubRow _ => exact execScrubRow_mem K h
  | tackRoomAccess _ _ _ _ => exact execTackRoomAccess_mem K h
  | wlock _ => exact execWlock_mem K h
  | tamper => exact execTamper_mem K h
  | tackWipeEnd => exact execTackWipeEnd_mem K h
  | defaultTargetAccess _ _ _ _ => exact execDefaultTargetAccess_mem K h
  | memBankOwnerWrite _ _ _ => exact execMemBankOwnerWrite_mem K h
  | handoverComplete _ => exact execHandoverComplete_mem K h
  | wakeClearEnd => exact execWakeClearEnd_mem K h
  | pdmClkEnWrite _ => exact execPdmClkEnWrite_mem K h
  | pdmSettleEnd _ => exact execPdmSettleEnd_mem K h
  | pdmStuck _ => exact execPdmStuck_mem K h
  | pgaStep _ => exact execPgaStep_mem K h
  | biasShort _ => exact execBiasShort_mem K h
  | tdmCtrlWrite _ _ => exact execTdmCtrlWrite_mem K h
  | tdmFrameWrite _ _ => exact execTdmFrameWrite_mem K h
  | tdmRxFrame _ _ _ => exact execTdmRxFrame_mem K h
  | tdmFsEdge _ => exact execTdmFsEdge_mem K h
  | clkLost _ => exact execClkLost_mem K h
  | dllLock _ _ => exact execDllLock_mem K h
  | asrcLock _ _ => exact execAsrcLock_mem K h
  | asrcUnlock _ => exact execAsrcUnlock_mem K h
  | mpllConfigWrite _ _ => exact execMpllConfigWrite_mem K h
  | mpllLock _ => exact execMpllLock_mem K h
  | mpllOver => exact execMpllOver_mem K h
  | mpllTimeout => exact execMpllTimeout_mem K h
  | holdover _ => exact execHoldover_mem K h
  | resumed => exact execResumed_mem K h
  | mncoAdjWrite _ => exact execMncoAdjWrite_mem K h
  | adjSlewStep => exact execAdjSlewStep_mem K h
  | mncoFwHiWrite _ => exact execMncoFwHiWrite_mem K h
  | clockFault => exact execClockFault_mem K h
  | clkoutCtrlWrite _ => exact execClkoutCtrlWrite_mem K h
  | ethCtrlWrite _ _ => exact execEthCtrlWrite_mem K h
  | ethMdioCmdWrite _ _ => exact execEthMdioCmdWrite_mem K h
  | mdioComplete _ _ => exact execMdioComplete_mem K h
  | linkChange _ _ _ _ => exact execLinkChange_mem K h
  | txFrameStart _ _ _ _ => exact execTxFrameStart_mem K h
  | collision _ _ => exact execCollision_mem K h
  | backoffEnd _ => exact execBackoffEnd_mem K h
  | txDescriptor _ _ _ _ _ => exact execTxDescriptor_mem K h
  | rxFrame _ _ _ _ _ _ => exact execRxFrame_mem K h
  | ethFiltCWrite _ _ _ => exact execEthFiltCWrite_mem K h
  | txtsPop _ => exact execTxtsPop_mem K h
  | lpiEntry _ => exact execLpiEntry_mem K h
  | downshift _ => exact execDownshift_mem K h
  | downshiftReturn _ => exact execDownshiftReturn_mem K h
  | t1sAudioCycle => exact execT1sAudioCycle_mem K h
  | t1sUplinkFrame => exact execT1sUplinkFrame_mem K h
  | timeLoad => exact execTimeLoad_mem K h
  | timeAdd => exact execTimeAdd_mem K h
  | timeCapture _ _ => exact execTimeCapture_mem K h
  | timeCompare _ _ => exact execTimeCompare_mem K h
  | comparePulseEnd _ => exact execComparePulseEnd_mem K h
  | timeCapCfgWrite _ _ _ => exact execTimeCapCfgWrite_mem K h
  | stxCtrlWrite _ _ _ _ => exact execStxCtrlWrite_mem K h
  | streamTxPacket _ => exact execStreamTxPacket_mem K h
  | streamRxPacket => exact execStreamRxPacket_mem K h
  | streamLoss _ => exact execStreamLoss_mem K h
  | barRequest _ _ _ => exact execBarRequest_mem K h
  | hostLinkDown _ => exact execHostLinkDown_mem K h
  | doorbell _ _ _ _ => exact execDoorbell_mem K h
  | ringCfgWrite _ _ => exact execRingCfgWrite_mem K h
  | ringStopped _ => exact execRingStopped_mem K h
  | hostReadError _ _ => exact execHostReadError_mem K h
  | nopCommand _ _ => exact execNopCommand_mem K h
  | identify _ _ => exact execIdentify_mem K h
  | loadWords _ _ _ _ _ => exact execLoadWords_mem K h
  | readWords _ _ _ _ => exact execReadWords_mem K h
  | loadBytes _ _ _ _ _ => exact execLoadBytes_mem K h
  | readBytes _ _ _ _ => exact execReadBytes_mem K h
  | commitCommand _ _ _ _ => exact execCommitCommand_mem K h
  | commitWaitCompletion => exact execCommitWaitCompletion_mem K h
  | groupMask _ _ _ _ => exact execGroupMask_mem K h
  | abortGroup _ _ => exact execAbortGroup_mem K h
  | modeSet _ _ _ _ => exact execModeSet_mem K h
  | policyLoad _ _ _ _ => exact execPolicyLoad_mem K h
  | flashProgram _ _ _ _ _ => exact execFlashProgram_mem K h
  | flashErase _ _ _ => exact execFlashErase_mem K h
  | resetCommand _ _ => exact execResetCommand_mem K h
  | ainPeriodStart _ => exact execAinPeriodStart_mem K h
  | ainDescriptorFetch _ _ => exact execAinDescriptorFetch_mem K h
  | aoutPeriodEnd _ _ => exact execAoutPeriodEnd_mem K h
  | moderationEnd _ => exact execModerationEnd_mem K h
  | hostCtrlWrite _ => exact execHostCtrlWrite_mem K h
  | irqAck => exact execIrqAck_mem K h
  | cspRole _ => exact execCspRole_mem K h
  | cspStart _ => exact execCspStart_mem K h
  | mDone _ => exact execMDone_mem K h
  | cspFifoPush _ _ => exact execCspFifoPush_mem K h
  | cspFifoPop _ => exact execCspFifoPop_mem K h
  | cspSelNAssert => exact execCspSelNAssert_mem K h
  | cspSlaveWord _ _ => exact execCspSlaveWord_mem K h
  | cspSelNRelease _ => exact execCspSelNRelease_mem K h
  | bootStarted => exact execBootStarted_mem K h
  | bootConfirm => exact execBootConfirm_mem K h
  | startTimeout => exact execStartTimeout_mem K h
  | bootSafeReq _ => exact execBootSafeReq_mem K h
  | bootGo _ => exact execBootGo_mem K h
  | bootLcReq _ => exact execBootLcReq_mem K h
  | dbgReq _ => exact execDbgReq_mem K h
  | progHash _ => exact execProgHash_mem K h
  | revoke _ => exact execRevoke_mem K h
  | programGranule _ => exact execProgramGranule_mem K h
  | eraseBlock _ => exact execEraseBlock_mem K h
  | flashOperationDone _ => exact execFlashOperationDone_mem K h
  | policyEvaluation _ => exact execPolicyEvaluation_mem K h
  | shadowRotate _ => exact execShadowRotate_mem K h
  | shadowCopyEnd _ => exact execShadowCopyEnd_mem K h
  | skipped => exact execSkipped_mem K h
  | bistEnd _ _ _ => exact execBistEnd_mem K h
  | laneShadow _ _ => exact execLaneShadow_mem K h
  | bankMigrationStart _ _ => exact execBankMigrationStart_mem K h
  | bankRemap _ => exact execBankRemap_mem K h
  | farApply _ => exact execFarApply_mem K h
  | tetherHello => exact execTetherHello_mem K h
  | tetherMessageReceive _ _ _ => exact execTetherMessageReceive_mem K h
  | tethMsgTxWrite _ _ => exact execTethMsgTxWrite_mem K h
  | tethMsgRxRead _ => exact execTethMsgRxRead_mem K h
  | laneFail _ _ => exact execLaneFail_mem K h
  | laneMessage _ _ _ => exact execLaneMessage_mem K h
  | syncGo _ => exact execSyncGo_mem K h
  | syncCommit => exact execSyncCommit_mem K h
  | rejoin _ => exact execRejoin_mem K h
  | powerOn _ => exact execPowerOn_mem K h
  | resetN => exact execResetN_mem K h
  | railFault => exact execRailFault_mem K h
  | railDroop _ => exact execRailDroop_mem K h
  | resetRelease => exact execResetRelease_mem K h
  | stbyReq _ => exact execStbyReq_mem K h
  | pwrOnFall => exact execPwrOnFall_mem K h
  | wake _ _ => exact execWake_mem K h
  | pwrRtcSecWrite _ => exact execPwrRtcSecWrite_mem K h
  | gpioCfgWrite _ _ => exact execGpioCfgWrite_mem K h
  | gpioSet _ _ => exact execGpioSet_mem K h
  | gpioClr _ _ => exact execGpioClr_mem K h
  | gpioEdge _ _ => exact execGpioEdge_mem K h
  | tickSwitch _ _ => exact execTickSwitch_mem K h
  | debugBridgeAccess _ _ _ => exact execDebugBridgeAccess_mem K h
  | registerWrite _ _ _ _ => exact execRegisterWrite_mem K h
  | mpllGateClose => exact execMpllGateClose_mem K h
  | hostLinkUp _ _ _ _ _ => exact execHostLinkUp_mem K h
  | tetherLinkUp _ _ => exact execTetherLinkUp_mem K h
  | tamperRelease => exact execTamperRelease_mem K h
  | lpiRx _ _ => exact execLpiRx_mem K h
  | txFrameEnd _ _ => exact execTxFrameEnd_mem K h
  | witnessExpiry => exact execWitnessExpiry_mem K h
  | spareLaneRotate _ => exact execSpareLaneRotate_mem K h
  | latchedWake => exact execLatchedWake_mem K h

omit K in
/-- The canonical form is kept by every operation of the store. -/
theorem memKeeps_wf : MemKeeps fun _ r y f t e m c => Cells.wf regReset r = true ∧ Cells.wf zeroAt y = true ∧
    Cells.wf flashErased f = true ∧ Cells.wf zeroAt t = true ∧ Cells.wf zeroAt e = true ∧ Cells.wf zeroAt m = true ∧
    Cells.wf zeroAt c = true where
  regSet _ _ h := ⟨Cells.wf_write h.1, h.2⟩
  regKeep _ h := ⟨Cells.wf_keep h.1, h.2⟩
  regClear h := ⟨rfl, h.2⟩
  yardSet _ _ h := ⟨h.1, Cells.wf_set h.2.1, h.2.2⟩
  yardClear h := ⟨h.1, rfl, h.2.2⟩
  flashWrite _ _ h := ⟨h.1, h.2.1, Cells.wf_write h.2.2.1, h.2.2.2⟩
  flashKeep _ h := ⟨h.1, h.2.1, Cells.wf_keep h.2.2.1, h.2.2.2⟩
  tackSet _ _ h := ⟨h.1, h.2.1, h.2.2.1, Cells.wf_set h.2.2.2.1, h.2.2.2.2⟩
  tackClear h := ⟨h.1, h.2.1, h.2.2.1, rfl, h.2.2.2.2⟩
  eccSet _ _ h := ⟨h.1, h.2.1, h.2.2.1, h.2.2.2.1, Cells.wf_set h.2.2.2.2.1, h.2.2.2.2.2⟩
  eccKeep _ h := ⟨h.1, h.2.1, h.2.2.1, h.2.2.2.1, Cells.wf_keep h.2.2.2.2.1, h.2.2.2.2.2⟩
  eccClear h := ⟨h.1, h.2.1, h.2.2.1, h.2.2.2.1, rfl, h.2.2.2.2.2⟩
  markSet _ _ h := ⟨h.1, h.2.1, h.2.2.1, h.2.2.2.1, h.2.2.2.2.1, Cells.wf_set h.2.2.2.2.2.1, h.2.2.2.2.2.2⟩
  markClear h := ⟨h.1, h.2.1, h.2.2.1, h.2.2.2.1, h.2.2.2.2.1, rfl, h.2.2.2.2.2.2⟩
  claimSet _ _ h := ⟨h.1, h.2.1, h.2.2.1, h.2.2.2.1, h.2.2.2.2.1, h.2.2.2.2.2.1, Cells.wf_set h.2.2.2.2.2.2⟩
  claimClear h := ⟨h.1, h.2.1, h.2.2.1, h.2.2.2.1, h.2.2.2.2.1, h.2.2.2.2.2.1, rfl⟩

omit K in
/-- The queue is kept by every operation of the store. -/
theorem memKeeps_pending (q : List Instr) : MemKeeps fun p _ _ _ _ _ _ _ => p = q where
  regSet _ _ h := h
  regKeep _ h := h
  regClear h := h
  yardSet _ _ h := h
  yardClear h := h
  flashWrite _ _ h := h
  flashKeep _ h := h
  tackSet _ _ h := h
  tackClear h := h
  eccSet _ _ h := h
  eccKeep _ h := h
  eccClear h := h
  markSet _ _ h := h
  markClear h := h
  claimSet _ _ h := h
  claimClear h := h

end Sys2Proof.Machine
end

