-- ==== Sys2Proof/Laws/State.lean ====
section
/-! SUPPORT. One lemma per field and update: what each small update of the state leaves alone, and what a register reads after it. -/
namespace Sys2Proof.Machine

variable {s : State}

@[simp] theorem State.setReg_pending {a : Nat} {v : BitVec 32} : (State.setReg s a v).pending = s.pending := rfl
@[simp] theorem State.setReg_tick {a : Nat} {v : BitVec 32} : (State.setReg s a v).tick = s.tick := rfl
@[simp] theorem State.setReg_rill {a : Nat} {v : BitVec 32} : (State.setReg s a v).rill = s.rill := rfl
@[simp] theorem State.setReg_basin {a : Nat} {v : BitVec 32} : (State.setReg s a v).basin = s.basin := rfl
@[simp] theorem State.setReg_cc {a : Nat} {v : BitVec 32} : (State.setReg s a v).cc = s.cc := rfl
@[simp] theorem State.setReg_bus {a : Nat} {v : BitVec 32} : (State.setReg s a v).bus = s.bus := rfl
@[simp] theorem State.setReg_fabric {a : Nat} {v : BitVec 32} : (State.setReg s a v).fabric = s.fabric := rfl
@[simp] theorem State.setReg_cascade {a : Nat} {v : BitVec 32} : (State.setReg s a v).cascade = s.cascade := rfl
@[simp] theorem State.setReg_sets {a : Nat} {v : BitVec 32} : (State.setReg s a v).sets = s.sets := rfl
@[simp] theorem State.setReg_yard {a : Nat} {v : BitVec 32} : (State.setReg s a v).yard = s.yard := rfl
@[simp] theorem State.setReg_ecc {a : Nat} {v : BitVec 32} : (State.setReg s a v).ecc = s.ecc := rfl
@[simp] theorem State.setReg_wb {a : Nat} {v : BitVec 32} : (State.setReg s a v).wb = s.wb := rfl
@[simp] theorem State.setReg_claims {a : Nat} {v : BitVec 32} : (State.setReg s a v).claims = s.claims := rfl
@[simp] theorem State.setReg_ports {a : Nat} {v : BitVec 32} : (State.setReg s a v).ports = s.ports := rfl
@[simp] theorem State.setReg_host {a : Nat} {v : BitVec 32} : (State.setReg s a v).host = s.host := rfl
@[simp] theorem State.setReg_tether {a : Nat} {v : BitVec 32} : (State.setReg s a v).tether = s.tether := rfl
@[simp] theorem State.setReg_clock {a : Nat} {v : BitVec 32} : (State.setReg s a v).clock = s.clock := rfl
@[simp] theorem State.setReg_time {a : Nat} {v : BitVec 32} : (State.setReg s a v).time = s.time := rfl
@[simp] theorem State.setReg_eth {a : Nat} {v : BitVec 32} : (State.setReg s a v).eth = s.eth := rfl
@[simp] theorem State.setReg_t1s {a : Nat} {v : BitVec 32} : (State.setReg s a v).t1s = s.t1s := rfl
@[simp] theorem State.setReg_stream {a : Nat} {v : BitVec 32} : (State.setReg s a v).stream = s.stream := rfl
@[simp] theorem State.setReg_power {a : Nat} {v : BitVec 32} : (State.setReg s a v).power = s.power := rfl
@[simp] theorem State.setReg_boot {a : Nat} {v : BitVec 32} : (State.setReg s a v).boot = s.boot := rfl
@[simp] theorem State.setReg_sup {a : Nat} {v : BitVec 32} : (State.setReg s a v).sup = s.sup := rfl
@[simp] theorem State.setReg_far {a : Nat} {v : BitVec 32} : (State.setReg s a v).far = s.far := rfl
@[simp] theorem State.setReg_csp {a : Nat} {v : BitVec 32} : (State.setReg s a v).csp = s.csp := rfl
@[simp] theorem State.setReg_resp {a : Nat} {v : BitVec 32} : (State.setReg s a v).resp = s.resp := rfl
@[simp] theorem State.setReg_heldAcc {a : Nat} {v : BitVec 32} : (State.setReg s a v).heldAcc = s.heldAcc := rfl
@[simp] theorem State.setReg_freeCtr {a : Nat} {v : BitVec 32} : (State.setReg s a v).freeCtr = s.freeCtr := rfl

@[simp] theorem State.raise_pending {a : Nat} {m : BitVec 32} : (State.raise s a m).pending = s.pending := rfl
@[simp] theorem State.raise_tick {a : Nat} {m : BitVec 32} : (State.raise s a m).tick = s.tick := rfl
@[simp] theorem State.raise_rill {a : Nat} {m : BitVec 32} : (State.raise s a m).rill = s.rill := rfl
@[simp] theorem State.raise_basin {a : Nat} {m : BitVec 32} : (State.raise s a m).basin = s.basin := rfl
@[simp] theorem State.raise_cc {a : Nat} {m : BitVec 32} : (State.raise s a m).cc = s.cc := rfl
@[simp] theorem State.raise_bus {a : Nat} {m : BitVec 32} : (State.raise s a m).bus = s.bus := rfl
@[simp] theorem State.raise_fabric {a : Nat} {m : BitVec 32} : (State.raise s a m).fabric = s.fabric := rfl
@[simp] theorem State.raise_cascade {a : Nat} {m : BitVec 32} : (State.raise s a m).cascade = s.cascade := rfl
@[simp] theorem State.raise_sets {a : Nat} {m : BitVec 32} : (State.raise s a m).sets = s.sets := rfl
@[simp] theorem State.raise_yard {a : Nat} {m : BitVec 32} : (State.raise s a m).yard = s.yard := rfl
@[simp] theorem State.raise_ecc {a : Nat} {m : BitVec 32} : (State.raise s a m).ecc = s.ecc := rfl
@[simp] theorem State.raise_wb {a : Nat} {m : BitVec 32} : (State.raise s a m).wb = s.wb := rfl
@[simp] theorem State.raise_claims {a : Nat} {m : BitVec 32} : (State.raise s a m).claims = s.claims := rfl
@[simp] theorem State.raise_ports {a : Nat} {m : BitVec 32} : (State.raise s a m).ports = s.ports := rfl
@[simp] theorem State.raise_host {a : Nat} {m : BitVec 32} : (State.raise s a m).host = s.host := rfl
@[simp] theorem State.raise_tether {a : Nat} {m : BitVec 32} : (State.raise s a m).tether = s.tether := rfl
@[simp] theorem State.raise_clock {a : Nat} {m : BitVec 32} : (State.raise s a m).clock = s.clock := rfl
@[simp] theorem State.raise_time {a : Nat} {m : BitVec 32} : (State.raise s a m).time = s.time := rfl
@[simp] theorem State.raise_eth {a : Nat} {m : BitVec 32} : (State.raise s a m).eth = s.eth := rfl
@[simp] theorem State.raise_t1s {a : Nat} {m : BitVec 32} : (State.raise s a m).t1s = s.t1s := rfl
@[simp] theorem State.raise_stream {a : Nat} {m : BitVec 32} : (State.raise s a m).stream = s.stream := rfl
@[simp] theorem State.raise_power {a : Nat} {m : BitVec 32} : (State.raise s a m).power = s.power := rfl
@[simp] theorem State.raise_boot {a : Nat} {m : BitVec 32} : (State.raise s a m).boot = s.boot := rfl
@[simp] theorem State.raise_sup {a : Nat} {m : BitVec 32} : (State.raise s a m).sup = s.sup := rfl
@[simp] theorem State.raise_far {a : Nat} {m : BitVec 32} : (State.raise s a m).far = s.far := rfl
@[simp] theorem State.raise_csp {a : Nat} {m : BitVec 32} : (State.raise s a m).csp = s.csp := rfl
@[simp] theorem State.raise_resp {a : Nat} {m : BitVec 32} : (State.raise s a m).resp = s.resp := rfl
@[simp] theorem State.raise_heldAcc {a : Nat} {m : BitVec 32} : (State.raise s a m).heldAcc = s.heldAcc := rfl
@[simp] theorem State.raise_freeCtr {a : Nat} {m : BitVec 32} : (State.raise s a m).freeCtr = s.freeCtr := rfl

@[simp] theorem State.lower_pending {a : Nat} {m : BitVec 32} : (State.lower s a m).pending = s.pending := rfl
@[simp] theorem State.lower_tick {a : Nat} {m : BitVec 32} : (State.lower s a m).tick = s.tick := rfl
@[simp] theorem State.lower_rill {a : Nat} {m : BitVec 32} : (State.lower s a m).rill = s.rill := rfl
@[simp] theorem State.lower_basin {a : Nat} {m : BitVec 32} : (State.lower s a m).basin = s.basin := rfl
@[simp] theorem State.lower_cc {a : Nat} {m : BitVec 32} : (State.lower s a m).cc = s.cc := rfl
@[simp] theorem State.lower_bus {a : Nat} {m : BitVec 32} : (State.lower s a m).bus = s.bus := rfl
@[simp] theorem State.lower_fabric {a : Nat} {m : BitVec 32} : (State.lower s a m).fabric = s.fabric := rfl
@[simp] theorem State.lower_cascade {a : Nat} {m : BitVec 32} : (State.lower s a m).cascade = s.cascade := rfl
@[simp] theorem State.lower_sets {a : Nat} {m : BitVec 32} : (State.lower s a m).sets = s.sets := rfl
@[simp] theorem State.lower_yard {a : Nat} {m : BitVec 32} : (State.lower s a m).yard = s.yard := rfl
@[simp] theorem State.lower_ecc {a : Nat} {m : BitVec 32} : (State.lower s a m).ecc = s.ecc := rfl
@[simp] theorem State.lower_wb {a : Nat} {m : BitVec 32} : (State.lower s a m).wb = s.wb := rfl
@[simp] theorem State.lower_claims {a : Nat} {m : BitVec 32} : (State.lower s a m).claims = s.claims := rfl
@[simp] theorem State.lower_ports {a : Nat} {m : BitVec 32} : (State.lower s a m).ports = s.ports := rfl
@[simp] theorem State.lower_host {a : Nat} {m : BitVec 32} : (State.lower s a m).host = s.host := rfl
@[simp] theorem State.lower_tether {a : Nat} {m : BitVec 32} : (State.lower s a m).tether = s.tether := rfl
@[simp] theorem State.lower_clock {a : Nat} {m : BitVec 32} : (State.lower s a m).clock = s.clock := rfl
@[simp] theorem State.lower_time {a : Nat} {m : BitVec 32} : (State.lower s a m).time = s.time := rfl
@[simp] theorem State.lower_eth {a : Nat} {m : BitVec 32} : (State.lower s a m).eth = s.eth := rfl
@[simp] theorem State.lower_t1s {a : Nat} {m : BitVec 32} : (State.lower s a m).t1s = s.t1s := rfl
@[simp] theorem State.lower_stream {a : Nat} {m : BitVec 32} : (State.lower s a m).stream = s.stream := rfl
@[simp] theorem State.lower_power {a : Nat} {m : BitVec 32} : (State.lower s a m).power = s.power := rfl
@[simp] theorem State.lower_boot {a : Nat} {m : BitVec 32} : (State.lower s a m).boot = s.boot := rfl
@[simp] theorem State.lower_sup {a : Nat} {m : BitVec 32} : (State.lower s a m).sup = s.sup := rfl
@[simp] theorem State.lower_far {a : Nat} {m : BitVec 32} : (State.lower s a m).far = s.far := rfl
@[simp] theorem State.lower_csp {a : Nat} {m : BitVec 32} : (State.lower s a m).csp = s.csp := rfl
@[simp] theorem State.lower_resp {a : Nat} {m : BitVec 32} : (State.lower s a m).resp = s.resp := rfl
@[simp] theorem State.lower_heldAcc {a : Nat} {m : BitVec 32} : (State.lower s a m).heldAcc = s.heldAcc := rfl
@[simp] theorem State.lower_freeCtr {a : Nat} {m : BitVec 32} : (State.lower s a m).freeCtr = s.freeCtr := rfl

@[simp] theorem State.raiseIf_pending {c : Bool} {a : Nat} {m : BitVec 32} : (State.raiseIf s c a m).pending = s.pending := by cases c <;> rfl
@[simp] theorem State.raiseIf_tick {c : Bool} {a : Nat} {m : BitVec 32} : (State.raiseIf s c a m).tick = s.tick := by cases c <;> rfl
@[simp] theorem State.raiseIf_rill {c : Bool} {a : Nat} {m : BitVec 32} : (State.raiseIf s c a m).rill = s.rill := by cases c <;> rfl
@[simp] theorem State.raiseIf_basin {c : Bool} {a : Nat} {m : BitVec 32} : (State.raiseIf s c a m).basin = s.basin := by cases c <;> rfl
@[simp] theorem State.raiseIf_cc {c : Bool} {a : Nat} {m : BitVec 32} : (State.raiseIf s c a m).cc = s.cc := by cases c <;> rfl
@[simp] theorem State.raiseIf_bus {c : Bool} {a : Nat} {m : BitVec 32} : (State.raiseIf s c a m).bus = s.bus := by cases c <;> rfl
@[simp] theorem State.raiseIf_fabric {c : Bool} {a : Nat} {m : BitVec 32} : (State.raiseIf s c a m).fabric = s.fabric := by cases c <;> rfl
@[simp] theorem State.raiseIf_cascade {c : Bool} {a : Nat} {m : BitVec 32} : (State.raiseIf s c a m).cascade = s.cascade := by cases c <;> rfl
@[simp] theorem State.raiseIf_sets {c : Bool} {a : Nat} {m : BitVec 32} : (State.raiseIf s c a m).sets = s.sets := by cases c <;> rfl
@[simp] theorem State.raiseIf_yard {c : Bool} {a : Nat} {m : BitVec 32} : (State.raiseIf s c a m).yard = s.yard := by cases c <;> rfl
@[simp] theorem State.raiseIf_ecc {c : Bool} {a : Nat} {m : BitVec 32} : (State.raiseIf s c a m).ecc = s.ecc := by cases c <;> rfl
@[simp] theorem State.raiseIf_wb {c : Bool} {a : Nat} {m : BitVec 32} : (State.raiseIf s c a m).wb = s.wb := by cases c <;> rfl
@[simp] theorem State.raiseIf_claims {c : Bool} {a : Nat} {m : BitVec 32} : (State.raiseIf s c a m).claims = s.claims := by cases c <;> rfl
@[simp] theorem State.raiseIf_ports {c : Bool} {a : Nat} {m : BitVec 32} : (State.raiseIf s c a m).ports = s.ports := by cases c <;> rfl
@[simp] theorem State.raiseIf_host {c : Bool} {a : Nat} {m : BitVec 32} : (State.raiseIf s c a m).host = s.host := by cases c <;> rfl
@[simp] theorem State.raiseIf_tether {c : Bool} {a : Nat} {m : BitVec 32} : (State.raiseIf s c a m).tether = s.tether := by cases c <;> rfl
@[simp] theorem State.raiseIf_clock {c : Bool} {a : Nat} {m : BitVec 32} : (State.raiseIf s c a m).clock = s.clock := by cases c <;> rfl
@[simp] theorem State.raiseIf_time {c : Bool} {a : Nat} {m : BitVec 32} : (State.raiseIf s c a m).time = s.time := by cases c <;> rfl
@[simp] theorem State.raiseIf_eth {c : Bool} {a : Nat} {m : BitVec 32} : (State.raiseIf s c a m).eth = s.eth := by cases c <;> rfl
@[simp] theorem State.raiseIf_t1s {c : Bool} {a : Nat} {m : BitVec 32} : (State.raiseIf s c a m).t1s = s.t1s := by cases c <;> rfl
@[simp] theorem State.raiseIf_stream {c : Bool} {a : Nat} {m : BitVec 32} : (State.raiseIf s c a m).stream = s.stream := by cases c <;> rfl
@[simp] theorem State.raiseIf_power {c : Bool} {a : Nat} {m : BitVec 32} : (State.raiseIf s c a m).power = s.power := by cases c <;> rfl
@[simp] theorem State.raiseIf_boot {c : Bool} {a : Nat} {m : BitVec 32} : (State.raiseIf s c a m).boot = s.boot := by cases c <;> rfl
@[simp] theorem State.raiseIf_sup {c : Bool} {a : Nat} {m : BitVec 32} : (State.raiseIf s c a m).sup = s.sup := by cases c <;> rfl
@[simp] theorem State.raiseIf_far {c : Bool} {a : Nat} {m : BitVec 32} : (State.raiseIf s c a m).far = s.far := by cases c <;> rfl
@[simp] theorem State.raiseIf_csp {c : Bool} {a : Nat} {m : BitVec 32} : (State.raiseIf s c a m).csp = s.csp := by cases c <;> rfl
@[simp] theorem State.raiseIf_resp {c : Bool} {a : Nat} {m : BitVec 32} : (State.raiseIf s c a m).resp = s.resp := by cases c <;> rfl
@[simp] theorem State.raiseIf_heldAcc {c : Bool} {a : Nat} {m : BitVec 32} : (State.raiseIf s c a m).heldAcc = s.heldAcc := by cases c <;> rfl
@[simp] theorem State.raiseIf_freeCtr {c : Bool} {a : Nat} {m : BitVec 32} : (State.raiseIf s c a m).freeCtr = s.freeCtr := by cases c <;> rfl

@[simp] theorem State.setFld_pending {a lo w v : Nat} : (State.setFld s a lo w v).pending = s.pending := rfl
@[simp] theorem State.setFld_tick {a lo w v : Nat} : (State.setFld s a lo w v).tick = s.tick := rfl
@[simp] theorem State.setFld_rill {a lo w v : Nat} : (State.setFld s a lo w v).rill = s.rill := rfl
@[simp] theorem State.setFld_basin {a lo w v : Nat} : (State.setFld s a lo w v).basin = s.basin := rfl
@[simp] theorem State.setFld_cc {a lo w v : Nat} : (State.setFld s a lo w v).cc = s.cc := rfl
@[simp] theorem State.setFld_bus {a lo w v : Nat} : (State.setFld s a lo w v).bus = s.bus := rfl
@[simp] theorem State.setFld_fabric {a lo w v : Nat} : (State.setFld s a lo w v).fabric = s.fabric := rfl
@[simp] theorem State.setFld_cascade {a lo w v : Nat} : (State.setFld s a lo w v).cascade = s.cascade := rfl
@[simp] theorem State.setFld_sets {a lo w v : Nat} : (State.setFld s a lo w v).sets = s.sets := rfl
@[simp] theorem State.setFld_yard {a lo w v : Nat} : (State.setFld s a lo w v).yard = s.yard := rfl
@[simp] theorem State.setFld_ecc {a lo w v : Nat} : (State.setFld s a lo w v).ecc = s.ecc := rfl
@[simp] theorem State.setFld_wb {a lo w v : Nat} : (State.setFld s a lo w v).wb = s.wb := rfl
@[simp] theorem State.setFld_claims {a lo w v : Nat} : (State.setFld s a lo w v).claims = s.claims := rfl
@[simp] theorem State.setFld_ports {a lo w v : Nat} : (State.setFld s a lo w v).ports = s.ports := rfl
@[simp] theorem State.setFld_host {a lo w v : Nat} : (State.setFld s a lo w v).host = s.host := rfl
@[simp] theorem State.setFld_tether {a lo w v : Nat} : (State.setFld s a lo w v).tether = s.tether := rfl
@[simp] theorem State.setFld_clock {a lo w v : Nat} : (State.setFld s a lo w v).clock = s.clock := rfl
@[simp] theorem State.setFld_time {a lo w v : Nat} : (State.setFld s a lo w v).time = s.time := rfl
@[simp] theorem State.setFld_eth {a lo w v : Nat} : (State.setFld s a lo w v).eth = s.eth := rfl
@[simp] theorem State.setFld_t1s {a lo w v : Nat} : (State.setFld s a lo w v).t1s = s.t1s := rfl
@[simp] theorem State.setFld_stream {a lo w v : Nat} : (State.setFld s a lo w v).stream = s.stream := rfl
@[simp] theorem State.setFld_power {a lo w v : Nat} : (State.setFld s a lo w v).power = s.power := rfl
@[simp] theorem State.setFld_boot {a lo w v : Nat} : (State.setFld s a lo w v).boot = s.boot := rfl
@[simp] theorem State.setFld_sup {a lo w v : Nat} : (State.setFld s a lo w v).sup = s.sup := rfl
@[simp] theorem State.setFld_far {a lo w v : Nat} : (State.setFld s a lo w v).far = s.far := rfl
@[simp] theorem State.setFld_csp {a lo w v : Nat} : (State.setFld s a lo w v).csp = s.csp := rfl
@[simp] theorem State.setFld_resp {a lo w v : Nat} : (State.setFld s a lo w v).resp = s.resp := rfl
@[simp] theorem State.setFld_heldAcc {a lo w v : Nat} : (State.setFld s a lo w v).heldAcc = s.heldAcc := rfl
@[simp] theorem State.setFld_freeCtr {a lo w v : Nat} : (State.setFld s a lo w v).freeCtr = s.freeCtr := rfl

@[simp] theorem State.setBit_pending {a k : Nat} {b : Bool} : (State.setBit s a k b).pending = s.pending := rfl
@[simp] theorem State.setBit_tick {a k : Nat} {b : Bool} : (State.setBit s a k b).tick = s.tick := rfl
@[simp] theorem State.setBit_rill {a k : Nat} {b : Bool} : (State.setBit s a k b).rill = s.rill := rfl
@[simp] theorem State.setBit_basin {a k : Nat} {b : Bool} : (State.setBit s a k b).basin = s.basin := rfl
@[simp] theorem State.setBit_cc {a k : Nat} {b : Bool} : (State.setBit s a k b).cc = s.cc := rfl
@[simp] theorem State.setBit_bus {a k : Nat} {b : Bool} : (State.setBit s a k b).bus = s.bus := rfl
@[simp] theorem State.setBit_fabric {a k : Nat} {b : Bool} : (State.setBit s a k b).fabric = s.fabric := rfl
@[simp] theorem State.setBit_cascade {a k : Nat} {b : Bool} : (State.setBit s a k b).cascade = s.cascade := rfl
@[simp] theorem State.setBit_sets {a k : Nat} {b : Bool} : (State.setBit s a k b).sets = s.sets := rfl
@[simp] theorem State.setBit_yard {a k : Nat} {b : Bool} : (State.setBit s a k b).yard = s.yard := rfl
@[simp] theorem State.setBit_ecc {a k : Nat} {b : Bool} : (State.setBit s a k b).ecc = s.ecc := rfl
@[simp] theorem State.setBit_wb {a k : Nat} {b : Bool} : (State.setBit s a k b).wb = s.wb := rfl
@[simp] theorem State.setBit_claims {a k : Nat} {b : Bool} : (State.setBit s a k b).claims = s.claims := rfl
@[simp] theorem State.setBit_ports {a k : Nat} {b : Bool} : (State.setBit s a k b).ports = s.ports := rfl
@[simp] theorem State.setBit_host {a k : Nat} {b : Bool} : (State.setBit s a k b).host = s.host := rfl
@[simp] theorem State.setBit_tether {a k : Nat} {b : Bool} : (State.setBit s a k b).tether = s.tether := rfl
@[simp] theorem State.setBit_clock {a k : Nat} {b : Bool} : (State.setBit s a k b).clock = s.clock := rfl
@[simp] theorem State.setBit_time {a k : Nat} {b : Bool} : (State.setBit s a k b).time = s.time := rfl
@[simp] theorem State.setBit_eth {a k : Nat} {b : Bool} : (State.setBit s a k b).eth = s.eth := rfl
@[simp] theorem State.setBit_t1s {a k : Nat} {b : Bool} : (State.setBit s a k b).t1s = s.t1s := rfl
@[simp] theorem State.setBit_stream {a k : Nat} {b : Bool} : (State.setBit s a k b).stream = s.stream := rfl
@[simp] theorem State.setBit_power {a k : Nat} {b : Bool} : (State.setBit s a k b).power = s.power := rfl
@[simp] theorem State.setBit_boot {a k : Nat} {b : Bool} : (State.setBit s a k b).boot = s.boot := rfl
@[simp] theorem State.setBit_sup {a k : Nat} {b : Bool} : (State.setBit s a k b).sup = s.sup := rfl
@[simp] theorem State.setBit_far {a k : Nat} {b : Bool} : (State.setBit s a k b).far = s.far := rfl
@[simp] theorem State.setBit_csp {a k : Nat} {b : Bool} : (State.setBit s a k b).csp = s.csp := rfl
@[simp] theorem State.setBit_resp {a k : Nat} {b : Bool} : (State.setBit s a k b).resp = s.resp := rfl
@[simp] theorem State.setBit_heldAcc {a k : Nat} {b : Bool} : (State.setBit s a k b).heldAcc = s.heldAcc := rfl
@[simp] theorem State.setBit_freeCtr {a k : Nat} {b : Bool} : (State.setBit s a k b).freeCtr = s.freeCtr := rfl

@[simp] theorem State.count_pending {a lo w n : Nat} : (State.count s a lo w n).pending = s.pending := rfl
@[simp] theorem State.count_tick {a lo w n : Nat} : (State.count s a lo w n).tick = s.tick := rfl
@[simp] theorem State.count_rill {a lo w n : Nat} : (State.count s a lo w n).rill = s.rill := rfl
@[simp] theorem State.count_basin {a lo w n : Nat} : (State.count s a lo w n).basin = s.basin := rfl
@[simp] theorem State.count_cc {a lo w n : Nat} : (State.count s a lo w n).cc = s.cc := rfl
@[simp] theorem State.count_bus {a lo w n : Nat} : (State.count s a lo w n).bus = s.bus := rfl
@[simp] theorem State.count_fabric {a lo w n : Nat} : (State.count s a lo w n).fabric = s.fabric := rfl
@[simp] theorem State.count_cascade {a lo w n : Nat} : (State.count s a lo w n).cascade = s.cascade := rfl
@[simp] theorem State.count_sets {a lo w n : Nat} : (State.count s a lo w n).sets = s.sets := rfl
@[simp] theorem State.count_yard {a lo w n : Nat} : (State.count s a lo w n).yard = s.yard := rfl
@[simp] theorem State.count_ecc {a lo w n : Nat} : (State.count s a lo w n).ecc = s.ecc := rfl
@[simp] theorem State.count_wb {a lo w n : Nat} : (State.count s a lo w n).wb = s.wb := rfl
@[simp] theorem State.count_claims {a lo w n : Nat} : (State.count s a lo w n).claims = s.claims := rfl
@[simp] theorem State.count_ports {a lo w n : Nat} : (State.count s a lo w n).ports = s.ports := rfl
@[simp] theorem State.count_host {a lo w n : Nat} : (State.count s a lo w n).host = s.host := rfl
@[simp] theorem State.count_tether {a lo w n : Nat} : (State.count s a lo w n).tether = s.tether := rfl
@[simp] theorem State.count_clock {a lo w n : Nat} : (State.count s a lo w n).clock = s.clock := rfl
@[simp] theorem State.count_time {a lo w n : Nat} : (State.count s a lo w n).time = s.time := rfl
@[simp] theorem State.count_eth {a lo w n : Nat} : (State.count s a lo w n).eth = s.eth := rfl
@[simp] theorem State.count_t1s {a lo w n : Nat} : (State.count s a lo w n).t1s = s.t1s := rfl
@[simp] theorem State.count_stream {a lo w n : Nat} : (State.count s a lo w n).stream = s.stream := rfl
@[simp] theorem State.count_power {a lo w n : Nat} : (State.count s a lo w n).power = s.power := rfl
@[simp] theorem State.count_boot {a lo w n : Nat} : (State.count s a lo w n).boot = s.boot := rfl
@[simp] theorem State.count_sup {a lo w n : Nat} : (State.count s a lo w n).sup = s.sup := rfl
@[simp] theorem State.count_far {a lo w n : Nat} : (State.count s a lo w n).far = s.far := rfl
@[simp] theorem State.count_csp {a lo w n : Nat} : (State.count s a lo w n).csp = s.csp := rfl
@[simp] theorem State.count_resp {a lo w n : Nat} : (State.count s a lo w n).resp = s.resp := rfl
@[simp] theorem State.count_heldAcc {a lo w n : Nat} : (State.count s a lo w n).heldAcc = s.heldAcc := rfl
@[simp] theorem State.count_freeCtr {a lo w n : Nat} : (State.count s a lo w n).freeCtr = s.freeCtr := rfl

@[simp] theorem State.raiseAt_pending {a k : Nat} : (State.raiseAt s a k).pending = s.pending := rfl
@[simp] theorem State.raiseAt_tick {a k : Nat} : (State.raiseAt s a k).tick = s.tick := rfl
@[simp] theorem State.raiseAt_rill {a k : Nat} : (State.raiseAt s a k).rill = s.rill := rfl
@[simp] theorem State.raiseAt_basin {a k : Nat} : (State.raiseAt s a k).basin = s.basin := rfl
@[simp] theorem State.raiseAt_cc {a k : Nat} : (State.raiseAt s a k).cc = s.cc := rfl
@[simp] theorem State.raiseAt_bus {a k : Nat} : (State.raiseAt s a k).bus = s.bus := rfl
@[simp] theorem State.raiseAt_fabric {a k : Nat} : (State.raiseAt s a k).fabric = s.fabric := rfl
@[simp] theorem State.raiseAt_cascade {a k : Nat} : (State.raiseAt s a k).cascade = s.cascade := rfl
@[simp] theorem State.raiseAt_sets {a k : Nat} : (State.raiseAt s a k).sets = s.sets := rfl
@[simp] theorem State.raiseAt_yard {a k : Nat} : (State.raiseAt s a k).yard = s.yard := rfl
@[simp] theorem State.raiseAt_ecc {a k : Nat} : (State.raiseAt s a k).ecc = s.ecc := rfl
@[simp] theorem State.raiseAt_wb {a k : Nat} : (State.raiseAt s a k).wb = s.wb := rfl
@[simp] theorem State.raiseAt_claims {a k : Nat} : (State.raiseAt s a k).claims = s.claims := rfl
@[simp] theorem State.raiseAt_ports {a k : Nat} : (State.raiseAt s a k).ports = s.ports := rfl
@[simp] theorem State.raiseAt_host {a k : Nat} : (State.raiseAt s a k).host = s.host := rfl
@[simp] theorem State.raiseAt_tether {a k : Nat} : (State.raiseAt s a k).tether = s.tether := rfl
@[simp] theorem State.raiseAt_clock {a k : Nat} : (State.raiseAt s a k).clock = s.clock := rfl
@[simp] theorem State.raiseAt_time {a k : Nat} : (State.raiseAt s a k).time = s.time := rfl
@[simp] theorem State.raiseAt_eth {a k : Nat} : (State.raiseAt s a k).eth = s.eth := rfl
@[simp] theorem State.raiseAt_t1s {a k : Nat} : (State.raiseAt s a k).t1s = s.t1s := rfl
@[simp] theorem State.raiseAt_stream {a k : Nat} : (State.raiseAt s a k).stream = s.stream := rfl
@[simp] theorem State.raiseAt_power {a k : Nat} : (State.raiseAt s a k).power = s.power := rfl
@[simp] theorem State.raiseAt_boot {a k : Nat} : (State.raiseAt s a k).boot = s.boot := rfl
@[simp] theorem State.raiseAt_sup {a k : Nat} : (State.raiseAt s a k).sup = s.sup := rfl
@[simp] theorem State.raiseAt_far {a k : Nat} : (State.raiseAt s a k).far = s.far := rfl
@[simp] theorem State.raiseAt_csp {a k : Nat} : (State.raiseAt s a k).csp = s.csp := rfl
@[simp] theorem State.raiseAt_resp {a k : Nat} : (State.raiseAt s a k).resp = s.resp := rfl
@[simp] theorem State.raiseAt_heldAcc {a k : Nat} : (State.raiseAt s a k).heldAcc = s.heldAcc := rfl
@[simp] theorem State.raiseAt_freeCtr {a k : Nat} : (State.raiseAt s a k).freeCtr = s.freeCtr := rfl

@[simp] theorem State.lowerAt_pending {a k : Nat} : (State.lowerAt s a k).pending = s.pending := rfl
@[simp] theorem State.lowerAt_tick {a k : Nat} : (State.lowerAt s a k).tick = s.tick := rfl
@[simp] theorem State.lowerAt_rill {a k : Nat} : (State.lowerAt s a k).rill = s.rill := rfl
@[simp] theorem State.lowerAt_basin {a k : Nat} : (State.lowerAt s a k).basin = s.basin := rfl
@[simp] theorem State.lowerAt_cc {a k : Nat} : (State.lowerAt s a k).cc = s.cc := rfl
@[simp] theorem State.lowerAt_bus {a k : Nat} : (State.lowerAt s a k).bus = s.bus := rfl
@[simp] theorem State.lowerAt_fabric {a k : Nat} : (State.lowerAt s a k).fabric = s.fabric := rfl
@[simp] theorem State.lowerAt_cascade {a k : Nat} : (State.lowerAt s a k).cascade = s.cascade := rfl
@[simp] theorem State.lowerAt_sets {a k : Nat} : (State.lowerAt s a k).sets = s.sets := rfl
@[simp] theorem State.lowerAt_yard {a k : Nat} : (State.lowerAt s a k).yard = s.yard := rfl
@[simp] theorem State.lowerAt_ecc {a k : Nat} : (State.lowerAt s a k).ecc = s.ecc := rfl
@[simp] theorem State.lowerAt_wb {a k : Nat} : (State.lowerAt s a k).wb = s.wb := rfl
@[simp] theorem State.lowerAt_claims {a k : Nat} : (State.lowerAt s a k).claims = s.claims := rfl
@[simp] theorem State.lowerAt_ports {a k : Nat} : (State.lowerAt s a k).ports = s.ports := rfl
@[simp] theorem State.lowerAt_host {a k : Nat} : (State.lowerAt s a k).host = s.host := rfl
@[simp] theorem State.lowerAt_tether {a k : Nat} : (State.lowerAt s a k).tether = s.tether := rfl
@[simp] theorem State.lowerAt_clock {a k : Nat} : (State.lowerAt s a k).clock = s.clock := rfl
@[simp] theorem State.lowerAt_time {a k : Nat} : (State.lowerAt s a k).time = s.time := rfl
@[simp] theorem State.lowerAt_eth {a k : Nat} : (State.lowerAt s a k).eth = s.eth := rfl
@[simp] theorem State.lowerAt_t1s {a k : Nat} : (State.lowerAt s a k).t1s = s.t1s := rfl
@[simp] theorem State.lowerAt_stream {a k : Nat} : (State.lowerAt s a k).stream = s.stream := rfl
@[simp] theorem State.lowerAt_power {a k : Nat} : (State.lowerAt s a k).power = s.power := rfl
@[simp] theorem State.lowerAt_boot {a k : Nat} : (State.lowerAt s a k).boot = s.boot := rfl
@[simp] theorem State.lowerAt_sup {a k : Nat} : (State.lowerAt s a k).sup = s.sup := rfl
@[simp] theorem State.lowerAt_far {a k : Nat} : (State.lowerAt s a k).far = s.far := rfl
@[simp] theorem State.lowerAt_csp {a k : Nat} : (State.lowerAt s a k).csp = s.csp := rfl
@[simp] theorem State.lowerAt_resp {a k : Nat} : (State.lowerAt s a k).resp = s.resp := rfl
@[simp] theorem State.lowerAt_heldAcc {a k : Nat} : (State.lowerAt s a k).heldAcc = s.heldAcc := rfl
@[simp] theorem State.lowerAt_freeCtr {a k : Nat} : (State.lowerAt s a k).freeCtr = s.freeCtr := rfl

@[simp] theorem putCore_pending {n : Nat} {e : BasinEngine} : (putCore s n e).pending = s.pending := rfl
@[simp] theorem putCore_regs {n : Nat} {e : BasinEngine} : (putCore s n e).regs = s.regs := rfl
@[simp] theorem putCore_tick {n : Nat} {e : BasinEngine} : (putCore s n e).tick = s.tick := rfl
@[simp] theorem putCore_rill {n : Nat} {e : BasinEngine} : (putCore s n e).rill = s.rill := rfl
@[simp] theorem putCore_cc {n : Nat} {e : BasinEngine} : (putCore s n e).cc = s.cc := rfl
@[simp] theorem putCore_bus {n : Nat} {e : BasinEngine} : (putCore s n e).bus = s.bus := rfl
@[simp] theorem putCore_fabric {n : Nat} {e : BasinEngine} : (putCore s n e).fabric = s.fabric := rfl
@[simp] theorem putCore_cascade {n : Nat} {e : BasinEngine} : (putCore s n e).cascade = s.cascade := rfl
@[simp] theorem putCore_sets {n : Nat} {e : BasinEngine} : (putCore s n e).sets = s.sets := rfl
@[simp] theorem putCore_yard {n : Nat} {e : BasinEngine} : (putCore s n e).yard = s.yard := rfl
@[simp] theorem putCore_ecc {n : Nat} {e : BasinEngine} : (putCore s n e).ecc = s.ecc := rfl
@[simp] theorem putCore_wb {n : Nat} {e : BasinEngine} : (putCore s n e).wb = s.wb := rfl
@[simp] theorem putCore_claims {n : Nat} {e : BasinEngine} : (putCore s n e).claims = s.claims := rfl
@[simp] theorem putCore_ports {n : Nat} {e : BasinEngine} : (putCore s n e).ports = s.ports := rfl
@[simp] theorem putCore_host {n : Nat} {e : BasinEngine} : (putCore s n e).host = s.host := rfl
@[simp] theorem putCore_tether {n : Nat} {e : BasinEngine} : (putCore s n e).tether = s.tether := rfl
@[simp] theorem putCore_clock {n : Nat} {e : BasinEngine} : (putCore s n e).clock = s.clock := rfl
@[simp] theorem putCore_time {n : Nat} {e : BasinEngine} : (putCore s n e).time = s.time := rfl
@[simp] theorem putCore_eth {n : Nat} {e : BasinEngine} : (putCore s n e).eth = s.eth := rfl
@[simp] theorem putCore_t1s {n : Nat} {e : BasinEngine} : (putCore s n e).t1s = s.t1s := rfl
@[simp] theorem putCore_stream {n : Nat} {e : BasinEngine} : (putCore s n e).stream = s.stream := rfl
@[simp] theorem putCore_power {n : Nat} {e : BasinEngine} : (putCore s n e).power = s.power := rfl
@[simp] theorem putCore_boot {n : Nat} {e : BasinEngine} : (putCore s n e).boot = s.boot := rfl
@[simp] theorem putCore_sup {n : Nat} {e : BasinEngine} : (putCore s n e).sup = s.sup := rfl
@[simp] theorem putCore_far {n : Nat} {e : BasinEngine} : (putCore s n e).far = s.far := rfl
@[simp] theorem putCore_csp {n : Nat} {e : BasinEngine} : (putCore s n e).csp = s.csp := rfl
@[simp] theorem putCore_resp {n : Nat} {e : BasinEngine} : (putCore s n e).resp = s.resp := rfl
@[simp] theorem putCore_heldAcc {n : Nat} {e : BasinEngine} : (putCore s n e).heldAcc = s.heldAcc := rfl
@[simp] theorem putCore_freeCtr {n : Nat} {e : BasinEngine} : (putCore s n e).freeCtr = s.freeCtr := rfl

@[simp] theorem putSet_pending {k : Nat} {x : SetState} : (putSet s k x).pending = s.pending := rfl
@[simp] theorem putSet_regs {k : Nat} {x : SetState} : (putSet s k x).regs = s.regs := rfl
@[simp] theorem putSet_tick {k : Nat} {x : SetState} : (putSet s k x).tick = s.tick := rfl
@[simp] theorem putSet_rill {k : Nat} {x : SetState} : (putSet s k x).rill = s.rill := rfl
@[simp] theorem putSet_basin {k : Nat} {x : SetState} : (putSet s k x).basin = s.basin := rfl
@[simp] theorem putSet_cc {k : Nat} {x : SetState} : (putSet s k x).cc = s.cc := rfl
@[simp] theorem putSet_bus {k : Nat} {x : SetState} : (putSet s k x).bus = s.bus := rfl
@[simp] theorem putSet_fabric {k : Nat} {x : SetState} : (putSet s k x).fabric = s.fabric := rfl
@[simp] theorem putSet_cascade {k : Nat} {x : SetState} : (putSet s k x).cascade = s.cascade := rfl
@[simp] theorem putSet_yard {k : Nat} {x : SetState} : (putSet s k x).yard = s.yard := rfl
@[simp] theorem putSet_ecc {k : Nat} {x : SetState} : (putSet s k x).ecc = s.ecc := rfl
@[simp] theorem putSet_wb {k : Nat} {x : SetState} : (putSet s k x).wb = s.wb := rfl
@[simp] theorem putSet_claims {k : Nat} {x : SetState} : (putSet s k x).claims = s.claims := rfl
@[simp] theorem putSet_ports {k : Nat} {x : SetState} : (putSet s k x).ports = s.ports := rfl
@[simp] theorem putSet_host {k : Nat} {x : SetState} : (putSet s k x).host = s.host := rfl
@[simp] theorem putSet_tether {k : Nat} {x : SetState} : (putSet s k x).tether = s.tether := rfl
@[simp] theorem putSet_clock {k : Nat} {x : SetState} : (putSet s k x).clock = s.clock := rfl
@[simp] theorem putSet_time {k : Nat} {x : SetState} : (putSet s k x).time = s.time := rfl
@[simp] theorem putSet_eth {k : Nat} {x : SetState} : (putSet s k x).eth = s.eth := rfl
@[simp] theorem putSet_t1s {k : Nat} {x : SetState} : (putSet s k x).t1s = s.t1s := rfl
@[simp] theorem putSet_stream {k : Nat} {x : SetState} : (putSet s k x).stream = s.stream := rfl
@[simp] theorem putSet_power {k : Nat} {x : SetState} : (putSet s k x).power = s.power := rfl
@[simp] theorem putSet_boot {k : Nat} {x : SetState} : (putSet s k x).boot = s.boot := rfl
@[simp] theorem putSet_sup {k : Nat} {x : SetState} : (putSet s k x).sup = s.sup := rfl
@[simp] theorem putSet_far {k : Nat} {x : SetState} : (putSet s k x).far = s.far := rfl
@[simp] theorem putSet_csp {k : Nat} {x : SetState} : (putSet s k x).csp = s.csp := rfl
@[simp] theorem putSet_resp {k : Nat} {x : SetState} : (putSet s k x).resp = s.resp := rfl
@[simp] theorem putSet_heldAcc {k : Nat} {x : SetState} : (putSet s k x).heldAcc = s.heldAcc := rfl
@[simp] theorem putSet_freeCtr {k : Nat} {x : SetState} : (putSet s k x).freeCtr = s.freeCtr := rfl

@[simp] theorem putEth_pending {p : Nat} {x : EthPort} : (putEth s p x).pending = s.pending := rfl
@[simp] theorem putEth_regs {p : Nat} {x : EthPort} : (putEth s p x).regs = s.regs := rfl
@[simp] theorem putEth_tick {p : Nat} {x : EthPort} : (putEth s p x).tick = s.tick := rfl
@[simp] theorem putEth_rill {p : Nat} {x : EthPort} : (putEth s p x).rill = s.rill := rfl
@[simp] theorem putEth_basin {p : Nat} {x : EthPort} : (putEth s p x).basin = s.basin := rfl
@[simp] theorem putEth_cc {p : Nat} {x : EthPort} : (putEth s p x).cc = s.cc := rfl
@[simp] theorem putEth_bus {p : Nat} {x : EthPort} : (putEth s p x).bus = s.bus := rfl
@[simp] theorem putEth_fabric {p : Nat} {x : EthPort} : (putEth s p x).fabric = s.fabric := rfl
@[simp] theorem putEth_cascade {p : Nat} {x : EthPort} : (putEth s p x).cascade = s.cascade := rfl
@[simp] theorem putEth_sets {p : Nat} {x : EthPort} : (putEth s p x).sets = s.sets := rfl
@[simp] theorem putEth_yard {p : Nat} {x : EthPort} : (putEth s p x).yard = s.yard := rfl
@[simp] theorem putEth_ecc {p : Nat} {x : EthPort} : (putEth s p x).ecc = s.ecc := rfl
@[simp] theorem putEth_wb {p : Nat} {x : EthPort} : (putEth s p x).wb = s.wb := rfl
@[simp] theorem putEth_claims {p : Nat} {x : EthPort} : (putEth s p x).claims = s.claims := rfl
@[simp] theorem putEth_ports {p : Nat} {x : EthPort} : (putEth s p x).ports = s.ports := rfl
@[simp] theorem putEth_host {p : Nat} {x : EthPort} : (putEth s p x).host = s.host := rfl
@[simp] theorem putEth_tether {p : Nat} {x : EthPort} : (putEth s p x).tether = s.tether := rfl
@[simp] theorem putEth_clock {p : Nat} {x : EthPort} : (putEth s p x).clock = s.clock := rfl
@[simp] theorem putEth_time {p : Nat} {x : EthPort} : (putEth s p x).time = s.time := rfl
@[simp] theorem putEth_t1s {p : Nat} {x : EthPort} : (putEth s p x).t1s = s.t1s := rfl
@[simp] theorem putEth_stream {p : Nat} {x : EthPort} : (putEth s p x).stream = s.stream := rfl
@[simp] theorem putEth_power {p : Nat} {x : EthPort} : (putEth s p x).power = s.power := rfl
@[simp] theorem putEth_boot {p : Nat} {x : EthPort} : (putEth s p x).boot = s.boot := rfl
@[simp] theorem putEth_sup {p : Nat} {x : EthPort} : (putEth s p x).sup = s.sup := rfl
@[simp] theorem putEth_far {p : Nat} {x : EthPort} : (putEth s p x).far = s.far := rfl
@[simp] theorem putEth_csp {p : Nat} {x : EthPort} : (putEth s p x).csp = s.csp := rfl
@[simp] theorem putEth_resp {p : Nat} {x : EthPort} : (putEth s p x).resp = s.resp := rfl
@[simp] theorem putEth_heldAcc {p : Nat} {x : EthPort} : (putEth s p x).heldAcc = s.heldAcc := rfl
@[simp] theorem putEth_freeCtr {p : Nat} {x : EthPort} : (putEth s p x).freeCtr = s.freeCtr := rfl

@[simp] theorem putTether_pending {p : Nat} {x : TetherPort} : (putTether s p x).pending = s.pending := rfl
@[simp] theorem putTether_regs {p : Nat} {x : TetherPort} : (putTether s p x).regs = s.regs := rfl
@[simp] theorem putTether_tick {p : Nat} {x : TetherPort} : (putTether s p x).tick = s.tick := rfl
@[simp] theorem putTether_rill {p : Nat} {x : TetherPort} : (putTether s p x).rill = s.rill := rfl
@[simp] theorem putTether_basin {p : Nat} {x : TetherPort} : (putTether s p x).basin = s.basin := rfl
@[simp] theorem putTether_cc {p : Nat} {x : TetherPort} : (putTether s p x).cc = s.cc := rfl
@[simp] theorem putTether_bus {p : Nat} {x : TetherPort} : (putTether s p x).bus = s.bus := rfl
@[simp] theorem putTether_fabric {p : Nat} {x : TetherPort} : (putTether s p x).fabric = s.fabric := rfl
@[simp] theorem putTether_cascade {p : Nat} {x : TetherPort} : (putTether s p x).cascade = s.cascade := rfl
@[simp] theorem putTether_sets {p : Nat} {x : TetherPort} : (putTether s p x).sets = s.sets := rfl
@[simp] theorem putTether_yard {p : Nat} {x : TetherPort} : (putTether s p x).yard = s.yard := rfl
@[simp] theorem putTether_ecc {p : Nat} {x : TetherPort} : (putTether s p x).ecc = s.ecc := rfl
@[simp] theorem putTether_wb {p : Nat} {x : TetherPort} : (putTether s p x).wb = s.wb := rfl
@[simp] theorem putTether_claims {p : Nat} {x : TetherPort} : (putTether s p x).claims = s.claims := rfl
@[simp] theorem putTether_ports {p : Nat} {x : TetherPort} : (putTether s p x).ports = s.ports := rfl
@[simp] theorem putTether_host {p : Nat} {x : TetherPort} : (putTether s p x).host = s.host := rfl
@[simp] theorem putTether_clock {p : Nat} {x : TetherPort} : (putTether s p x).clock = s.clock := rfl
@[simp] theorem putTether_time {p : Nat} {x : TetherPort} : (putTether s p x).time = s.time := rfl
@[simp] theorem putTether_eth {p : Nat} {x : TetherPort} : (putTether s p x).eth = s.eth := rfl
@[simp] theorem putTether_t1s {p : Nat} {x : TetherPort} : (putTether s p x).t1s = s.t1s := rfl
@[simp] theorem putTether_stream {p : Nat} {x : TetherPort} : (putTether s p x).stream = s.stream := rfl
@[simp] theorem putTether_power {p : Nat} {x : TetherPort} : (putTether s p x).power = s.power := rfl
@[simp] theorem putTether_boot {p : Nat} {x : TetherPort} : (putTether s p x).boot = s.boot := rfl
@[simp] theorem putTether_sup {p : Nat} {x : TetherPort} : (putTether s p x).sup = s.sup := rfl
@[simp] theorem putTether_far {p : Nat} {x : TetherPort} : (putTether s p x).far = s.far := rfl
@[simp] theorem putTether_csp {p : Nat} {x : TetherPort} : (putTether s p x).csp = s.csp := rfl
@[simp] theorem putTether_resp {p : Nat} {x : TetherPort} : (putTether s p x).resp = s.resp := rfl
@[simp] theorem putTether_heldAcc {p : Nat} {x : TetherPort} : (putTether s p x).heldAcc = s.heldAcc := rfl
@[simp] theorem putTether_freeCtr {p : Nat} {x : TetherPort} : (putTether s p x).freeCtr = s.freeCtr := rfl

@[simp] theorem putTdm_pending {p : Nat} {x : TdmPort} : (putTdm s p x).pending = s.pending := rfl
@[simp] theorem putTdm_regs {p : Nat} {x : TdmPort} : (putTdm s p x).regs = s.regs := rfl
@[simp] theorem putTdm_tick {p : Nat} {x : TdmPort} : (putTdm s p x).tick = s.tick := rfl
@[simp] theorem putTdm_rill {p : Nat} {x : TdmPort} : (putTdm s p x).rill = s.rill := rfl
@[simp] theorem putTdm_basin {p : Nat} {x : TdmPort} : (putTdm s p x).basin = s.basin := rfl
@[simp] theorem putTdm_cc {p : Nat} {x : TdmPort} : (putTdm s p x).cc = s.cc := rfl
@[simp] theorem putTdm_bus {p : Nat} {x : TdmPort} : (putTdm s p x).bus = s.bus := rfl
@[simp] theorem putTdm_fabric {p : Nat} {x : TdmPort} : (putTdm s p x).fabric = s.fabric := rfl
@[simp] theorem putTdm_cascade {p : Nat} {x : TdmPort} : (putTdm s p x).cascade = s.cascade := rfl
@[simp] theorem putTdm_sets {p : Nat} {x : TdmPort} : (putTdm s p x).sets = s.sets := rfl
@[simp] theorem putTdm_yard {p : Nat} {x : TdmPort} : (putTdm s p x).yard = s.yard := rfl
@[simp] theorem putTdm_ecc {p : Nat} {x : TdmPort} : (putTdm s p x).ecc = s.ecc := rfl
@[simp] theorem putTdm_wb {p : Nat} {x : TdmPort} : (putTdm s p x).wb = s.wb := rfl
@[simp] theorem putTdm_claims {p : Nat} {x : TdmPort} : (putTdm s p x).claims = s.claims := rfl
@[simp] theorem putTdm_host {p : Nat} {x : TdmPort} : (putTdm s p x).host = s.host := rfl
@[simp] theorem putTdm_tether {p : Nat} {x : TdmPort} : (putTdm s p x).tether = s.tether := rfl
@[simp] theorem putTdm_clock {p : Nat} {x : TdmPort} : (putTdm s p x).clock = s.clock := rfl
@[simp] theorem putTdm_time {p : Nat} {x : TdmPort} : (putTdm s p x).time = s.time := rfl
@[simp] theorem putTdm_eth {p : Nat} {x : TdmPort} : (putTdm s p x).eth = s.eth := rfl
@[simp] theorem putTdm_t1s {p : Nat} {x : TdmPort} : (putTdm s p x).t1s = s.t1s := rfl
@[simp] theorem putTdm_stream {p : Nat} {x : TdmPort} : (putTdm s p x).stream = s.stream := rfl
@[simp] theorem putTdm_power {p : Nat} {x : TdmPort} : (putTdm s p x).power = s.power := rfl
@[simp] theorem putTdm_boot {p : Nat} {x : TdmPort} : (putTdm s p x).boot = s.boot := rfl
@[simp] theorem putTdm_sup {p : Nat} {x : TdmPort} : (putTdm s p x).sup = s.sup := rfl
@[simp] theorem putTdm_far {p : Nat} {x : TdmPort} : (putTdm s p x).far = s.far := rfl
@[simp] theorem putTdm_csp {p : Nat} {x : TdmPort} : (putTdm s p x).csp = s.csp := rfl
@[simp] theorem putTdm_resp {p : Nat} {x : TdmPort} : (putTdm s p x).resp = s.resp := rfl
@[simp] theorem putTdm_heldAcc {p : Nat} {x : TdmPort} : (putTdm s p x).heldAcc = s.heldAcc := rfl
@[simp] theorem putTdm_freeCtr {p : Nat} {x : TdmPort} : (putTdm s p x).freeCtr = s.freeCtr := rfl

@[simp] theorem putAud_pending {a : Nat} {x : AudRing} : (putAud s a x).pending = s.pending := rfl
@[simp] theorem putAud_regs {a : Nat} {x : AudRing} : (putAud s a x).regs = s.regs := rfl
@[simp] theorem putAud_tick {a : Nat} {x : AudRing} : (putAud s a x).tick = s.tick := rfl
@[simp] theorem putAud_rill {a : Nat} {x : AudRing} : (putAud s a x).rill = s.rill := rfl
@[simp] theorem putAud_basin {a : Nat} {x : AudRing} : (putAud s a x).basin = s.basin := rfl
@[simp] theorem putAud_cc {a : Nat} {x : AudRing} : (putAud s a x).cc = s.cc := rfl
@[simp] theorem putAud_bus {a : Nat} {x : AudRing} : (putAud s a x).bus = s.bus := rfl
@[simp] theorem putAud_fabric {a : Nat} {x : AudRing} : (putAud s a x).fabric = s.fabric := rfl
@[simp] theorem putAud_cascade {a : Nat} {x : AudRing} : (putAud s a x).cascade = s.cascade := rfl
@[simp] theorem putAud_sets {a : Nat} {x : AudRing} : (putAud s a x).sets = s.sets := rfl
@[simp] theorem putAud_yard {a : Nat} {x : AudRing} : (putAud s a x).yard = s.yard := rfl
@[simp] theorem putAud_ecc {a : Nat} {x : AudRing} : (putAud s a x).ecc = s.ecc := rfl
@[simp] theorem putAud_wb {a : Nat} {x : AudRing} : (putAud s a x).wb = s.wb := rfl
@[simp] theorem putAud_claims {a : Nat} {x : AudRing} : (putAud s a x).claims = s.claims := rfl
@[simp] theorem putAud_ports {a : Nat} {x : AudRing} : (putAud s a x).ports = s.ports := rfl
@[simp] theorem putAud_tether {a : Nat} {x : AudRing} : (putAud s a x).tether = s.tether := rfl
@[simp] theorem putAud_clock {a : Nat} {x : AudRing} : (putAud s a x).clock = s.clock := rfl
@[simp] theorem putAud_time {a : Nat} {x : AudRing} : (putAud s a x).time = s.time := rfl
@[simp] theorem putAud_eth {a : Nat} {x : AudRing} : (putAud s a x).eth = s.eth := rfl
@[simp] theorem putAud_t1s {a : Nat} {x : AudRing} : (putAud s a x).t1s = s.t1s := rfl
@[simp] theorem putAud_stream {a : Nat} {x : AudRing} : (putAud s a x).stream = s.stream := rfl
@[simp] theorem putAud_power {a : Nat} {x : AudRing} : (putAud s a x).power = s.power := rfl
@[simp] theorem putAud_boot {a : Nat} {x : AudRing} : (putAud s a x).boot = s.boot := rfl
@[simp] theorem putAud_sup {a : Nat} {x : AudRing} : (putAud s a x).sup = s.sup := rfl
@[simp] theorem putAud_far {a : Nat} {x : AudRing} : (putAud s a x).far = s.far := rfl
@[simp] theorem putAud_csp {a : Nat} {x : AudRing} : (putAud s a x).csp = s.csp := rfl
@[simp] theorem putAud_resp {a : Nat} {x : AudRing} : (putAud s a x).resp = s.resp := rfl
@[simp] theorem putAud_heldAcc {a : Nat} {x : AudRing} : (putAud s a x).heldAcc = s.heldAcc := rfl
@[simp] theorem putAud_freeCtr {a : Nat} {x : AudRing} : (putAud s a x).freeCtr = s.freeCtr := rfl

@[simp] theorem putSeq_pending {q : ModeSeq} : (putSeq s q).pending = s.pending := rfl
@[simp] theorem putSeq_regs {q : ModeSeq} : (putSeq s q).regs = s.regs := rfl
@[simp] theorem putSeq_rill {q : ModeSeq} : (putSeq s q).rill = s.rill := rfl
@[simp] theorem putSeq_basin {q : ModeSeq} : (putSeq s q).basin = s.basin := rfl
@[simp] theorem putSeq_cc {q : ModeSeq} : (putSeq s q).cc = s.cc := rfl
@[simp] theorem putSeq_bus {q : ModeSeq} : (putSeq s q).bus = s.bus := rfl
@[simp] theorem putSeq_fabric {q : ModeSeq} : (putSeq s q).fabric = s.fabric := rfl
@[simp] theorem putSeq_cascade {q : ModeSeq} : (putSeq s q).cascade = s.cascade := rfl
@[simp] theorem putSeq_sets {q : ModeSeq} : (putSeq s q).sets = s.sets := rfl
@[simp] theorem putSeq_yard {q : ModeSeq} : (putSeq s q).yard = s.yard := rfl
@[simp] theorem putSeq_ecc {q : ModeSeq} : (putSeq s q).ecc = s.ecc := rfl
@[simp] theorem putSeq_wb {q : ModeSeq} : (putSeq s q).wb = s.wb := rfl
@[simp] theorem putSeq_claims {q : ModeSeq} : (putSeq s q).claims = s.claims := rfl
@[simp] theorem putSeq_ports {q : ModeSeq} : (putSeq s q).ports = s.ports := rfl
@[simp] theorem putSeq_host {q : ModeSeq} : (putSeq s q).host = s.host := rfl
@[simp] theorem putSeq_tether {q : ModeSeq} : (putSeq s q).tether = s.tether := rfl
@[simp] theorem putSeq_clock {q : ModeSeq} : (putSeq s q).clock = s.clock := rfl
@[simp] theorem putSeq_time {q : ModeSeq} : (putSeq s q).time = s.time := rfl
@[simp] theorem putSeq_eth {q : ModeSeq} : (putSeq s q).eth = s.eth := rfl
@[simp] theorem putSeq_t1s {q : ModeSeq} : (putSeq s q).t1s = s.t1s := rfl
@[simp] theorem putSeq_stream {q : ModeSeq} : (putSeq s q).stream = s.stream := rfl
@[simp] theorem putSeq_power {q : ModeSeq} : (putSeq s q).power = s.power := rfl
@[simp] theorem putSeq_boot {q : ModeSeq} : (putSeq s q).boot = s.boot := rfl
@[simp] theorem putSeq_sup {q : ModeSeq} : (putSeq s q).sup = s.sup := rfl
@[simp] theorem putSeq_far {q : ModeSeq} : (putSeq s q).far = s.far := rfl
@[simp] theorem putSeq_csp {q : ModeSeq} : (putSeq s q).csp = s.csp := rfl
@[simp] theorem putSeq_resp {q : ModeSeq} : (putSeq s q).resp = s.resp := rfl
@[simp] theorem putSeq_heldAcc {q : ModeSeq} : (putSeq s q).heldAcc = s.heldAcc := rfl
@[simp] theorem putSeq_freeCtr {q : ModeSeq} : (putSeq s q).freeCtr = s.freeCtr := rfl

@[simp] theorem putStx_pending {i : Nat} {x : TxStream} : (putStx s i x).pending = s.pending := rfl
@[simp] theorem putStx_regs {i : Nat} {x : TxStream} : (putStx s i x).regs = s.regs := rfl
@[simp] theorem putStx_tick {i : Nat} {x : TxStream} : (putStx s i x).tick = s.tick := rfl
@[simp] theorem putStx_rill {i : Nat} {x : TxStream} : (putStx s i x).rill = s.rill := rfl
@[simp] theorem putStx_basin {i : Nat} {x : TxStream} : (putStx s i x).basin = s.basin := rfl
@[simp] theorem putStx_cc {i : Nat} {x : TxStream} : (putStx s i x).cc = s.cc := rfl
@[simp] theorem putStx_bus {i : Nat} {x : TxStream} : (putStx s i x).bus = s.bus := rfl
@[simp] theorem putStx_fabric {i : Nat} {x : TxStream} : (putStx s i x).fabric = s.fabric := rfl
@[simp] theorem putStx_cascade {i : Nat} {x : TxStream} : (putStx s i x).cascade = s.cascade := rfl
@[simp] theorem putStx_sets {i : Nat} {x : TxStream} : (putStx s i x).sets = s.sets := rfl
@[simp] theorem putStx_yard {i : Nat} {x : TxStream} : (putStx s i x).yard = s.yard := rfl
@[simp] theorem putStx_ecc {i : Nat} {x : TxStream} : (putStx s i x).ecc = s.ecc := rfl
@[simp] theorem putStx_wb {i : Nat} {x : TxStream} : (putStx s i x).wb = s.wb := rfl
@[simp] theorem putStx_claims {i : Nat} {x : TxStream} : (putStx s i x).claims = s.claims := rfl
@[simp] theorem putStx_ports {i : Nat} {x : TxStream} : (putStx s i x).ports = s.ports := rfl
@[simp] theorem putStx_host {i : Nat} {x : TxStream} : (putStx s i x).host = s.host := rfl
@[simp] theorem putStx_tether {i : Nat} {x : TxStream} : (putStx s i x).tether = s.tether := rfl
@[simp] theorem putStx_clock {i : Nat} {x : TxStream} : (putStx s i x).clock = s.clock := rfl
@[simp] theorem putStx_time {i : Nat} {x : TxStream} : (putStx s i x).time = s.time := rfl
@[simp] theorem putStx_eth {i : Nat} {x : TxStream} : (putStx s i x).eth = s.eth := rfl
@[simp] theorem putStx_t1s {i : Nat} {x : TxStream} : (putStx s i x).t1s = s.t1s := rfl
@[simp] theorem putStx_power {i : Nat} {x : TxStream} : (putStx s i x).power = s.power := rfl
@[simp] theorem putStx_boot {i : Nat} {x : TxStream} : (putStx s i x).boot = s.boot := rfl
@[simp] theorem putStx_sup {i : Nat} {x : TxStream} : (putStx s i x).sup = s.sup := rfl
@[simp] theorem putStx_far {i : Nat} {x : TxStream} : (putStx s i x).far = s.far := rfl
@[simp] theorem putStx_csp {i : Nat} {x : TxStream} : (putStx s i x).csp = s.csp := rfl
@[simp] theorem putStx_resp {i : Nat} {x : TxStream} : (putStx s i x).resp = s.resp := rfl
@[simp] theorem putStx_heldAcc {i : Nat} {x : TxStream} : (putStx s i x).heldAcc = s.heldAcc := rfl
@[simp] theorem putStx_freeCtr {i : Nat} {x : TxStream} : (putStx s i x).freeCtr = s.freeCtr := rfl

@[simp] theorem putSrx_pending {i : Nat} {x : RxStream} : (putSrx s i x).pending = s.pending := rfl
@[simp] theorem putSrx_regs {i : Nat} {x : RxStream} : (putSrx s i x).regs = s.regs := rfl
@[simp] theorem putSrx_tick {i : Nat} {x : RxStream} : (putSrx s i x).tick = s.tick := rfl
@[simp] theorem putSrx_rill {i : Nat} {x : RxStream} : (putSrx s i x).rill = s.rill := rfl
@[simp] theorem putSrx_basin {i : Nat} {x : RxStream} : (putSrx s i x).basin = s.basin := rfl
@[simp] theorem putSrx_cc {i : Nat} {x : RxStream} : (putSrx s i x).cc = s.cc := rfl
@[simp] theorem putSrx_bus {i : Nat} {x : RxStream} : (putSrx s i x).bus = s.bus := rfl
@[simp] theorem putSrx_fabric {i : Nat} {x : RxStream} : (putSrx s i x).fabric = s.fabric := rfl
@[simp] theorem putSrx_cascade {i : Nat} {x : RxStream} : (putSrx s i x).cascade = s.cascade := rfl
@[simp] theorem putSrx_sets {i : Nat} {x : RxStream} : (putSrx s i x).sets = s.sets := rfl
@[simp] theorem putSrx_yard {i : Nat} {x : RxStream} : (putSrx s i x).yard = s.yard := rfl
@[simp] theorem putSrx_ecc {i : Nat} {x : RxStream} : (putSrx s i x).ecc = s.ecc := rfl
@[simp] theorem putSrx_wb {i : Nat} {x : RxStream} : (putSrx s i x).wb = s.wb := rfl
@[simp] theorem putSrx_claims {i : Nat} {x : RxStream} : (putSrx s i x).claims = s.claims := rfl
@[simp] theorem putSrx_ports {i : Nat} {x : RxStream} : (putSrx s i x).ports = s.ports := rfl
@[simp] theorem putSrx_host {i : Nat} {x : RxStream} : (putSrx s i x).host = s.host := rfl
@[simp] theorem putSrx_tether {i : Nat} {x : RxStream} : (putSrx s i x).tether = s.tether := rfl
@[simp] theorem putSrx_clock {i : Nat} {x : RxStream} : (putSrx s i x).clock = s.clock := rfl
@[simp] theorem putSrx_time {i : Nat} {x : RxStream} : (putSrx s i x).time = s.time := rfl
@[simp] theorem putSrx_eth {i : Nat} {x : RxStream} : (putSrx s i x).eth = s.eth := rfl
@[simp] theorem putSrx_t1s {i : Nat} {x : RxStream} : (putSrx s i x).t1s = s.t1s := rfl
@[simp] theorem putSrx_power {i : Nat} {x : RxStream} : (putSrx s i x).power = s.power := rfl
@[simp] theorem putSrx_boot {i : Nat} {x : RxStream} : (putSrx s i x).boot = s.boot := rfl
@[simp] theorem putSrx_sup {i : Nat} {x : RxStream} : (putSrx s i x).sup = s.sup := rfl
@[simp] theorem putSrx_far {i : Nat} {x : RxStream} : (putSrx s i x).far = s.far := rfl
@[simp] theorem putSrx_csp {i : Nat} {x : RxStream} : (putSrx s i x).csp = s.csp := rfl
@[simp] theorem putSrx_resp {i : Nat} {x : RxStream} : (putSrx s i x).resp = s.resp := rfl
@[simp] theorem putSrx_heldAcc {i : Nat} {x : RxStream} : (putSrx s i x).heldAcc = s.heldAcc := rfl
@[simp] theorem putSrx_freeCtr {i : Nat} {x : RxStream} : (putSrx s i x).freeCtr = s.freeCtr := rfl

@[simp] theorem putTrough_pending {t : Nat} {x : TroughLive} : (putTrough s t x).pending = s.pending := rfl
@[simp] theorem putTrough_regs {t : Nat} {x : TroughLive} : (putTrough s t x).regs = s.regs := rfl
@[simp] theorem putTrough_tick {t : Nat} {x : TroughLive} : (putTrough s t x).tick = s.tick := rfl
@[simp] theorem putTrough_rill {t : Nat} {x : TroughLive} : (putTrough s t x).rill = s.rill := rfl
@[simp] theorem putTrough_basin {t : Nat} {x : TroughLive} : (putTrough s t x).basin = s.basin := rfl
@[simp] theorem putTrough_cc {t : Nat} {x : TroughLive} : (putTrough s t x).cc = s.cc := rfl
@[simp] theorem putTrough_fabric {t : Nat} {x : TroughLive} : (putTrough s t x).fabric = s.fabric := rfl
@[simp] theorem putTrough_cascade {t : Nat} {x : TroughLive} : (putTrough s t x).cascade = s.cascade := rfl
@[simp] theorem putTrough_sets {t : Nat} {x : TroughLive} : (putTrough s t x).sets = s.sets := rfl
@[simp] theorem putTrough_yard {t : Nat} {x : TroughLive} : (putTrough s t x).yard = s.yard := rfl
@[simp] theorem putTrough_ecc {t : Nat} {x : TroughLive} : (putTrough s t x).ecc = s.ecc := rfl
@[simp] theorem putTrough_wb {t : Nat} {x : TroughLive} : (putTrough s t x).wb = s.wb := rfl
@[simp] theorem putTrough_claims {t : Nat} {x : TroughLive} : (putTrough s t x).claims = s.claims := rfl
@[simp] theorem putTrough_ports {t : Nat} {x : TroughLive} : (putTrough s t x).ports = s.ports := rfl
@[simp] theorem putTrough_host {t : Nat} {x : TroughLive} : (putTrough s t x).host = s.host := rfl
@[simp] theorem putTrough_tether {t : Nat} {x : TroughLive} : (putTrough s t x).tether = s.tether := rfl
@[simp] theorem putTrough_clock {t : Nat} {x : TroughLive} : (putTrough s t x).clock = s.clock := rfl
@[simp] theorem putTrough_time {t : Nat} {x : TroughLive} : (putTrough s t x).time = s.time := rfl
@[simp] theorem putTrough_eth {t : Nat} {x : TroughLive} : (putTrough s t x).eth = s.eth := rfl
@[simp] theorem putTrough_t1s {t : Nat} {x : TroughLive} : (putTrough s t x).t1s = s.t1s := rfl
@[simp] theorem putTrough_stream {t : Nat} {x : TroughLive} : (putTrough s t x).stream = s.stream := rfl
@[simp] theorem putTrough_power {t : Nat} {x : TroughLive} : (putTrough s t x).power = s.power := rfl
@[simp] theorem putTrough_boot {t : Nat} {x : TroughLive} : (putTrough s t x).boot = s.boot := rfl
@[simp] theorem putTrough_sup {t : Nat} {x : TroughLive} : (putTrough s t x).sup = s.sup := rfl
@[simp] theorem putTrough_far {t : Nat} {x : TroughLive} : (putTrough s t x).far = s.far := rfl
@[simp] theorem putTrough_csp {t : Nat} {x : TroughLive} : (putTrough s t x).csp = s.csp := rfl
@[simp] theorem putTrough_resp {t : Nat} {x : TroughLive} : (putTrough s t x).resp = s.resp := rfl
@[simp] theorem putTrough_heldAcc {t : Nat} {x : TroughLive} : (putTrough s t x).heldAcc = s.heldAcc := rfl
@[simp] theorem putTrough_freeCtr {t : Nat} {x : TroughLive} : (putTrough s t x).freeCtr = s.freeCtr := rfl

@[simp] theorem putXp_pending {e : Nat} {x : Crosspoint} : (putXp s e x).pending = s.pending := rfl
@[simp] theorem putXp_regs {e : Nat} {x : Crosspoint} : (putXp s e x).regs = s.regs := rfl
@[simp] theorem putXp_tick {e : Nat} {x : Crosspoint} : (putXp s e x).tick = s.tick := rfl
@[simp] theorem putXp_rill {e : Nat} {x : Crosspoint} : (putXp s e x).rill = s.rill := rfl
@[simp] theorem putXp_basin {e : Nat} {x : Crosspoint} : (putXp s e x).basin = s.basin := rfl
@[simp] theorem putXp_cc {e : Nat} {x : Crosspoint} : (putXp s e x).cc = s.cc := rfl
@[simp] theorem putXp_bus {e : Nat} {x : Crosspoint} : (putXp s e x).bus = s.bus := rfl
@[simp] theorem putXp_cascade {e : Nat} {x : Crosspoint} : (putXp s e x).cascade = s.cascade := rfl
@[simp] theorem putXp_sets {e : Nat} {x : Crosspoint} : (putXp s e x).sets = s.sets := rfl
@[simp] theorem putXp_yard {e : Nat} {x : Crosspoint} : (putXp s e x).yard = s.yard := rfl
@[simp] theorem putXp_ecc {e : Nat} {x : Crosspoint} : (putXp s e x).ecc = s.ecc := rfl
@[simp] theorem putXp_wb {e : Nat} {x : Crosspoint} : (putXp s e x).wb = s.wb := rfl
@[simp] theorem putXp_claims {e : Nat} {x : Crosspoint} : (putXp s e x).claims = s.claims := rfl
@[simp] theorem putXp_ports {e : Nat} {x : Crosspoint} : (putXp s e x).ports = s.ports := rfl
@[simp] theorem putXp_host {e : Nat} {x : Crosspoint} : (putXp s e x).host = s.host := rfl
@[simp] theorem putXp_tether {e : Nat} {x : Crosspoint} : (putXp s e x).tether = s.tether := rfl
@[simp] theorem putXp_clock {e : Nat} {x : Crosspoint} : (putXp s e x).clock = s.clock := rfl
@[simp] theorem putXp_time {e : Nat} {x : Crosspoint} : (putXp s e x).time = s.time := rfl
@[simp] theorem putXp_eth {e : Nat} {x : Crosspoint} : (putXp s e x).eth = s.eth := rfl
@[simp] theorem putXp_t1s {e : Nat} {x : Crosspoint} : (putXp s e x).t1s = s.t1s := rfl
@[simp] theorem putXp_stream {e : Nat} {x : Crosspoint} : (putXp s e x).stream = s.stream := rfl
@[simp] theorem putXp_power {e : Nat} {x : Crosspoint} : (putXp s e x).power = s.power := rfl
@[simp] theorem putXp_boot {e : Nat} {x : Crosspoint} : (putXp s e x).boot = s.boot := rfl
@[simp] theorem putXp_sup {e : Nat} {x : Crosspoint} : (putXp s e x).sup = s.sup := rfl
@[simp] theorem putXp_far {e : Nat} {x : Crosspoint} : (putXp s e x).far = s.far := rfl
@[simp] theorem putXp_csp {e : Nat} {x : Crosspoint} : (putXp s e x).csp = s.csp := rfl
@[simp] theorem putXp_resp {e : Nat} {x : Crosspoint} : (putXp s e x).resp = s.resp := rfl
@[simp] theorem putXp_heldAcc {e : Nat} {x : Crosspoint} : (putXp s e x).heldAcc = s.heldAcc := rfl
@[simp] theorem putXp_freeCtr {e : Nat} {x : Crosspoint} : (putXp s e x).freeCtr = s.freeCtr := rfl

@[simp] theorem yardPut_pending {w : Nat} {x : Word} : (yardPut s w x).pending = s.pending := rfl
@[simp] theorem yardPut_regs {w : Nat} {x : Word} : (yardPut s w x).regs = s.regs := rfl
@[simp] theorem yardPut_tick {w : Nat} {x : Word} : (yardPut s w x).tick = s.tick := rfl
@[simp] theorem yardPut_rill {w : Nat} {x : Word} : (yardPut s w x).rill = s.rill := rfl
@[simp] theorem yardPut_basin {w : Nat} {x : Word} : (yardPut s w x).basin = s.basin := rfl
@[simp] theorem yardPut_cc {w : Nat} {x : Word} : (yardPut s w x).cc = s.cc := rfl
@[simp] theorem yardPut_bus {w : Nat} {x : Word} : (yardPut s w x).bus = s.bus := rfl
@[simp] theorem yardPut_fabric {w : Nat} {x : Word} : (yardPut s w x).fabric = s.fabric := rfl
@[simp] theorem yardPut_cascade {w : Nat} {x : Word} : (yardPut s w x).cascade = s.cascade := rfl
@[simp] theorem yardPut_sets {w : Nat} {x : Word} : (yardPut s w x).sets = s.sets := rfl
@[simp] theorem yardPut_claims {w : Nat} {x : Word} : (yardPut s w x).claims = s.claims := rfl
@[simp] theorem yardPut_ports {w : Nat} {x : Word} : (yardPut s w x).ports = s.ports := rfl
@[simp] theorem yardPut_host {w : Nat} {x : Word} : (yardPut s w x).host = s.host := rfl
@[simp] theorem yardPut_tether {w : Nat} {x : Word} : (yardPut s w x).tether = s.tether := rfl
@[simp] theorem yardPut_clock {w : Nat} {x : Word} : (yardPut s w x).clock = s.clock := rfl
@[simp] theorem yardPut_time {w : Nat} {x : Word} : (yardPut s w x).time = s.time := rfl
@[simp] theorem yardPut_eth {w : Nat} {x : Word} : (yardPut s w x).eth = s.eth := rfl
@[simp] theorem yardPut_t1s {w : Nat} {x : Word} : (yardPut s w x).t1s = s.t1s := rfl
@[simp] theorem yardPut_stream {w : Nat} {x : Word} : (yardPut s w x).stream = s.stream := rfl
@[simp] theorem yardPut_power {w : Nat} {x : Word} : (yardPut s w x).power = s.power := rfl
@[simp] theorem yardPut_boot {w : Nat} {x : Word} : (yardPut s w x).boot = s.boot := rfl
@[simp] theorem yardPut_sup {w : Nat} {x : Word} : (yardPut s w x).sup = s.sup := rfl
@[simp] theorem yardPut_far {w : Nat} {x : Word} : (yardPut s w x).far = s.far := rfl
@[simp] theorem yardPut_csp {w : Nat} {x : Word} : (yardPut s w x).csp = s.csp := rfl
@[simp] theorem yardPut_resp {w : Nat} {x : Word} : (yardPut s w x).resp = s.resp := rfl
@[simp] theorem yardPut_heldAcc {w : Nat} {x : Word} : (yardPut s w x).heldAcc = s.heldAcc := rfl
@[simp] theorem yardPut_freeCtr {w : Nat} {x : Word} : (yardPut s w x).freeCtr = s.freeCtr := rfl

@[simp] theorem resTake_pending {cls idx fn : Nat} : (resTake s cls idx fn).pending = s.pending := rfl
@[simp] theorem resTake_regs {cls idx fn : Nat} : (resTake s cls idx fn).regs = s.regs := rfl
@[simp] theorem resTake_tick {cls idx fn : Nat} : (resTake s cls idx fn).tick = s.tick := rfl
@[simp] theorem resTake_rill {cls idx fn : Nat} : (resTake s cls idx fn).rill = s.rill := rfl
@[simp] theorem resTake_basin {cls idx fn : Nat} : (resTake s cls idx fn).basin = s.basin := rfl
@[simp] theorem resTake_cc {cls idx fn : Nat} : (resTake s cls idx fn).cc = s.cc := rfl
@[simp] theorem resTake_bus {cls idx fn : Nat} : (resTake s cls idx fn).bus = s.bus := rfl
@[simp] theorem resTake_fabric {cls idx fn : Nat} : (resTake s cls idx fn).fabric = s.fabric := rfl
@[simp] theorem resTake_cascade {cls idx fn : Nat} : (resTake s cls idx fn).cascade = s.cascade := rfl
@[simp] theorem resTake_sets {cls idx fn : Nat} : (resTake s cls idx fn).sets = s.sets := rfl
@[simp] theorem resTake_yard {cls idx fn : Nat} : (resTake s cls idx fn).yard = s.yard := rfl
@[simp] theorem resTake_ecc {cls idx fn : Nat} : (resTake s cls idx fn).ecc = s.ecc := rfl
@[simp] theorem resTake_wb {cls idx fn : Nat} : (resTake s cls idx fn).wb = s.wb := rfl
@[simp] theorem resTake_ports {cls idx fn : Nat} : (resTake s cls idx fn).ports = s.ports := rfl
@[simp] theorem resTake_host {cls idx fn : Nat} : (resTake s cls idx fn).host = s.host := rfl
@[simp] theorem resTake_tether {cls idx fn : Nat} : (resTake s cls idx fn).tether = s.tether := rfl
@[simp] theorem resTake_clock {cls idx fn : Nat} : (resTake s cls idx fn).clock = s.clock := rfl
@[simp] theorem resTake_time {cls idx fn : Nat} : (resTake s cls idx fn).time = s.time := rfl
@[simp] theorem resTake_eth {cls idx fn : Nat} : (resTake s cls idx fn).eth = s.eth := rfl
@[simp] theorem resTake_t1s {cls idx fn : Nat} : (resTake s cls idx fn).t1s = s.t1s := rfl
@[simp] theorem resTake_stream {cls idx fn : Nat} : (resTake s cls idx fn).stream = s.stream := rfl
@[simp] theorem resTake_power {cls idx fn : Nat} : (resTake s cls idx fn).power = s.power := rfl
@[simp] theorem resTake_boot {cls idx fn : Nat} : (resTake s cls idx fn).boot = s.boot := rfl
@[simp] theorem resTake_sup {cls idx fn : Nat} : (resTake s cls idx fn).sup = s.sup := rfl
@[simp] theorem resTake_far {cls idx fn : Nat} : (resTake s cls idx fn).far = s.far := rfl
@[simp] theorem resTake_csp {cls idx fn : Nat} : (resTake s cls idx fn).csp = s.csp := rfl
@[simp] theorem resTake_resp {cls idx fn : Nat} : (resTake s cls idx fn).resp = s.resp := rfl
@[simp] theorem resTake_heldAcc {cls idx fn : Nat} : (resTake s cls idx fn).heldAcc = s.heldAcc := rfl
@[simp] theorem resTake_freeCtr {cls idx fn : Nat} : (resTake s cls idx fn).freeCtr = s.freeCtr := rfl

@[simp] theorem resRelease_pending {cls idx fn : Nat} : (resRelease s cls idx fn).pending = s.pending := by unfold resRelease; split <;> rfl
@[simp] theorem resRelease_regs {cls idx fn : Nat} : (resRelease s cls idx fn).regs = s.regs := by unfold resRelease; split <;> rfl
@[simp] theorem resRelease_tick {cls idx fn : Nat} : (resRelease s cls idx fn).tick = s.tick := by unfold resRelease; split <;> rfl
@[simp] theorem resRelease_rill {cls idx fn : Nat} : (resRelease s cls idx fn).rill = s.rill := by unfold resRelease; split <;> rfl
@[simp] theorem resRelease_basin {cls idx fn : Nat} : (resRelease s cls idx fn).basin = s.basin := by unfold resRelease; split <;> rfl
@[simp] theorem resRelease_cc {cls idx fn : Nat} : (resRelease s cls idx fn).cc = s.cc := by unfold resRelease; split <;> rfl
@[simp] theorem resRelease_bus {cls idx fn : Nat} : (resRelease s cls idx fn).bus = s.bus := by unfold resRelease; split <;> rfl
@[simp] theorem resRelease_fabric {cls idx fn : Nat} : (resRelease s cls idx fn).fabric = s.fabric := by unfold resRelease; split <;> rfl
@[simp] theorem resRelease_cascade {cls idx fn : Nat} : (resRelease s cls idx fn).cascade = s.cascade := by unfold resRelease; split <;> rfl
@[simp] theorem resRelease_sets {cls idx fn : Nat} : (resRelease s cls idx fn).sets = s.sets := by unfold resRelease; split <;> rfl
@[simp] theorem resRelease_yard {cls idx fn : Nat} : (resRelease s cls idx fn).yard = s.yard := by unfold resRelease; split <;> rfl
@[simp] theorem resRelease_ecc {cls idx fn : Nat} : (resRelease s cls idx fn).ecc = s.ecc := by unfold resRelease; split <;> rfl
@[simp] theorem resRelease_wb {cls idx fn : Nat} : (resRelease s cls idx fn).wb = s.wb := by unfold resRelease; split <;> rfl
@[simp] theorem resRelease_ports {cls idx fn : Nat} : (resRelease s cls idx fn).ports = s.ports := by unfold resRelease; split <;> rfl
@[simp] theorem resRelease_host {cls idx fn : Nat} : (resRelease s cls idx fn).host = s.host := by unfold resRelease; split <;> rfl
@[simp] theorem resRelease_tether {cls idx fn : Nat} : (resRelease s cls idx fn).tether = s.tether := by unfold resRelease; split <;> rfl
@[simp] theorem resRelease_clock {cls idx fn : Nat} : (resRelease s cls idx fn).clock = s.clock := by unfold resRelease; split <;> rfl
@[simp] theorem resRelease_time {cls idx fn : Nat} : (resRelease s cls idx fn).time = s.time := by unfold resRelease; split <;> rfl
@[simp] theorem resRelease_eth {cls idx fn : Nat} : (resRelease s cls idx fn).eth = s.eth := by unfold resRelease; split <;> rfl
@[simp] theorem resRelease_t1s {cls idx fn : Nat} : (resRelease s cls idx fn).t1s = s.t1s := by unfold resRelease; split <;> rfl
@[simp] theorem resRelease_stream {cls idx fn : Nat} : (resRelease s cls idx fn).stream = s.stream := by unfold resRelease; split <;> rfl
@[simp] theorem resRelease_power {cls idx fn : Nat} : (resRelease s cls idx fn).power = s.power := by unfold resRelease; split <;> rfl
@[simp] theorem resRelease_boot {cls idx fn : Nat} : (resRelease s cls idx fn).boot = s.boot := by unfold resRelease; split <;> rfl
@[simp] theorem resRelease_sup {cls idx fn : Nat} : (resRelease s cls idx fn).sup = s.sup := by unfold resRelease; split <;> rfl
@[simp] theorem resRelease_far {cls idx fn : Nat} : (resRelease s cls idx fn).far = s.far := by unfold resRelease; split <;> rfl
@[simp] theorem resRelease_csp {cls idx fn : Nat} : (resRelease s cls idx fn).csp = s.csp := by unfold resRelease; split <;> rfl
@[simp] theorem resRelease_resp {cls idx fn : Nat} : (resRelease s cls idx fn).resp = s.resp := by unfold resRelease; split <;> rfl
@[simp] theorem resRelease_heldAcc {cls idx fn : Nat} : (resRelease s cls idx fn).heldAcc = s.heldAcc := by unfold resRelease; split <;> rfl
@[simp] theorem resRelease_freeCtr {cls idx fn : Nat} : (resRelease s cls idx fn).freeCtr = s.freeCtr := by unfold resRelease; split <;> rfl

@[simp] theorem elapse_pending {n : Nat} : (elapse s n).pending = s.pending := by unfold elapse rtcPass; dsimp only; split <;> (try unfold rtcCount) <;> (try split) <;> (unfold clockPass modulate; dsimp only; split <;> (try split) <;> rfl)
@[simp] theorem elapse_regs {n : Nat} : (elapse s n).regs = s.regs := by unfold elapse rtcPass; dsimp only; split <;> (try unfold rtcCount) <;> (try split) <;> (unfold clockPass modulate; dsimp only; split <;> (try split) <;> rfl)
@[simp] theorem elapse_tick {n : Nat} : (elapse s n).tick = s.tick := by unfold elapse rtcPass; dsimp only; split <;> (try unfold rtcCount) <;> (try split) <;> (unfold clockPass modulate; dsimp only; split <;> (try split) <;> rfl)
@[simp] theorem elapse_rill {n : Nat} : (elapse s n).rill = s.rill := by unfold elapse rtcPass; dsimp only; split <;> (try unfold rtcCount) <;> (try split) <;> (unfold clockPass modulate; dsimp only; split <;> (try split) <;> rfl)
@[simp] theorem elapse_basin {n : Nat} : (elapse s n).basin = s.basin := by unfold elapse rtcPass; dsimp only; split <;> (try unfold rtcCount) <;> (try split) <;> (unfold clockPass modulate; dsimp only; split <;> (try split) <;> rfl)
@[simp] theorem elapse_cc {n : Nat} : (elapse s n).cc = s.cc := by unfold elapse rtcPass; dsimp only; split <;> (try unfold rtcCount) <;> (try split) <;> (unfold clockPass modulate; dsimp only; split <;> (try split) <;> rfl)
@[simp] theorem elapse_bus {n : Nat} : (elapse s n).bus = s.bus := by unfold elapse rtcPass; dsimp only; split <;> (try unfold rtcCount) <;> (try split) <;> (unfold clockPass modulate; dsimp only; split <;> (try split) <;> rfl)
@[simp] theorem elapse_fabric {n : Nat} : (elapse s n).fabric = s.fabric := by unfold elapse rtcPass; dsimp only; split <;> (try unfold rtcCount) <;> (try split) <;> (unfold clockPass modulate; dsimp only; split <;> (try split) <;> rfl)
@[simp] theorem elapse_cascade {n : Nat} : (elapse s n).cascade = s.cascade := by unfold elapse rtcPass; dsimp only; split <;> (try unfold rtcCount) <;> (try split) <;> (unfold clockPass modulate; dsimp only; split <;> (try split) <;> rfl)
@[simp] theorem elapse_sets {n : Nat} : (elapse s n).sets = s.sets := by unfold elapse rtcPass; dsimp only; split <;> (try unfold rtcCount) <;> (try split) <;> (unfold clockPass modulate; dsimp only; split <;> (try split) <;> rfl)
@[simp] theorem elapse_yard {n : Nat} : (elapse s n).yard = s.yard := by unfold elapse rtcPass; dsimp only; split <;> (try unfold rtcCount) <;> (try split) <;> (unfold clockPass modulate; dsimp only; split <;> (try split) <;> rfl)
@[simp] theorem elapse_ecc {n : Nat} : (elapse s n).ecc = s.ecc := by unfold elapse rtcPass; dsimp only; split <;> (try unfold rtcCount) <;> (try split) <;> (unfold clockPass modulate; dsimp only; split <;> (try split) <;> rfl)
@[simp] theorem elapse_wb {n : Nat} : (elapse s n).wb = s.wb := by unfold elapse rtcPass; dsimp only; split <;> (try unfold rtcCount) <;> (try split) <;> (unfold clockPass modulate; dsimp only; split <;> (try split) <;> rfl)
@[simp] theorem elapse_claims {n : Nat} : (elapse s n).claims = s.claims := by unfold elapse rtcPass; dsimp only; split <;> (try unfold rtcCount) <;> (try split) <;> (unfold clockPass modulate; dsimp only; split <;> (try split) <;> rfl)
@[simp] theorem elapse_ports {n : Nat} : (elapse s n).ports = s.ports := by unfold elapse rtcPass; dsimp only; split <;> (try unfold rtcCount) <;> (try split) <;> (unfold clockPass modulate; dsimp only; split <;> (try split) <;> rfl)
@[simp] theorem elapse_host {n : Nat} : (elapse s n).host = s.host := by unfold elapse rtcPass; dsimp only; split <;> (try unfold rtcCount) <;> (try split) <;> (unfold clockPass modulate; dsimp only; split <;> (try split) <;> rfl)
@[simp] theorem elapse_tether {n : Nat} : (elapse s n).tether = s.tether := by unfold elapse rtcPass; dsimp only; split <;> (try unfold rtcCount) <;> (try split) <;> (unfold clockPass modulate; dsimp only; split <;> (try split) <;> rfl)
@[simp] theorem elapse_eth {n : Nat} : (elapse s n).eth = s.eth := by unfold elapse rtcPass; dsimp only; split <;> (try unfold rtcCount) <;> (try split) <;> (unfold clockPass modulate; dsimp only; split <;> (try split) <;> rfl)
@[simp] theorem elapse_t1s {n : Nat} : (elapse s n).t1s = s.t1s := by unfold elapse rtcPass; dsimp only; split <;> (try unfold rtcCount) <;> (try split) <;> (unfold clockPass modulate; dsimp only; split <;> (try split) <;> rfl)
@[simp] theorem elapse_stream {n : Nat} : (elapse s n).stream = s.stream := by unfold elapse rtcPass; dsimp only; split <;> (try unfold rtcCount) <;> (try split) <;> (unfold clockPass modulate; dsimp only; split <;> (try split) <;> rfl)
@[simp] theorem elapse_boot {n : Nat} : (elapse s n).boot = s.boot := by unfold elapse rtcPass; dsimp only; split <;> (try unfold rtcCount) <;> (try split) <;> (unfold clockPass modulate; dsimp only; split <;> (try split) <;> rfl)
@[simp] theorem elapse_sup {n : Nat} : (elapse s n).sup = s.sup := by unfold elapse rtcPass; dsimp only; split <;> (try unfold rtcCount) <;> (try split) <;> (unfold clockPass modulate; dsimp only; split <;> (try split) <;> rfl)
@[simp] theorem elapse_far {n : Nat} : (elapse s n).far = s.far := by unfold elapse rtcPass; dsimp only; split <;> (try unfold rtcCount) <;> (try split) <;> (unfold clockPass modulate; dsimp only; split <;> (try split) <;> rfl)
@[simp] theorem elapse_csp {n : Nat} : (elapse s n).csp = s.csp := by unfold elapse rtcPass; dsimp only; split <;> (try unfold rtcCount) <;> (try split) <;> (unfold clockPass modulate; dsimp only; split <;> (try split) <;> rfl)
@[simp] theorem elapse_resp {n : Nat} : (elapse s n).resp = s.resp := by unfold elapse rtcPass; dsimp only; split <;> (try unfold rtcCount) <;> (try split) <;> (unfold clockPass modulate; dsimp only; split <;> (try split) <;> rfl)
@[simp] theorem elapse_heldAcc {n : Nat} : (elapse s n).heldAcc = s.heldAcc := by unfold elapse rtcPass; dsimp only; split <;> (try unfold rtcCount) <;> (try split) <;> (unfold clockPass modulate; dsimp only; split <;> (try split) <;> rfl)
@[simp] theorem elapse_freeCtr {n : Nat} : (elapse s n).freeCtr = s.freeCtr := by unfold elapse rtcPass; dsimp only; split <;> (try unfold rtcCount) <;> (try split) <;> (unfold clockPass modulate; dsimp only; split <;> (try split) <;> rfl)

@[simp] theorem flashPut_pending {a : Nat} {bs : List Byte} : (flashPut s a bs).pending = s.pending := rfl
@[simp] theorem flashPut_regs {a : Nat} {bs : List Byte} : (flashPut s a bs).regs = s.regs := rfl
@[simp] theorem flashPut_tick {a : Nat} {bs : List Byte} : (flashPut s a bs).tick = s.tick := rfl
@[simp] theorem flashPut_rill {a : Nat} {bs : List Byte} : (flashPut s a bs).rill = s.rill := rfl
@[simp] theorem flashPut_basin {a : Nat} {bs : List Byte} : (flashPut s a bs).basin = s.basin := rfl
@[simp] theorem flashPut_cc {a : Nat} {bs : List Byte} : (flashPut s a bs).cc = s.cc := rfl
@[simp] theorem flashPut_bus {a : Nat} {bs : List Byte} : (flashPut s a bs).bus = s.bus := rfl
@[simp] theorem flashPut_fabric {a : Nat} {bs : List Byte} : (flashPut s a bs).fabric = s.fabric := rfl
@[simp] theorem flashPut_cascade {a : Nat} {bs : List Byte} : (flashPut s a bs).cascade = s.cascade := rfl
@[simp] theorem flashPut_sets {a : Nat} {bs : List Byte} : (flashPut s a bs).sets = s.sets := rfl
@[simp] theorem flashPut_yard {a : Nat} {bs : List Byte} : (flashPut s a bs).yard = s.yard := rfl
@[simp] theorem flashPut_ecc {a : Nat} {bs : List Byte} : (flashPut s a bs).ecc = s.ecc := rfl
@[simp] theorem flashPut_wb {a : Nat} {bs : List Byte} : (flashPut s a bs).wb = s.wb := rfl
@[simp] theorem flashPut_claims {a : Nat} {bs : List Byte} : (flashPut s a bs).claims = s.claims := rfl
@[simp] theorem flashPut_ports {a : Nat} {bs : List Byte} : (flashPut s a bs).ports = s.ports := rfl
@[simp] theorem flashPut_host {a : Nat} {bs : List Byte} : (flashPut s a bs).host = s.host := rfl
@[simp] theorem flashPut_tether {a : Nat} {bs : List Byte} : (flashPut s a bs).tether = s.tether := rfl
@[simp] theorem flashPut_clock {a : Nat} {bs : List Byte} : (flashPut s a bs).clock = s.clock := rfl
@[simp] theorem flashPut_time {a : Nat} {bs : List Byte} : (flashPut s a bs).time = s.time := rfl
@[simp] theorem flashPut_eth {a : Nat} {bs : List Byte} : (flashPut s a bs).eth = s.eth := rfl
@[simp] theorem flashPut_t1s {a : Nat} {bs : List Byte} : (flashPut s a bs).t1s = s.t1s := rfl
@[simp] theorem flashPut_stream {a : Nat} {bs : List Byte} : (flashPut s a bs).stream = s.stream := rfl
@[simp] theorem flashPut_power {a : Nat} {bs : List Byte} : (flashPut s a bs).power = s.power := rfl
@[simp] theorem flashPut_sup {a : Nat} {bs : List Byte} : (flashPut s a bs).sup = s.sup := rfl
@[simp] theorem flashPut_far {a : Nat} {bs : List Byte} : (flashPut s a bs).far = s.far := rfl
@[simp] theorem flashPut_csp {a : Nat} {bs : List Byte} : (flashPut s a bs).csp = s.csp := rfl
@[simp] theorem flashPut_resp {a : Nat} {bs : List Byte} : (flashPut s a bs).resp = s.resp := rfl
@[simp] theorem flashPut_heldAcc {a : Nat} {bs : List Byte} : (flashPut s a bs).heldAcc = s.heldAcc := rfl
@[simp] theorem flashPut_freeCtr {a : Nat} {bs : List Byte} : (flashPut s a bs).freeCtr = s.freeCtr := rfl

@[simp] theorem flashErase_pending {a : Nat} : (flashErase s a).pending = s.pending := rfl
@[simp] theorem flashErase_regs {a : Nat} : (flashErase s a).regs = s.regs := rfl
@[simp] theorem flashErase_tick {a : Nat} : (flashErase s a).tick = s.tick := rfl
@[simp] theorem flashErase_rill {a : Nat} : (flashErase s a).rill = s.rill := rfl
@[simp] theorem flashErase_basin {a : Nat} : (flashErase s a).basin = s.basin := rfl
@[simp] theorem flashErase_cc {a : Nat} : (flashErase s a).cc = s.cc := rfl
@[simp] theorem flashErase_bus {a : Nat} : (flashErase s a).bus = s.bus := rfl
@[simp] theorem flashErase_fabric {a : Nat} : (flashErase s a).fabric = s.fabric := rfl
@[simp] theorem flashErase_cascade {a : Nat} : (flashErase s a).cascade = s.cascade := rfl
@[simp] theorem flashErase_sets {a : Nat} : (flashErase s a).sets = s.sets := rfl
@[simp] theorem flashErase_yard {a : Nat} : (flashErase s a).yard = s.yard := rfl
@[simp] theorem flashErase_ecc {a : Nat} : (flashErase s a).ecc = s.ecc := rfl
@[simp] theorem flashErase_wb {a : Nat} : (flashErase s a).wb = s.wb := rfl
@[simp] theorem flashErase_claims {a : Nat} : (flashErase s a).claims = s.claims := rfl
@[simp] theorem flashErase_ports {a : Nat} : (flashErase s a).ports = s.ports := rfl
@[simp] theorem flashErase_host {a : Nat} : (flashErase s a).host = s.host := rfl
@[simp] theorem flashErase_tether {a : Nat} : (flashErase s a).tether = s.tether := rfl
@[simp] theorem flashErase_clock {a : Nat} : (flashErase s a).clock = s.clock := rfl
@[simp] theorem flashErase_time {a : Nat} : (flashErase s a).time = s.time := rfl
@[simp] theorem flashErase_eth {a : Nat} : (flashErase s a).eth = s.eth := rfl
@[simp] theorem flashErase_t1s {a : Nat} : (flashErase s a).t1s = s.t1s := rfl
@[simp] theorem flashErase_stream {a : Nat} : (flashErase s a).stream = s.stream := rfl
@[simp] theorem flashErase_power {a : Nat} : (flashErase s a).power = s.power := rfl
@[simp] theorem flashErase_sup {a : Nat} : (flashErase s a).sup = s.sup := rfl
@[simp] theorem flashErase_far {a : Nat} : (flashErase s a).far = s.far := rfl
@[simp] theorem flashErase_csp {a : Nat} : (flashErase s a).csp = s.csp := rfl
@[simp] theorem flashErase_resp {a : Nat} : (flashErase s a).resp = s.resp := rfl
@[simp] theorem flashErase_heldAcc {a : Nat} : (flashErase s a).heldAcc = s.heldAcc := rfl
@[simp] theorem flashErase_freeCtr {a : Nat} : (flashErase s a).freeCtr = s.freeCtr := rfl

@[simp] theorem muteLow_pending  : (muteLow s).pending = s.pending := rfl
@[simp] theorem muteLow_regs  : (muteLow s).regs = s.regs := rfl
@[simp] theorem muteLow_tick  : (muteLow s).tick = s.tick := rfl
@[simp] theorem muteLow_rill  : (muteLow s).rill = s.rill := rfl
@[simp] theorem muteLow_basin  : (muteLow s).basin = s.basin := rfl
@[simp] theorem muteLow_cc  : (muteLow s).cc = s.cc := rfl
@[simp] theorem muteLow_bus  : (muteLow s).bus = s.bus := rfl
@[simp] theorem muteLow_fabric  : (muteLow s).fabric = s.fabric := rfl
@[simp] theorem muteLow_cascade  : (muteLow s).cascade = s.cascade := rfl
@[simp] theorem muteLow_sets  : (muteLow s).sets = s.sets := rfl
@[simp] theorem muteLow_yard  : (muteLow s).yard = s.yard := rfl
@[simp] theorem muteLow_ecc  : (muteLow s).ecc = s.ecc := rfl
@[simp] theorem muteLow_wb  : (muteLow s).wb = s.wb := rfl
@[simp] theorem muteLow_claims  : (muteLow s).claims = s.claims := rfl
@[simp] theorem muteLow_host  : (muteLow s).host = s.host := rfl
@[simp] theorem muteLow_tether  : (muteLow s).tether = s.tether := rfl
@[simp] theorem muteLow_clock  : (muteLow s).clock = s.clock := rfl
@[simp] theorem muteLow_time  : (muteLow s).time = s.time := rfl
@[simp] theorem muteLow_eth  : (muteLow s).eth = s.eth := rfl
@[simp] theorem muteLow_t1s  : (muteLow s).t1s = s.t1s := rfl
@[simp] theorem muteLow_stream  : (muteLow s).stream = s.stream := rfl
@[simp] theorem muteLow_power  : (muteLow s).power = s.power := rfl
@[simp] theorem muteLow_boot  : (muteLow s).boot = s.boot := rfl
@[simp] theorem muteLow_sup  : (muteLow s).sup = s.sup := rfl
@[simp] theorem muteLow_far  : (muteLow s).far = s.far := rfl
@[simp] theorem muteLow_csp  : (muteLow s).csp = s.csp := rfl
@[simp] theorem muteLow_resp  : (muteLow s).resp = s.resp := rfl
@[simp] theorem muteLow_heldAcc  : (muteLow s).heldAcc = s.heldAcc := rfl
@[simp] theorem muteLow_freeCtr  : (muteLow s).freeCtr = s.freeCtr := rfl

/-! ### Registers -/

/-- A register reads what was last stored in it. -/
theorem State.reg_setReg_same {a : Nat} {v : BitVec 32} (h : Cells.wf regReset s.regs = true) : (s.setReg a v).reg a = v :=
  Cells.read_write_same h

/-- A store in one register leaves every other register alone. -/
theorem State.reg_setReg_other {a b : Nat} {v : BitVec 32} (h : b ≠ a) : (s.setReg a v).reg b = s.reg b :=
  Cells.read_write_other h

/-- The register file stays canonical. -/
theorem State.regs_setReg_wf {a : Nat} {v : BitVec 32} (h : Cells.wf regReset s.regs = true) :
    Cells.wf regReset (s.setReg a v).regs = true := Cells.wf_write h

/-! ### After a command (R509) -/

/-- The aggregator's message changes the host interface alone. -/
theorem aggSend_host_only (s : State) : ∃ h, aggSend s = { s with host := h } := by
  unfold aggSend
  split
  next hc =>
    simp only [Bool.and_eq_true, Bool.not_eq_true'] at hc
    unfold msixSend
    rw [if_neg (by simp [hc.2])]
    split
    · exact ⟨s.host, rfl⟩
    · split
      · exact ⟨_, rfl⟩
      · unfold hostPut
        rw [if_neg (by show ¬ hostLocal s = true; simp [hc.2])]
        exact ⟨_, rfl⟩
  · exact ⟨s.host, rfl⟩

/-- What follows a command changes the host interface alone. -/
theorem settle_host_only (s : State) : ∃ h, settle s = { s with host := h } := by
  unfold settle
  extract_lets high s1
  have h1 : ∃ h, s1 = { s with host := h } := by
    show ∃ h, (if (high && !s.host.aggHigh) = true then aggSend s else s) = { s with host := h }
    split
    · exact aggSend_host_only s
    · exact ⟨s.host, rfl⟩
  obtain ⟨h, e⟩ := h1
  rw [e]
  exact ⟨_, rfl⟩

@[simp] theorem settle_pending : (settle s).pending = s.pending := by obtain ⟨h, e⟩ := settle_host_only s; rw [e]
@[simp] theorem settle_regs : (settle s).regs = s.regs := by obtain ⟨h, e⟩ := settle_host_only s; rw [e]
@[simp] theorem settle_tick : (settle s).tick = s.tick := by obtain ⟨h, e⟩ := settle_host_only s; rw [e]
@[simp] theorem settle_rill : (settle s).rill = s.rill := by obtain ⟨h, e⟩ := settle_host_only s; rw [e]
@[simp] theorem settle_basin : (settle s).basin = s.basin := by obtain ⟨h, e⟩ := settle_host_only s; rw [e]
@[simp] theorem settle_cc : (settle s).cc = s.cc := by obtain ⟨h, e⟩ := settle_host_only s; rw [e]
@[simp] theorem settle_bus : (settle s).bus = s.bus := by obtain ⟨h, e⟩ := settle_host_only s; rw [e]
@[simp] theorem settle_fabric : (settle s).fabric = s.fabric := by obtain ⟨h, e⟩ := settle_host_only s; rw [e]
@[simp] theorem settle_cascade : (settle s).cascade = s.cascade := by obtain ⟨h, e⟩ := settle_host_only s; rw [e]
@[simp] theorem settle_sets : (settle s).sets = s.sets := by obtain ⟨h, e⟩ := settle_host_only s; rw [e]
@[simp] theorem settle_yard : (settle s).yard = s.yard := by obtain ⟨h, e⟩ := settle_host_only s; rw [e]
@[simp] theorem settle_ecc : (settle s).ecc = s.ecc := by obtain ⟨h, e⟩ := settle_host_only s; rw [e]
@[simp] theorem settle_wb : (settle s).wb = s.wb := by obtain ⟨h, e⟩ := settle_host_only s; rw [e]
@[simp] theorem settle_claims : (settle s).claims = s.claims := by obtain ⟨h, e⟩ := settle_host_only s; rw [e]
@[simp] theorem settle_ports : (settle s).ports = s.ports := by obtain ⟨h, e⟩ := settle_host_only s; rw [e]
@[simp] theorem settle_tether : (settle s).tether = s.tether := by obtain ⟨h, e⟩ := settle_host_only s; rw [e]
@[simp] theorem settle_clock : (settle s).clock = s.clock := by obtain ⟨h, e⟩ := settle_host_only s; rw [e]
@[simp] theorem settle_time : (settle s).time = s.time := by obtain ⟨h, e⟩ := settle_host_only s; rw [e]
@[simp] theorem settle_eth : (settle s).eth = s.eth := by obtain ⟨h, e⟩ := settle_host_only s; rw [e]
@[simp] theorem settle_t1s : (settle s).t1s = s.t1s := by obtain ⟨h, e⟩ := settle_host_only s; rw [e]
@[simp] theorem settle_stream : (settle s).stream = s.stream := by obtain ⟨h, e⟩ := settle_host_only s; rw [e]
@[simp] theorem settle_power : (settle s).power = s.power := by obtain ⟨h, e⟩ := settle_host_only s; rw [e]
@[simp] theorem settle_boot : (settle s).boot = s.boot := by obtain ⟨h, e⟩ := settle_host_only s; rw [e]
@[simp] theorem settle_sup : (settle s).sup = s.sup := by obtain ⟨h, e⟩ := settle_host_only s; rw [e]
@[simp] theorem settle_far : (settle s).far = s.far := by obtain ⟨h, e⟩ := settle_host_only s; rw [e]
@[simp] theorem settle_csp : (settle s).csp = s.csp := by obtain ⟨h, e⟩ := settle_host_only s; rw [e]
@[simp] theorem settle_resp : (settle s).resp = s.resp := by obtain ⟨h, e⟩ := settle_host_only s; rw [e]
@[simp] theorem settle_heldAcc : (settle s).heldAcc = s.heldAcc := by obtain ⟨h, e⟩ := settle_host_only s; rw [e]
@[simp] theorem settle_freeCtr : (settle s).freeCtr = s.freeCtr := by obtain ⟨h, e⟩ := settle_host_only s; rw [e]

/-- A register reads the same after the aggregator's message. -/
@[simp] theorem settle_reg {a : Nat} : (settle s).reg a = s.reg a := by simp [State.reg]

@[simp] theorem settle_bit {a k : Nat} : (settle s).bit a k = s.bit a k := by simp [State.bit]

@[simp] theorem settle_fld {a lo w : Nat} : (settle s).fld a lo w = s.fld a lo w := by simp [State.fld]

end Sys2Proof.Machine
end

