-- ==== Sys2Proof/Safety.lean ====
section
/-! DEFINITION. What a safe run is: a run that no fault and no refusal stops, and memories in their one canonical form. -/
namespace Sys2Proof.Safety

open Sys2Proof.Machine

/-- `c` completes on `s`: it answers a next state. -/
def Completes (c : Instr) (s : State) : Prop := ∃ t, exec c s = .next t

/-- The next state of a step that stops nowhere. -/
def StepsTo (s t : State) : Prop := step s = .next t

/-- `t` is reached from `s` by steps. -/
inductive Reaches (s : State) : State → Prop where
  | refl : Reaches s s
  | tail {t u : State} : Reaches s t → StepsTo t u → Reaches s u

/-- The addressed memories of the block in canonical form: the yard, the flash and the tack room. -/
def MemoryWf (s : State) : Prop := Memory.wf s = true

end Sys2Proof.Safety
end

