-- ==== Sys2Proof/Tests/Slice0.lean ====
section
/-! SUPPORT. The model's own tests: an ill-formed command for each check of WellFormed.lean, a state and operands that meet the hypotheses
of each statement, clause by clause, and a few effects that the spec gives in numbers. Each is one step, or no step, on a small state. -/
namespace Sys2Proof.Tests

open Sys2Proof Sys2Proof.Machine Sys2Proof.Claims

/-- The state after reset with some registers at values of the test's own. -/
def st (l : List (Nat × BitVec 32)) : State := l.foldl (fun s e => s.setReg e.1 e.2) State.reset

/-- The same with the block running and a mode in force. -/
def up (l : List (Nat × BitVec 32)) : State :=
  let s := st l
  { s with power := { s.power with phase := .running }, tick := { s.tick with entered := true, mode := 4#3 } }

/-! ### Well-formed commands -/

def noInput : SampleInput := ⟨[], 0#128, [], 0#4, [], [], 0#64⟩

/-- The configuration of a PCIe function that the host has not changed. -/
def plainPci : PciSettings := ⟨⟨0#3, 2#3, 0#4, true, 0#32⟩, true, false⟩

theorem test_wellformed_sample_tick : (Instr.sampleTick { noInput with adc := [(1, 0#36), (1, 0#36)] }).wellFormed = false ∧
    (Instr.sampleTick { noInput with pdm := [(127, 0#36), (127, 1#36)] }).wellFormed = false ∧
    (Instr.sampleTick { noInput with tether := [(1, 511, 0#36), (1, 511, 0#36)] }).wellFormed = false ∧
    (Instr.sampleTick { noInput with bits := [(3, 0#64), (3, 0#64)] }).wellFormed = false ∧
    (Instr.sampleTick { noInput with tether := [(0, 511, 0#36), (1, 511, 0#36)] }).wellFormed = true := by decide
theorem test_wellformed_yard_bytes : (Instr.yardByteWrite 0 0#25 []).wellFormed = false ∧
    (Instr.yardByteWrite 0 0x1FFFFFF#25 [0#8, 0#8]).wellFormed = false ∧ (Instr.yardByteWrite 0 0x1FFFFFF#25 [0#8]).wellFormed = true := by decide
theorem test_wellformed_basin_core : (Instr.snop 8 ⟨⟨true, false, 0#2, 0#4, false⟩, 0⟩).wellFormed = false ∧
    (Instr.snop 9 ⟨⟨true, false, 0#2, 0#4, false⟩, 0⟩).wellFormed = true := by decide
theorem test_wellformed_policy : (Instr.policyEvaluation []).wellFormed = false := by decide
theorem test_wellformed_aout : (Instr.aoutPeriodEnd 0 []).wellFormed = false := by decide
theorem test_wellformed_firmware_message : (TetherMsg.firmware 0x0500#32 [0#32]).wellFormed = false ∧
    (TetherMsg.firmware 0x0500#32 [0#32, 0#32]).wellFormed = true ∧ (TetherMsg.firmware 0xFF00#32 []).wellFormed = false := by decide
theorem test_wellformed_bar_request : (BarRequest.read 0).wellFormed = false ∧ (BarRequest.write []).wellFormed = false ∧
    (BarRequest.write (List.replicate 257 0#8)).wellFormed = false ∧ (BarRequest.write (List.replicate 256 0#8)).wellFormed = true := by decide +kernel
theorem test_wellformed_tack : (Instr.tackRoomAccess 0 0x3FFD#14 2 none).wellFormed = false ∧
    (Instr.tackRoomAccess 0 0x3FFC#14 2 none).wellFormed = true := by decide
theorem test_wellformed_tdm : (Instr.tdmRxFrame 0 (List.replicate 33 0#32) 0#16).wellFormed = false ∧
    (Instr.tdmRxFrame 0 (List.replicate 32 0#32) 0#16).wellFormed = true := by decide +kernel
theorem test_wellformed_ethernet : (Instr.txDescriptor 0 0 [] [] false).wellFormed = false ∧
    (Instr.txDescriptor 0 0 [] [] true).wellFormed = true ∧ (Instr.rxFrame 0 [] false false 0#64 [[]]).wellFormed = false ∧
    (Instr.rxFrame 0 [] false false 0#64 []).wellFormed = true := by decide
theorem test_wellformed_compare : (Instr.timeCapCfgWrite true 2 0#32).wellFormed = false ∧
    (Instr.timeCapCfgWrite true 1 0#32).wellFormed = true ∧ (Instr.timeCapCfgWrite false 3 0#32).wellFormed = true := by decide
theorem test_wellformed_commands : (Instr.hostLinkUp 0#2 3#2 plainPci.limits true false).wellFormed = false ∧
    (Instr.barRequest 0 0#25 (.read 0)).wellFormed = false ∧
    (Instr.tetherMessageReceive 0 (.firmware 0x0500#32 []) 0#32).wellFormed = false := by decide

/-! ### Hypotheses of the statements: the block, ticks and modes -/

theorem test_witness_StepRunsTheFrontCommand : State.reset.pending = [] := rfl
theorem test_witness_MemoryStaysCanonical : Memory.wf State.reset = true ∧
    ∃ t, step { State.reset with pending := [.irqAck] } = .next t := ⟨by decide, _, rfl⟩
theorem test_witness_AggregatorMessageFrame : irqPendHost State.reset = 0#32 ∧
    ({ State.reset with host := { State.reset.host with aggHigh := true } }).host.aggHigh = true := by decide

/-- A mode change that stands in a phase. -/
def inPhase (p : SeqPhase) (held : Nat) : State :=
  let s := up []
  { s with tick := { s.tick with gain := 256, seq := { s.tick.seq with phase := p, goal := .mode, heldFrames := held } } }

/-- A mode change accepted with group 1, sets 0 and 1, of which only set 0 is committed. -/
def groupWaits : State :=
  let s := up [(Reg.SL_GMASK_LO 0, 3#32)]
  { s with tick := { s.tick with seq := { s.tick.seq with phase := .accepted, group := 1#4 } },
           sets := vset s.sets 0 { setAt s 0 with committed := true, group := 1#4 } }

theorem test_witness_ModeChangeSteps : RegsWf groupWaits ∧ RegsWf (inPhase .rampUp 2) ∧
    ((inPhase .ready 0).tick.seq.phase = .ready ∧ (inPhase .ready 0).tick.pending = false) ∧
    ((inPhase .hold 2).tick.seq.phase = .hold ∧ 2 ≤ (inPhase .hold 2).tick.seq.heldFrames ∧ acquiring (inPhase .hold 2) = false) ∧
    (let s := { inPhase .ready 0 with tick := { (inPhase .ready 0).tick with outHold := some 2 } }
     s.tick.seq.phase = .ready ∧ s.tick.outHold = some 2 ∧ acquiring s = false) ∧
    acquiring { inPhase .hold 2 with regs := [(Reg.CLK_STATUS, 2#32)] } = true ∧
    ((inPhase .rampUp 2).tick.seq.phase = .rampUp ∧ (inPhase .rampUp 2).tick.gain = 256) ∧
    (groupWaits.tick.seq.phase = .accepted ∧ groupComplete groupWaits groupWaits.tick.seq.group = false ∧ groupWaits.tick.outHold = none ∧
      groupWaits.tick.seq.group ≠ 0#4 ∧ abortHits groupWaits groupWaits.tick.seq.group 0 = true) ∧
    (let v := 0xC5000002#32
     v.extractLsb' 24 8 = 0xC5#8 ∧ isRunMode (v.extractLsb' 0 3) = true ∧ ¬ (v.extractLsb' 0 3 = modeListen ∧ v.getLsbD 4 = true) ∧
      (up []).tick.pending = false ∧ (up []).tick.entered = true ∧ (st []).tick.entered = false ∧ (up []).tick.seq.phase = .idle ∧
      inSafe (up []) = false ∧ inSafe (st [(Reg.BOOT_STATUS, 0x80#32)]) = true ∧ (inPhase .hold 2).tick.pending = false ∧
      (inPhase .hold 2).tick.seq.phase ≠ .idle) := by
  unfold RegsWf; decide

/-- A mode armed, its outputs ramped down, at a frame-tick boundary; `acq` says that the change needs acquisition. -/
def armed (l : List (Nat × BitVec 32)) (acq : Bool) : State :=
  let s := up l
  { s with tick := { s.tick with frameDue := true, pending := true, gain := 0,
                                 seq := { s.tick.seq with phase := .rampDown, goal := .mode, needAcq := acq } } }

theorem test_witness_SampleAndFrameTicks :
    (let s := up [(Reg.CLK_STATUS, 1#32)]
     ticksRun s = true ∧ s.tick.seq.goal = .mode ∧ s.bit Reg.CLK_STATUS 9 = false ∧ ticksRun State.reset = false) ∧
    (let s := up [(Reg.CLK_STATUS, 0x201#32)]
     RegsWf s ∧ ticksRun s = true ∧ s.tick.seq.goal = .mode ∧ s.bit Reg.CLK_STATUS 9 = true ∧ s.tick.pending = false) ∧
    (let s := armed [(Reg.CLK_STATUS, 0x21#32)] false
     RegsWf s ∧ frameReady s = true ∧ stopDue s = false ∧ frameKind s = .switch ∧ s.tick.pending = true) ∧
    (frameReady (armed [(Reg.CLK_STATUS, 0x21#32)] true) = true ∧ stopDue (armed [(Reg.CLK_STATUS, 0x21#32)] true) = false ∧ frameKind (armed [(Reg.CLK_STATUS, 0x21#32)] true) = .acquire) ∧
    (let s := armed [(Reg.CLK_STATUS, 0x22#32)] true
     { s with tick := { s.tick with entered := false } }.tick.entered = false ∧ inSafe s = false ∧ s.tick.pending = true ∧ s.power.phase = .running ∧
       gateOpen s = true) ∧
    (let s := st [(Reg.CLK_STATUS, 0x22#32)]
     let u := { s with sup := { s.sup with named := some (4#3, false) }, power := { s.power with phase := .running } }
     u.sup.named = some (4#3, false) ∧ u.tick.pending = false ∧ isRunMode 4#3 = true ∧ 4#3 ≠ modeListen ∧ u.tick.entered = false ∧
       inSafe u = false ∧ u.power.phase = .running ∧ gateOpen u = true ∧ s.sup.named = none ∧ s.boot.slot = none) ∧
    (let s := up [(Reg.CLK_STATUS, 1#32)]
     let u := { s with tick := { s.tick with j := s.f - 1 } }
     ticksRun u = true ∧ u.tick.j + 1 = u.f ∧ u.tick.j ≠ 0) := by
  unfold RegsWf; decide

/-! ### Rill engines -/

/-- Rill role 0 runs a program of `len` steps, with line 0 of the descriptor given. -/
def rillUp (l : List (Nat × BitVec 32)) (line : Word) : State :=
  let s := up l
  { s with rill := vset s.rill 0 { RillEngine.zero with
      runA := true, lenA := 4#16, stA := [(0x5000, line)], d := vset (vset RillEngine.zero.d 1 5#36) 2 7#36 } }

/-- A step guarded by P0, or, with GN, by its complement. -/
def rf (gn : Bool) (dst : BitVec 5) (m : BitVec 38) : RillFields := ⟨0#3, gn, dst, 1#5, 2#5, m⟩

/-- The hypotheses of RillResults, RillAccumulatorSetAndAdd and RillMultiplyAccumulate. -/
theorem test_witness_rill_engine_acts : RillActs (rillUp [] 0#36) 0 (rf false 3#5 0#38) := by unfold RillActs; decide
theorem test_witness_RillGuardFalseHasNoEffect : rillStepOf (.rillAdd 0 (rf true 3#5 0#38)) = some 0 ∧
    rillIssues (rillUp [] 0#36) 0 (rillEng (rillUp [] 0#36) 0) = true ∧ rexFollows (rillUp [(Reg.FAR_TARGET, 5#32)] 0#36) 0 = false ∧
    (∀ k < 2, (rillUp [] 0#36).mark (rillWin 0 + 0x20000 + 2 * (rillEng (rillUp [] 0#36) 0).stepIndex 0 + k) = 0#2) ∧
    rillPred (rillSeen (rillUp [] 0#36) 0) 0 = (rf true 3#5 0#38).gn := by decide

/-- What a command leaves. -/
def after (c : Instr) (s : State) : State :=
  match exec c s with
  | .next t => t
  | _ => s

/-- With a linear line of 9 words, and one of none. -/
theorem test_witness_RillLoadsAndStores : RillActs (rillUp [] 0x80024000A#36) 0 (rf false 3#5 0#38) ∧
    (rillLineNow (rillUp [] 0#36) 0 (rf false 3#5 0#38)).len = 0 ∧
    rillLineNow (rillUp [] 0x80024000A#36) 0 (rf false 3#5 0#38) = ⟨10, 9, true⟩ ∧
    rfWin (rf false 3#5 0x1FE0000000#38) = 255 ∧ rfWin (rf false 3#5 0x2000000000#38) = 256 := by unfold RillActs; decide

/-- REX shadows role 0 in lockstep. -/
def rexUp : State :=
  let s := rillUp [(Reg.FAR_TARGET, 0x20#32)] 0#36
  { s with rill := vset s.rill 16 (rillEng s 0) }

theorem test_witness_RillStepFrameAndLockstep : rillStepOf (.macc 0 (rf false 16#5 0#38) false true false false) = some 0 ∧
    (∃ t, exec (.macc 0 (rf false 16#5 0#38) false true false false) rexUp = .next t) ∧ rexFollows rexUp 0 = true ∧
    rillIssues rexUp 0 (rillEng rexUp 0) = true ∧ vget rexUp.rill 16 RillEngine.zero = rillEng rexUp 0 ∧
    (∀ o, rexUp.mark (rillWin 16 + o) = rexUp.mark (rillWin 0 + o)) :=
  ⟨rfl, ⟨_, rfl⟩, by decide, by decide, by decide, fun _ => rfl⟩

theorem test_effect_rill_add : (rillEng (after (.rillAdd 0 (rf false 3#5 0#38)) (rillUp [] 0#36)) 0).flights = [⟨1, .d 3 12#36⟩] := by decide

/-! ### Basin engines and the control core -/

/-- The head of a bundle's last slot, guarded by P0 or, with GN, by its complement. -/
def head (gn : Bool) : SlotHead := ⟨true, false, 0#2, 0#4, gn⟩

/-- Role `n` runs frame-table entry 5, or the control core runs from the yard; S2, S3 and S4 hold 8, 0x42004 and 0x60000. -/
def basinUp (n : Nat) (l : List (Nat × BitVec 32)) : State :=
  let u := up l
  let regs := vset (vset (vset BasinEngine.zero.s 2 8#36) 3 0x42004#36) 4 0x60000#36
  let e := { BasinEngine.zero with current := some 5, runA := true, s := regs }
  { u with basin := vset u.basin n (if n = 9 then { e with current := none, pc := 0x10000000#32 } else e),
           cc := { u.cc with held := false } }

/-- The state after the fetch of the bundle. -/
def fetched (n : Nat) (s : State) : State := (bundleStart s n false 0#2).2

/-- The hypotheses of BasinScalarResults, BasinPredicatesAndControl, BasinBranches, VectorLaneResults and VectorAccumulation. -/
theorem test_witness_slot_issues : SlotIssues (basinUp 0 []) 0 (head false) (fetched 0 (basinUp 0 [])) ∧
    SlotHolds 0 (head false) (fetched 0 (basinUp 0 [])) ∧ ¬ SlotHolds 0 (head true) (fetched 0 (basinUp 0 [])) ∧
    inDelay (coreOf (fetched 0 (basinUp 0 [])) 0) = false := by
  refine ⟨⟨by decide, by decide, by decide, rfl, by decide⟩, ?_, ?_, by decide⟩ <;> unfold SlotHolds <;> decide

theorem test_witness_control_core_issues : SlotIssues (basinUp 9 []) 9 (head false) (fetched 9 (basinUp 9 [])) ∧
    SlotHolds 9 (head false) (fetched 9 (basinUp 9 [])) ∧ ¬ SlotHolds 9 (head true) (fetched 9 (basinUp 9 [])) ∧
    inDelay (coreOf (fetched 9 (basinUp 9 [])) 9) = false := by
  refine ⟨⟨by decide, by decide, by decide, rfl, by decide⟩, ?_, ?_, by decide⟩ <;> unfold SlotHolds <;> decide

/-- The same in a delay slot of a branch. -/
def basinDelay (n : Nat) : State :=
  let s := basinUp n []
  putCore s n { coreOf s n with branch := some ⟨2, 0#32, none, none, none⟩ }

theorem test_witness_KernelFaults : SlotIssues (basinDelay 0) 0 (head false) (fetched 0 (basinDelay 0)) ∧
    inDelay (coreOf (fetched 0 (basinDelay 0)) 0) = true ∧ crBad 0 5 = true ∧ crBad 0 4 = false ∧ crBad 9 4 = true ∧ crBad 9 8 = false ∧
    crBad 9 16 = true ∧ (coreOf (basinUp 7 []) 7).current = some 5 ∧ RegsWf (basinUp 7 []) := by
  refine ⟨⟨by decide, by decide, by decide, rfl, by decide⟩, ?_⟩; unfold RegsWf; decide
theorem test_witness_SlotGuardsAndHeldRegisters : (coreOf (basinUp 0 []) 0).flights = [] := by decide
theorem test_witness_ControlCoreException : (basinUp 9 []).cc.exl = false ∧
    ({ basinUp 9 [] with cc := { (basinUp 9 []).cc with exl := true } }).cc.exl = true := by decide

/-- A single-form access at the base register `a` with an offset. -/
def ms (a : BitVec 5) (off : BitVec 19) : MSingle := ⟨6#6, a, false, off⟩

theorem test_witness_EngineScalarAccesses :
    (let e := coreOf (fetched 0 (basinUp 0 [])) 0
     readable (singleAddr e (ms 2#5 0#19)) ∧ engAddr (singleAddr e (ms 2#5 0#19)) < 0x40000 ∧
     readable (sReg e 2) ∧ readable (pairAddr2 e ⟨6#6, 2#5, 1#4⟩ ⟨7#6, 2#5, 1#4⟩ 1) ∧
     (0x42004 ≤ engAddr (singleAddr e (ms 3#5 0#19)) ∧ engAddr (singleAddr e (ms 3#5 3#19)) < 0x42008 ∧
       (dmaAt (fetched 0 (basinUp 0 [])) 0 0).busy = false) ∧
     ¬ readable (singleAddr e (ms 4#5 0#19)) ∧ engineWrites (engAddr (singleAddr e (ms 4#5 0#19))) = false) := by
  unfold readable; decide
theorem test_witness_EngineVectorAccesses :
    (let e := coreOf (fetched 0 (basinUp 0 [])) 0
     readableRow (singleAddr e (ms 2#5 0#19)) ∧ engRow (singleAddr e (ms 2#5 0#19)) < 0x40000 ∧
     readableRow (pairAddr2 e ⟨6#6, 2#5, 1#4⟩ ⟨7#6, 2#5, 1#4⟩ 8) ∧ engRow (pairAddr2 e ⟨6#6, 2#5, 1#4⟩ ⟨7#6, 2#5, 1#4⟩ 8) < 0x40000 ∧
     ¬ readableRow (singleAddr e (ms 4#5 0#19)) ∧ 0x40000 ≤ engRow (singleAddr e (ms 4#5 0#19))) := by
  unfold readableRow; decide

theorem test_witness_ControlCoreAccesses :
    (let s1 := fetched 9 (basinUp 9 [])
     let x := Access.readWord 0#24
     masterWaits s1 masterCcD = false ∧ accessWaits s1 masterCcD x = false ∧ (accessRun s1 masterCcD x).1.err = false ∧
       dataUe s1 x = false ∧ (accessRun s1 masterCcD x).2.power.phase ≠ .held) ∧
    (let s1 := fetched 9 (basinUp 9 [(Reg.MEM_BANK_OWNER 1, 0x50005#32)])
     masterWaits s1 masterCcD = false ∧ accessWaits s1 masterCcD (.readWord 0x40000#24) = false ∧
       (accessRun s1 masterCcD (.readWord 0x40000#24)).1.err = true) ∧
    accessWaits (basinUp 9 [(Reg.MEM_STATUS, 0x100#32)]) masterCcD (.readWord 0#24) = true := by decide

theorem test_effect_basin_add : (coreOf (after (.basinAdd 0 (head false) ⟨1#5, 2#5, 2#5, 0#14⟩) (basinUp 0 [])) 0).s[1] = 16#36 := by decide
theorem test_witness_VectorStoresAndTransforms :
    (let e := coreOf (fetched 0 (basinUp 0 [])) 0
     0 ≤ (sReg e 2).toInt ∧ (sReg { e with s := vset e.s 2 (-3) } 2).toInt < 0 ∧ (4#6 : BitVec 6).toNat % 4 = 0) := by decide

/-- Role 0 between entries: entry 5 enabled, with trough-list word 0 as an input list of one. -/
def entryUp : State :=
  let u := basinUp 0 []
  let e := { coreOf u 0 with current := none, nextEntry := 0, stA := [(0x2000 + 20, 0x800000064#36), (0x2000 + 21, 0#36)] }
  putCore u 0 e

/-- Entry 5 has issued its stop while channel 0 still works for entry `i`. -/
def stoppedUp (i : Nat) : State :=
  let u := basinUp 0 []
  putCore u 0 { coreOf u 0 with current := none, entries := [(5, .stopped)], dma := vset (coreOf u 0).dma 0 ⟨true, false, 0#16, 0#18, i⟩ }

theorem test_witness_KernelEntriesAndFrameDma : bexFollows entryUp 0 = false ∧ (coreOf entryUp 0).current = none ∧
    nextEntry entryUp 0 = some 5 ∧ Cells.wf zeroAt (coreOf entryUp 0).ls = true ∧
    ((coreOf (basinUp 0 []) 0).current = some 5 ∧ nextEntry (basinUp 1 []) 0 = none) ∧
    (entryStatus (stoppedUp 4) 0 5 = .stopped ∧ (∀ ch < 4, (dmaAt (stoppedUp 4) 0 ch).busy = true → (dmaAt (stoppedUp 4) 0 ch).entry ≠ 5)) := by
  decide

/-- Channel 0 of role 0 runs the descriptor at the start of the local store, words 0 and 1 as given. -/
def dmaUp (w0 w1 : Word) : State :=
  let u := basinUp 0 [(Reg.MEM_BANK_OWNER 31, 0x20002#32)]
  putCore u 0 { coreOf u 0 with dma := vset (coreOf u 0).dma 0 ⟨true, false, 0#16, 0#18, 5⟩, ls := [(0, w0), (1, w1)] }

theorem test_witness_frame_dma : (dmaAt (dmaUp 0#36 0#36) 0 1).busy = false ∧
    (let s := dmaUp 0x800000001#36 0#36
     (dmaAt s 0 0).busy = true ∧ dmaWaits s 0 (dmaDesc s 0 0) = false ∧ (dmaDesc s 0 0).rows = 0) ∧
    (let s := dmaUp 0xC00010001#36 0x7FFFFF#36
     let d := dmaDesc s 0 (dmaAt s 0 0).addr.toNat
     (dmaAt s 0 0).busy = true ∧ dmaWaits s 0 d = false ∧ d.rows = 1 ∧ d.len = 1 ∧ d.out = true ∧ d.chain = true ∧ d.yard = 0x7FFFFF ∧
       yardAdmits s (masterBasin 0) d.yard = true ∧
       (dmaMoveAll 0 0 d (dmaPairs d) (s.eccEvents (basinSite 0) (descMarks s 0 0))).1 = false ∧ Cells.wf zeroAt s.yard = true ∧
       RegsWf s) := by unfold RegsWf; decide

/-- The control core with a system flag pending. -/
def irqUp (ie : Bool) : State :=
  let s := basinUp 9 [(Reg.SYS_IRQ_EN_CC, 0xFFFFFFFF#32), (Reg.SYS_STATUS, 1#32)]
  { s with cc := { s.cc with ie := ie } }

theorem test_witness_ControlCoreInterruptsAndWaits : RegsWf (irqUp true) ∧ interruptTaken (irqUp true) true = true ∧
    interruptTaken (irqUp false) false = false ∧ ccIssues (basinUp 9 []) = true ∧
    (fetched 9 (basinUp 9 [])).cc.trap = false := by unfold RegsWf; decide
theorem test_witness_control_core_wait : bundleStart (basinUp 9 []) 9 false 0#2 = (.go, fetched 9 (basinUp 9 [])) := rfl

/-! ### The mix fabric -/

/-- Crosspoint 65,535 routes stall 2,047 to 2,047, its weir at `level` going to `taken`, with a fade. -/
def weirUp (level taken : BitVec 12) (timer : Nat) (f : Option Fade) : State :=
  let s := up []
  { s with fabric := { s.fabric with xp := [(65535, ⟨level, taken, timer, false, some (2047#11, 2047#11), f⟩)] } }

theorem test_witness_WeirsStepAndFadesEnd :
    (let s := weirUp 5#12 4095#12 (xpTimeout (weirUp 0#12 0#12 0 none) 65535) none
     let x := xpAt s 65535
     x.route = some (2047#11, 2047#11) ∧ xpRuns s 65535 = true ∧ x.level ≠ weirLevel x.taken ∧ xpTimeout s 65535 ≤ x.timer ∧ x.fade = none) ∧
    (let s := weirUp 5#12 4095#12 0 none
     stallCrosses s 2047 = false ∧ (xpAt s 65535).timer < xpTimeout s 65535) ∧
    (xpAt (up []) 65535).route = none ∧ (let s := weirUp 1920#12 1921#12 0 none; (xpAt s 65535).level = weirLevel (xpAt s 65535).taken) ∧
    (xpAt (weirUp 0#12 0#12 0 (some ⟨true, 0, 4, 1, false, some (1#11, 2#11, 5, true)⟩)) 65535).fade = some ⟨true, 0, 4, 1, false, some (1#11, 2#11, 5, true)⟩ ∧
    (xpAt (weirUp 0#12 0#12 0 (some ⟨false, 4, 4, 1, false, none⟩)) 65535).fade = some ⟨false, 4, 4, 1, false, none⟩ := by decide

/-! ### Commits -/

/-- Set 25 in a state of its own. -/
def setUp (x : SetState) : State := let s := up []; { s with sets := vset s.sets 25 x }

theorem test_witness_CommitAbortAndCopyBack :
    (let s := up [(Reg.SL_GMASK_LO 2, 0x2000000#32)]
     commitReads s 25 = false ∧ (setAt s 25).copying = false ∧ (commitRefused (s.setFld (commitReg 25) 4 4 3) 25 3#4 false).isNone = true ∧
       (commitRefused (s.setFld (commitReg 25) 4 4 4) 25 4#4 false).isSome = true) ∧
    (let s := setUp { setAt State.reset 25 with committed := true, group := 3#4 }
     commitReads s 25 = true ∧ abortHits s 3#4 25 = true) ∧
    (let s := setUp { setAt State.reset 25 with copying := true }
     commitReads s 25 = false ∧ (setAt s 25).copying = true ∧ (setAt s 25).deferred = false) := by decide

/-! ### Ports and clocks -/

/-- Microphone 127 in service, ADC 3 in service with its bias on, its gain at 9. -/
def portsUp (settle : BitVec 128) (trip : BitVec 4) : State :=
  let s := up [(Reg.ANA_ADC_CFG 3, 0x90100#32)]
  { s with ports := { s.ports with pdmOn := 0x80000000000000000000000000000000#128, pdmSettle := settle, adcOn := 8#4, biasTrip := trip } }

theorem test_witness_MicrophoneAndAnalogPorts :
    (let s := portsUp 0#128 0#4
     RegsWf s ∧ s.ports.pdmOn.getLsbD 127 = true ∧ s.ports.pdmSettle.getLsbD 127 = false ∧ s.ports.pdmOn.getLsbD 126 = false ∧
       s.ports.adcOn.getLsbD 3 = true ∧ s.ports.adcOn.getLsbD 0 = false ∧ s.bit (Reg.ANA_ADC_CFG 3) 8 = true ∧
       s.ports.biasTrip.getLsbD 3 = false ∧ s.bit (Reg.ANA_ADC_CFG 0) 8 = false) ∧
    (portsUp (BitVec.ofNat 128 (2 ^ 127)) 8#4).ports.pdmSettle.getLsbD 127 = true ∧
    (portsUp 0#128 8#4).ports.biasTrip.getLsbD 3 = true := by unfold RegsWf; decide

/-- The media PLL in a state, on the modulated output or on MCLK, ratio 1000, CORE on the source given. -/
def pllUp (cfg : BitVec 32) (state core : Nat) : State :=
  up [(Reg.CLK_STATUS, BitVec.ofNat 32 (4 * state + core)), (Reg.MPLL_CFG, cfg), (Reg.MPLL_DIV, 1024001#32),
    (Reg.MPLL_BAND 0, 0x80000000#32)]

theorem test_witness_TdmPorts :
    (let s := up [(Reg.TDM_FRAME 3, 0x6000#32), (Reg.TDM_RX_SLOTS 3, 3#32)]
     let t := fun (v : BitVec 32) => s.setReg (Reg.TDM_CTRL 3) (v &&& 0x2C#32)
     RegsWf s ∧ tdmRx s 3 = false ∧ tdmTx s 3 = false ∧ s.bit (Reg.TDM_CTRL 3) 4 = false ∧
       tdmCfgBad (t 9#32) 3 = false ∧ (∀ r ∈ tdmPins 3 false ++ asrcChannels (t 9#32) 3 false (tdmWanted (t 9#32) 3 false),
         resFree s r.1 r.2 (fnTdm 3) = true ∧ (r.1 = 4 → r.2 ≤ 127))) ∧
    tdmCfgBad (up [(Reg.TDM_FRAME 3, 3#32)]) 3 = true ∧
    (let s := up [(Reg.TDM_CTRL 3, 0x19#32), (Reg.ASRC_STATUS, 8#32)]
     tdmRx s 3 = true ∧ tdmRuns s 3 = true ∧ tdmMaster s 3 = false ∧ s.bit (Reg.TDM_CTRL 3) 4 = true ∧ tdmAsync s 3 = true ∧
       asrcLocked s 3 = true ∧ asrcLocked s 2 = false) ∧
    tdmMaster (up [(Reg.TDM_CTRL 3, 5#32)]) 3 = true ∧
    (let s := pllUp 0x1D#32 1 2
     let t := s.setReg (Reg.TDM_CTRL 3) (4#32 &&& 0x2C#32)
     RegsWf s ∧ tdmRx s 3 = false ∧ tdmTx s 3 = false ∧ s.bit (Reg.TDM_CTRL 3) 4 = false ∧ mpllState s = 1 ∧ mpllCfgBad t = true ∧
       s.tick.pending = false) ∧
    (let s := up [(Reg.TDM_CTRL 3, 1#32), (Reg.TDM_FRAME 3, 0x6001#32)]
     tdmRuns s 3 = true ∧ tdmEarly s 3 0 0 = true ∧ tdmEarly s 3 0xFFFF 0 = false ∧ tdmAsync s 3 = false) := by unfold RegsWf; decide

theorem test_witness_MediaPllStates :
    (let s := pllUp 0#32 0 1
     let t := fun (v : BitVec 32) => s.setReg (mpllConfigReg 0) (v &&& mpllConfigMask 0)
     RegsWf s ∧ (t 0#32).bit Reg.MPLL_CFG 0 = false ∧ (t 1#32).bit Reg.MPLL_CFG 0 = true ∧ mpllCfgBad (t 1#32) = false ∧ coreSrc s = 1 ∧
       s.fld Reg.MPLL_CFG 1 2 = 0 ∧ s.bit Reg.MPLL_CFG 0 = false ∧ coreSrc (pllUp 0#32 0 2) ≠ 1) ∧
    (pllUp 2#32 0 1).fld Reg.MPLL_CFG 1 2 ≠ 0 ∧
    (let s := pllUp 1#32 1 2
     s.bit Reg.MPLL_CFG 0 = true ∧ mpllState s = 1 ∧ s.tick.pending = false ∧
       mpllCfgBad { s.setReg Reg.MNCO_FW_HI 0x200#32 with clock := { s.clock with fw := 0x20000000000#48 } } = false) ∧
    (mpllState (pllUp 1#32 2 2) = 2 ∧ coreSrc (pllUp 1#32 2 2) ≠ 1) ∧
    (mpllState (pllUp 1#32 3 1) = 3 ∧ (pllUp 1#32 3 1).bit Reg.MPLL_ACQ 8 = true) := by unfold RegsWf; decide

theorem test_witness_SteeringAndClockOutputs : (up []).bit Reg.TIME_CTRL 0 = false ∧ (up [(Reg.TIME_CTRL, 1#32)]).bit Reg.TIME_CTRL 0 = true ∧
    RegsWf (up []) ∧
    (let s := pllUp 1#32 1 2
     let fw := fun (x : BitVec 48) => { s with clock := { s.clock with fw := x } }
     mpllState s = 1 ∧ s.tick.pending = false ∧ (mpllCfgBad ((fw 0x20000000000#48).setReg Reg.MNCO_ADJ_NOW 1024#32) = false) ∧
       mpllCfgBad ((fw 1#48).setReg Reg.MNCO_ADJ_NOW 1024#32) = true) := by unfold RegsWf; decide
theorem test_effect_adjustment_limit : (after (.mncoAdjWrite ⟨0x7FFFFFFF#32, 0⟩) (up [])).reg Reg.MNCO_ADJ = 219902325#32 ∧
    (after (.mncoAdjWrite ⟨0x7FFFFFFF#32, 0⟩) (up [])).reg Reg.MPLL_STATUS = 0x200#32 := by decide

/-! ### Ethernet and time -/

/-- A port with its receive and transmit sides on, its link up at 1 Gbit/s full duplex, and one short frame waiting in queue 7. -/
def ethUp (p ctrl stat : Nat) (x : EthPort) : State :=
  let s := up [(Reg.ETH_CTRL p, BitVec.ofNat 32 ctrl), (Reg.ETH_STATUS p, BitVec.ofNat 32 stat)]
  putEth s p x

def waiting : TxEntry := ⟨[[1#8]], false, false, 0#16, false, false, 0, 0#32, false⟩

theorem test_witness_EthernetLinksAndControl :
    (let s := up []
     RegsWf s ∧ (∀ p < 3, ethAnyEn s p = false) ∧ (∀ p < 3, ethCfgBad (s.setReg (Reg.ETH_CTRL p) 0#32) p = false) ∧
       (∀ p < 3, ∀ r ∈ mdioPins p ++ txPaths s p, resFree s r.1 r.2 (fnEth p) = true) ∧ s.bit (Reg.ETH_MDIO_CMD 1) 31 = false ∧
       mdioOwned s 1 0#32 = false ∧ ethPowered s = true ∧ ethLink s 1 = false) ∧
    (up [(Reg.ETH_MDIO_CMD 1, 0x84000000#32)]).bit (Reg.ETH_MDIO_CMD 1) 31 = true ∧ mdioOwned (up [(Reg.ETH_CTRL 1, 0x800#32)]) 1 9#32 = true ∧
    (let s := ethUp 1 0xC03 0xD EthPort.zero
     ethEn s 1 10 = true ∧ s.fld (Reg.ETH_CTRL 1) 2 2 ≠ 1 ∧ ethLink s 1 = true ∧ 1 ≤ ethSpeed s 1 ∧ reserved s 1 = false ∧ (ethAt s 1).now = none ∧
       s.bit (Reg.ETH_STATUS 1) 4 = false ∧ (∀ q < 8, vget (ethAt s 1).txq q [] = []) ∧ ethEn s 1 11 = true ∧
       s.bit (Reg.ETH_STATUS 1) 6 = false ∧ dsTarget s 1 < 3) ∧
    (let s := up [(Reg.ETH_CTRL 1, 0xC03#32), (Reg.ETH_STATUS 1, 0xD#32), (Reg.ETH_DS 1, 0x1000000#32)]
     ethLink s 1 = true ∧ dsTarget s 1 < ethSpeed s 1 ∧ reserved s 1 = false ∧ reserved (s.setReg (Reg.ETH_CBS_IDLE 1 1) 0x80000000#32) 1 = true) ∧
    ((up [(Reg.ETH_STATUS 1, 0x40#32)]).bit (Reg.ETH_STATUS 1) 6 = true ∧ ethPowered State.reset = false) := by unfold RegsWf; decide

/-- Port 1 downshifted, or in a transaction of its own, and one whose link has settled. -/
theorem test_witness_downshift :
    (let s := up [(Reg.ETH_CTRL 1, 0x800#32), (Reg.ETH_STATUS 1, 0x40#32)]
     s.bit (Reg.ETH_CTRL 1) 11 = true ∧ s.bit (Reg.ETH_STATUS 1) 6 = true ∧ (ethAt s 1).settle = false ∧ (ethAt s 1).own = [] ∧
       (0#32 : BitVec 32).extractLsb' 0 2 = 0#2 ∧ (0#32 : BitVec 32).getLsbD 11 = false) ∧
    (let s := ethUp 1 0x800 0x40 { EthPort.zero with own := [.save 2, .clear 0], settle := true, returning := true }
     ethPowered s = true ∧ (ethAt s 1).own = [.save 2, .clear 0] ∧ (ethAt s 1).swBus = false ∧ (ethAt s 1).returning = true) ∧
    (let s := up []
     ethPowered s = true ∧ s.fld (Reg.ETH_CTRL 1) 2 2 = 0 ∧ s.fld (Reg.ETH_CTRL 2) 2 2 = 0 ∧ (ethAt s 1).settle = false ∧
       ethLink (ethUp 1 0 1 EthPort.zero) 1 = true) := by decide

/-- A good frame of 64 bytes, of zeros but for its FCS. -/
def zeros : List Byte := List.replicate 60 0#8 ++ fcsOf (List.replicate 60 0#8)

/-- Port 1 at 1 Gbit/s, nothing waiting, with a descriptor in its transmit ring 7. -/
def ethRingUp : State :=
  let s := up [(Reg.ETH_CTRL 1, 3#32), (Reg.ETH_STATUS 1, 0xD#32), (Reg.RING_CFG 43, 0x11#32), (Reg.HOST_DOORBELL 43, 1#32)]
  s

theorem test_witness_EthernetFramesAndPairAudio :
    (let s := ethRingUp
     let x := (List.replicate 8 0#8) ++ [60#8, 0#8, 0#8, 0#8] ++ List.replicate 20 0#8
     RegsWf s ∧ ethEn s 1 0 = true ∧ ethPowered s = true ∧ 0 < ringReady s (txRing 1 7) ∧ txSrc s 1 7 = false ∧
       vget (ethAt s 1).txq 7 [] = [] ∧ descField x 8 4 / 2 ^ 20 % 8 = 0 ∧
       txTooLong s 1 7 ((List.replicate 60 0#8).take (descField x 8 4 % 2 ^ 20)) = false ∧
       ((List.replicate 60 0#8).take (descField x 8 4 % 2 ^ 20)).length ≤ s.fld (Reg.ETH_TXQ 1 7) 0 7 * 1024 ∧
       (hostGet s (ethMaster 1) 0 32 x false).2.1 = false) := by unfold RegsWf; decide

/-- A cut-through frame of 300 bytes, whose buffer empties after 256, and a port whose collision's wait runs. -/
theorem test_witness_ethernet_cut :
    (let g : TxEntry := { waiting with frames := [List.replicate 300 0#8] }
     let s := ethUp 1 3 0xD { EthPort.zero with txq := vset EthPort.zero.txq 7 [g] }
     [7, 6, 5, 4, 3, 2, 1, 0].find? (txEligible (creditsNow (elapse s 5) 1) 1) = some 7 ∧ vget (ethAt s 1).txq 7 [] = [g] ∧
       g.store = false ∧ ethFull s 1 = true ∧ (some 256#14).map BitVec.toNat = some 256 ∧ 256 < (g.frames.headD []).length ∧
       ethEn s 1 0 = true ∧ ethLink s 1 = true ∧ ethPowered s = true) ∧
    (let s := ethUp 1 3 3 { EthPort.zero with now := some ⟨0, [1#8], 0⟩, backoff := some 3 }
     (ethAt s 1).backoff.isSome = true ∧ ethFull (up []) 1 = false) := by decide +kernel
theorem test_witness_ethernet_starts :
    (let s := ethUp 1 3 0xD { EthPort.zero with txq := vset EthPort.zero.txq 7 [waiting] }
     (ethAt s 1).now = none ∧ s.bit (Reg.ETH_STATUS 1) 4 = false ∧
       [7, 6, 5, 4, 3, 2, 1, 0].find? (txEligible (creditsNow (elapse s 5) 1) 1) = some 7 ∧ vget (ethAt s 1).txq 7 [] = [waiting]) ∧
    (let s := { ethUp 2 3 5 EthPort.zero with t1s := { T1sState.zero with down := some [1#8] } }
     ethEn s 2 0 = true ∧ ethLink s 2 = true ∧ (ethAt s 2).now = none ∧ s.t1s.down = some [1#8]) ∧
    (let s := ethUp 1 3 3 { EthPort.zero with now := some ⟨0, [1#8], 0⟩, collisions := 14 }
     (ethAt s 1).now = some ⟨0, [1#8], 0⟩ ∧ ethFull s 1 = false ∧ (ethAt s 1).backoff = none ∧ (ethAt s 1).collisions + 1 < 16) := by decide
theorem test_witness_ethernet_receives :
    (let s := ethUp 1 3 0xD EthPort.zero
     ethEn s 1 1 = true ∧ rxClassify s 1 zeros = .queue 0 63 ∧ rxOccupied s 1 0 + ethMaxLen s 1 ≤ s.fld (Reg.ETH_RXQ 1 0) 0 8 * 1024 ∧
       rxBad s 1 zeros false false = none ∧ ringReady s (rxRing 1 0) = 0) ∧
    (let s := ethUp 1 3 0xD EthPort.zero
     rxBad s 1 (1#8 :: zeros) false true = some 16 ∧ rxClassify s 1 (1#8 :: zeros) = .unwanted) ∧
    (let s := up [(Reg.ETH_CTRL 2, 3#32), (Reg.ETH_STATUS 2, 1#32), (Reg.T1S_AUDIO, 0#32)]
     be16 zeros (etypeAt zeros) = s.fld Reg.T1S_AUDIO 1 16 ∧ ethEn s 2 1 = true ∧ ethLink s 2 = true ∧ ethPowered s = true ∧
       rxBad s 2 zeros false false = none) := by decide +kernel
theorem test_witness_pair_audio :
    (let s := up [(Reg.T1S_AUDIO, 1#32)]
     t1sRuns s = true ∧ acquiring s = false ∧ s.tick.sampleCnt.toNat % (64 * t1sRatio s) = 0 ∧ s.t1s.last ≠ some s.tick.sampleCnt ∧
       s.t1s.inbox = []) ∧
    (let f := List.replicate 14 0#8 ++ [2#8, 15#8] ++ List.replicate 44 0#8
     let o := f.drop (etypeAt f + 2)
     o.headD 0#8 = 2#8 ∧ (o.getD 1 0#8).toNat = 15 ∧ ({ T1sState.zero with up := 0x8000#16 } : T1sState).up.getLsbD 15 = true) := by decide

theorem test_witness_TimeStepsCapturesAndCompares :
    (let s := up [(Reg.TIME_CAP_CFG 3, 1#32), (Reg.TIME_CMP_CFG 1, 1#32), (Reg.TIME_CMP_PERIOD 1, 1000#32)]
     RegsWf s ∧ s.bit (Reg.TIME_CAP_CFG 3) 0 = true ∧ s.bit (Reg.TIME_CAP_CFG 0) 0 = false ∧ cmpEn s 1 = true ∧ cmpPast (elapse s 5) 1 = true ∧
       s.time.fired.getLsbD 1 = false ∧ cmpEn s 0 = false ∧ s.reg (Reg.TIME_CMP_PERIOD 1) ≠ 0#32 ∧ s.reg (Reg.TIME_CMP_PERIOD 0) = 0#32 ∧
       s.fld (Reg.TIME_CAP_CFG 3) 1 3 < 3 ∧ ¬ (up [(Reg.TIME_CAP_CFG 3, 7#32)]).fld (Reg.TIME_CAP_CFG 3) 1 3 < 3 ∧
       (∀ src < 8, ∀ r ∈ capClaims 0 src, resFree s r.1 r.2 fnTime = true) ∧ (∀ r ∈ cmpClaims 0, resFree s r.1 r.2 fnTime = true)) ∧
    cmpPast (elapse (up [(Reg.TIME_CMP_SEC 1, 1#32)]) 5) 1 = false := by unfold RegsWf; decide

/-! ### Media streams -/

/-- Transmit stream 63 gathers one sample a packet on port 0, queue 6, and a packet is due. -/
def stxUp (l : List (Nat × BitVec 32)) : State :=
  let s := up ((Reg.STX_CTRL 63, 1#32) :: l)
  putStx { s with tick := { s.tick with media := 9#64 } } 63 ⟨true, 8#64, [0#8, 0#8, 0#8], 1, 0#16, 0#16⟩

/-- An AVTP packet of stream 0 that receive stream 63 takes: one sample of one channel, 24 bits, at 48 kHz. -/
def avtp (stamp : BitVec 32) : List Byte :=
  List.replicate 12 0#8 ++ [0x22#8, 0xF0#8, 2#8, 1#8, 0#8, 0#8] ++ List.replicate 8 0#8 ++ beBytes 4 stamp.toNat ++
    [3#8, 0x50#8, 1#8, 24#8, 0#8, 3#8, 0#8, 0#8] ++ [1#8, 2#8, 3#8] ++ List.replicate 19 0#8

/-- Receive stream 63 in service, in the state given, with a packet in its filters' queue. -/
def srxUp (state : BitVec 32) (inbox : List (List Byte)) : State :=
  let s := up [(Reg.SRX_CTRL 63, 0x1000001#32), (Reg.SRX_STATE 63, state)]
  putSrx { s with stream := { s.stream with inbox := inbox } } 63 ⟨true, [], 256⟩

theorem test_witness_MediaStreams :
    (let s := up []
     RegsWf s ∧ (s.reg (Reg.STX_CTRL 63)).getLsbD 0 = false ∧ stxBad s 63 = true ∧
       stxBad (s.setReg (Reg.ETH_TXQ 0 6) 0x101#32) 63 = false ∧ srxBad (s.setReg (Reg.SRX_CTRL 63) 0xFF080#32) 63 = true) ∧
    (let s := stxUp [(Reg.ETH_STATUS 0, 0xD#32), (Reg.MEM_BANK_OWNER 0, 0xF000F#32)]
     let x := stxAt s 63
     (s.reg (Reg.STX_CTRL 63)).getLsbD 0 = true ∧ x.count = stxP s 63 ∧ x.start + BitVec.ofNat 64 x.count = s.tick.media ∧
       streamsWait s = false ∧ ethLink s 0 = true ∧ stxPort s 63 = 0 ∧ vget (ethAt s 0).txq (stxQueue s 63) [] = [] ∧
       (yardReadBytes s masterStream 0 (stxHdrLen s 63)).2.1 = false ∧
       stxHdrLen s 63 + x.samples.length ≤ s.fld (Reg.ETH_TXQ 0 (stxQueue s 63)) 0 7 * 1024) ∧
    ethLink (stxUp []) 0 = false ∧
    ((srxAt (srxUp 2#32 []) 63).on = true ∧ (srxUp 2#32 []).fld (Reg.SRX_STATE 63) 0 2 = 2 ∧ (srxUp 2#32 []).stream.inbox = []) := by
  unfold RegsWf; decide +kernel
theorem test_witness_stream_packets :
    (let s := srxUp 3#32 [avtp 100000#32]
     let f := (avtp 100000#32).take ((avtp 100000#32).length - 4)
     s.rate = 48000 ∧ srxMatch s f = some 63 ∧ streamsWait s = false ∧
       (streamParse f 1 3 48000).map (fun p => (p.good, p.payload.length, packetTick s 63 p)) = some (true, 3, 5) ∧
       s.fld (Reg.SRX_STATE 63) 0 2 = 3) ∧
    (let s := { srxUp 3#32 [[]] with stream := { StreamState.zero with inbox := [[]] } }
     srxMatch s [] = none) := by decide +kernel

/-! ### The host interface -/

/-- Rings 0 and 1 enabled, of 2^4 entries, with one entry ready in each. -/
def cmdUp (l : List (Nat × BitVec 32)) : State :=
  up ([(Reg.RING_CFG 0, 0x11#32), (Reg.RING_CFG 1, 0x11#32), (Reg.HOST_DOORBELL 0, 1#32), (Reg.HOST_DOORBELL 1, 1#32)] ++ l)

/-- A COMMIT command held. -/
def heldUp (h : CommitWait) : State := let s := cmdUp []; { s with host := { s.host with held := some h } }

theorem test_witness_CompletionsOfCommands :
    (let s := cmdUp []
     RegsWf s ∧ hostLocal s = false ∧ s.bit (Reg.RING_CFG 0) 1 = false ∧ s.bit (Reg.RING_CFG 1) 1 = false ∧ cmdReady s = true ∧
       cmdReady (up []) = false ∧ cmdBarred s 0x20 = none) ∧
    (let s := cmdUp [(Reg.BOOT_STATUS, 0x80#32)]
     inSafe s = true ∧ cmdReady s = true ∧ cmdBarred s 0x20 = some (stNotInSafe, 0) ∧ cmdBarred s 0x50 = none) ∧
    (let u := { cmdUp [] with boot := { BootState.zero with lc := 4#3 } }
     cmdReady u = true ∧ cmdBarred u 0x20 = some (stRefused, 8)) := by unfold RegsWf; decide

/-- Every opcode's command runs on those rings in host mode, all the host tags having been in use. -/
theorem test_witness_commands_run : ∀ op ∈ [1, 2, 0x10, 0x11, 0x12, 0x13, 0x20, 0x21, 0x22, 0x30, 0x31, 0x40, 0x41, 0x50, 0x7F],
    let g : Command := { opcode := BitVec.ofNat 16 op, tag := 5#16, arg2 := 1#32 }
    Runs (cmdUp [(Reg.HOST_TAGS, 0x1000000#32)]) g g (cmdFetch (cmdUp [(Reg.HOST_TAGS, 0x1000000#32)]) g).2 := by
  intro op h
  refine ⟨by decide, rfl, ?_⟩
  revert op
  decide +kernel

/-- The same in local mode, ring 0 at the start of the yard's byte view, whose first slot holds a NOP of tag 9 or cannot be read. -/
def localUp (owner base : BitVec 32) : State :=
  let s := cmdUp [(Reg.HOST_CTRL, 1#32), (Reg.RING_BASE_LO 0, base), (Reg.MEM_BANK_OWNER 0, owner)]
  { s with yard := [(0, 0x90001#36)] }

theorem test_witness_local_commands :
    (let s := localUp 0xB000B#32 0x10000000#32
     let slot := hostGet s masterHost (ringSlot s 0 (ringCi s 0)) 32 [] false
     hostLocal s = true ∧ cmdReady s = true ∧ slot.2.1 = false ∧ descField slot.1 0 2 = 1 ∧
       ∃ c, (cmdFetch s { opcode := 1#16, tag := 0#16 }).1 = some c ∧ c.tag = 9#16 ∧ cmdBarred (cmdFetch s { opcode := 1#16, tag := 0#16 }).2 1 = none) ∧
    (let s := localUp 0xB000B#32 0#32
     cmdReady s = true ∧ (hostGet s masterHost (ringSlot s 0 (ringCi s 0)) 32 [] false).2.1 = true ∧ (cmdBuffer s 0#64 4 []).2.1 = some 0 ∧
       (cmdBuffer s 0x10000000#64 4 []).2.1 = none) := by
  refine ⟨⟨by decide +kernel, by decide +kernel, by decide +kernel, by decide +kernel, ⟨1#16, 9#16, 0, 0, 0, 0, 0, 0⟩, ?_, rfl, ?_⟩, ?_⟩ <;>
    decide +kernel

theorem test_witness_commit_waits :
    (let h : CommitWait := ⟨1#16, 0#16, 2#4, true, 0#64, 0#64, 1#64, 9#64, false⟩
     (heldUp h).host.held = some h ∧ h.late = 0#64 ∧ h.live = 0#64 ∧ h.refused ≠ 0#64 ∧ ringReady (heldUp h) 1 ≠ 0 ∧ h.frame ≠ 0#64) ∧
    (let h : CommitWait := ⟨1#16, 0#16, 2#4, true, 1#64, 0#64, 0#64, 9#64, false⟩
     ¬ (h.late = 0#64 ∧ (h.wait = false ∨ h.live = 0#64))) := by decide

theorem test_witness_HostMoves :
    (let s := cmdUp []
     wordRange 0x7FFFFF 1 = true ∧ wordsWait s 0x7FFFFF 1 = false ∧ wordRange 0x7FFFFF 0 = false ∧ yardRange 0x11FFFFFF 1 = true ∧
       bytesWait s 0x11FFFFFF 1 = false ∧ yardRange 0x11FFFFFF 2 = false ∧ flashRange 0x11FFFFFF 2 = false ∧
       flashRange 0x7FFFFF 1 = true ∧ bytesWait s 0x7FFFFF 1 = false ∧ (policyBad []).isSome = true) ∧
    bytesWait (cmdUp [(Reg.FL_STATUS, 1#32)]) 0x7FFFFF 1 = true ∧ wordsWait (cmdUp [(Reg.MEM_STATUS, 0x100#32)]) 0 1 = true ∧
    bytesWait (cmdUp [(Reg.MEM_STATUS, 0x100#32)]) 0x11FFFFFF 1 = true := by decide

theorem test_witness_HostChanges :
    (let s := cmdUp []
     cmdBarred s 0x20 = none ∧ commitReads s 25 = false ∧ (setAt s 25).copying = false ∧
       (commitRefused (s.setFld (commitReg 25) 4 4 0) 25 0#4 false).isNone = true ∧ isRunMode 7#3 = true ∧
       modeReason s 7#3 false 0#4 = 0 ∧ modeReason s 2#3 true 0#4 ≠ 0 ∧ Memory.wf s = true ∧ s.bit Reg.FL_STATUS 0 = false ∧
       flashRefusal s false 0x100000 = 0 ∧ flashRefusal s true 0x100000 = 0 ∧ s.power.phase = .running ∧ s.tick.entered = true) ∧
    (cmdUp [(Reg.FL_STATUS, 1#32)]).bit Reg.FL_STATUS 0 = true ∧ slotOf 0x100000 = some 0 ∧
    ({ cmdUp [] with boot := { BootState.zero with slot := some 0 } }).boot.slot = slotOf 0x100000 := by decide

theorem test_witness_HostLinkAndRings :
    (let s := cmdUp []
     ringEn s 53 = false ∧ (s.reg (Reg.RING_BASE_LO 53)).toNat % min 4096 (32 * 16) = 0 ∧ (∀ a : Fin 16, 53 ≠ 4 + a.val) ∧
       inSafe s = false ∧ s.power.phase = .running ∧ ringExists 53 = true ∧ s.host.held = none ∧
       (∀ x, txQueueOf 53 = some x → txOwed s x.1 x.2 = []) ∧ hostLocal s = false ∧ ringEn s 0 = true ∧ rxQueueOf 0 = none ∧
       (16 + 65536 - ringCi s 0) % 65536 ≤ ringSize s 0 ∧ ringSize s 0 < (17 + 65536 - ringCi s 0) % 65536 ∧
       (ringPi s 0 + 65536 - ringCi s 0) % 65536 ≤ 16 ∧ (0 + 65536 - ringCi s 0) % 65536 < (ringPi s 0 + 65536 - ringCi s 0) % 65536 ∧
       irqPendHost s = 0#32 ∧ (s.host.modRun.getLsbD 63) = false) ∧
    (let s := cmdUp []
     let t := { s with host := { s.host with modRun := BitVec.ofNat 64 (2 ^ 63), modPend := BitVec.ofNat 64 (2 ^ 63) } }
     t.host.modRun.getLsbD 63 = true ∧ t.host.modPend.getLsbD 63 = true) ∧
    (let s := up [(Reg.HOST_VEC_AGG, 0x11F#32), (Reg.SYS_IRQ_EN_HOST, 0xFFFFFFFF#32), (Reg.SYS_STATUS, 1#32)]
     let t := { s with host := { s.host with pci := plainPci, msix := [(127, 0#32)] } }
     irqPendHost t ≠ 0#32 ∧ t.bit Reg.HOST_VEC_AGG 8 = true ∧ hostLocal t = false ∧ t.host.pci.msixOn = true ∧ t.host.pci.funcMask = false ∧
       (msixWord t (4 * t.fld Reg.HOST_VEC_AGG 0 5 + 3)).getLsbD 0 = false) := by decide +kernel
theorem test_witness_local_mode : hostLocal (cmdUp [(Reg.HOST_CTRL, 1#32)]) = true ∧ anyRingEn (cmdUp []) = true ∧ anyRingEn (up []) = false := by
  decide +kernel

/-- Audio ring 7 and its AOUT ring in service, in the given states. -/
def audUp (l : List (Nat × BitVec 32)) (i o : AudRing) : State :=
  let s := up ([(Reg.RING_CFG 11, 0x11#32), (Reg.RING_CFG 19, 0x11#32)] ++ l)
  putAud (putAud s 7 i) 15 o

theorem test_witness_HostAudioRings :
    (let i : AudRing := { AudRing.zero with on := true, fetched := [(0, List.replicate 64 1#8)] }
     let o : AudRing := { AudRing.zero with on := true, ended := [⟨3, 0#64, [1#8], 1, false, true⟩] }
     let s := audUp [(Reg.HOST_DOORBELL 19, 1#32)] i o
     let x := audAt s 7
     RegsWf s ∧ audRuns s 7 = true ∧ x.begun = false ∧ ringEn s 11 = true ∧ 4 * audCh s 7 * audPeriod s 7 = 64 ∧
       x.fetched = [(x.period, List.replicate 64 1#8)] ∧ (audAt s 15).ended = [⟨3, 0#64, [1#8], 1, false, true⟩] ∧ (audAt s 15).owed = [] ∧
       ringReady s 19 ≠ 0 ∧ hostLocal s = false ∧ s.bit (Reg.RING_CFG 19) 1 = false) ∧
    (let s := audUp [(Reg.HOST_DOORBELL 11, 1#32)] { AudRing.zero with on := true } AudRing.zero
     (audAt s 7).fetched = [] ∧ (audAt s 7).owed = [] ∧ ringReady s 11 ≠ 0 ∧ ringReady s 19 = 0 ∧ (audAt s 15).ended = []) ∧
    (let s := audUp [(Reg.HOST_CTRL, 1#32), (Reg.HOST_DOORBELL 11, 1#32), (Reg.MEM_BANK_OWNER 0, 0xB000B#32), (Reg.RING_BASE_LO 11, 0x10000000#32)]
       { AudRing.zero with on := true } { AudRing.zero with on := true, ended := [⟨3, 0#64, [1#8], 1, false, false⟩] }
     let t := { s with yard := [(0, 0x10000000#36)] }
     let d := hostGet t masterHost (ringSlot t 11 (ringCi t 11)) 32 [] false
     hostLocal t = true ∧ (audAt t 7).owed = [] ∧ ringReady t 11 ≠ 0 ∧ d.2.1 = false ∧
       (hostGet d.2.2 masterHost (descField d.1 0 8) 64 [] false).2.1 = false ∧ ringReady t 19 = 0) ∧
    audRuns (audUp [] AudRing.zero AudRing.zero) 7 = false := by unfold RegsWf; decide +kernel

/-! ### The yard, the engine windows and the tack room -/

/-- An access of a master that nothing holds. -/
def served (s : State) (m : Nat) (x : Access) : Bool := !masterWaits s m && !accessWaits s m x
theorem served_of_check (s : State) (m : Fin 18) (x : Access) (h : served s m.val x = true) : Served s m x := by
  simpa [Served, served] using h

theorem test_witness_YardAccesses :
    (let s := up []
     served s 1 (.writeWord 0x7FFFFF#24 1#36) = true ∧ served s 1 (.readWord 0x7FFFFF#24) = true ∧ yardAdmits s 1 0x7FFFFF = true ∧
       RegsWf s ∧ YardWf s) ∧
    (let s := up [(Reg.MEM_BANK_OWNER 31, 0x20002#32)]
     served s 1 (.writeWord 0x7FFFFF#24 1#36) = true ∧ served s 1 (.readWord 0x7FFFFF#24) = true ∧ yardAdmits s 1 0x7FFFFF = false) := by
  unfold RegsWf YardWf; decide
theorem test_witness_yard_bytes :
    (let s := up []
     yardAdmitsBytes s 1 0x1FFFFFF 1 = true ∧ Memory.wf s = true ∧ served s 1 (.writeBytes 0x11FFFFFF#32 [some 1#8]) = true) ∧
    (let s := { up [(Reg.MEM_CTRL, 1#32)] with wb := [(3, true)], ecc := [(3, 1#2), (4, 2#2)] }
     Cells.read (fun _ => false) s.wb 3 = true ∧ s.mark 3 = 1#2 ∧ Cells.wf zeroAt s.ecc = true ∧ Cells.read (fun _ => false) s.wb 4 = false ∧
       s.bit Reg.MEM_CTRL 0 = true ∧ s.mark 4 = 2#2 ∧ 4 % 0x40000 / 4 = 1) ∧ (up [(Reg.MEM_CTRL, 0#32)]).bit Reg.MEM_CTRL 0 = false := by decide

theorem test_witness_WindowWrites :
    (let s := up []
     rexShadows s 15 = false ∧ bexShadows s 7 = false ∧ rillClosed s 15 = false ∧ basinClosed s 7 = false ∧
       served s 16 (.writeWord (BitVec.ofNat 24 (rillWin 15 + 0x20000 + 98303)) 0#36) = true ∧ pageInUse s 15 2 = false ∧
       served s 16 (.writeWord (BitVec.ofNat 24 (basinWin 7 + 0x40000 + 65535)) 0#36) = true ∧ halfInUse s 7 true = false ∧
       served s 16 (.writeWord (BitVec.ofNat 24 (rillWin 15 + 0x38000 + 21247)) 0#36) = true ∧ s.bit (Reg.RILL_CTRL 15) 1 = false ∧
       stageBusy s 15 = false ∧ served s 16 (.writeWord (BitVec.ofNat 24 (0xFA0000 + 202751)) 0#36) = true ∧
       s.bit Reg.FABRIC_CTRL 0 = false ∧ stageBusy s 25 = false) ∧
    (let s := { rillUp [(Reg.RILL_CTRL 15, 2#32)] 0#36 with sets := vset State.reset.sets 15 { setAt State.reset 15 with committed := true } }
     pageInUse s 0 0 = true ∧ stageBusy s 15 = true ∧ s.bit (Reg.RILL_CTRL 15) 1 = true) ∧
    halfInUse (basinUp 7 []) 7 false = true := by decide
theorem test_witness_spare_windows :
    (let s := up []
     let t := up [(Reg.FAR_TARGET, 0x2020#32)]
     rillClosed s 16 = false ∧ basinClosed s 8 = false ∧ rexParked s = true ∧ bexParked s = true ∧ rexParked t = false ∧ bexParked t = false ∧
       rillClosed t 16 = false ∧ basinClosed t 8 = false ∧
       served s 16 (.writeWord (BitVec.ofNat 24 (rillWin 16 + 0x20000 + 98303)) 0#36) = true ∧
       served t 16 (.writeWord (BitVec.ofNat 24 (rillWin 16 + 0x20000 + 98303)) 0#36) = true ∧
       served s 16 (.writeWord (BitVec.ofNat 24 (basinWin 8 + 0x40000 + 65535)) 0#36) = true ∧
       served t 16 (.writeWord (BitVec.ofNat 24 (basinWin 8 + 0x40000 + 65535)) 0#36) = true) := by decide
theorem test_witness_window_clashes :
    (let s := rillUp [(Reg.FAR_TARGET, 5#32), (Reg.RILL_CTRL 0, 0#32)] 0#36
     let t := { s with sets := vset s.sets 0 { setAt s 0 with copying := true } }
     rexShadows t 0 = false ∧ rillClosed t 0 = false ∧ stageBusy t 0 = true ∧ t.bit (Reg.RILL_CTRL 0) 1 = false) := by decide

theorem test_witness_BankHandover :
    (let s := up []
     served s 11 (.writeBytes (BitVec.ofNat 32 (Reg.MEM_BANK_OWNER 31)) ((leBytes 16#32 4).map some)) = true ∧ bankPending s 31 = false ∧
       16 ≠ bankCur s 31) ∧
    (let s := up [(Reg.MEM_BANK_OWNER 31, 0x10110#32)]
     RegsWf s ∧ bankPending s 31 = true ∧ bankOf 0x7C0000 = 31 ∧ bankOf 0x7FFFFF = 31 ∧ s.bit (Reg.MEM_BANK_ATTR 31) 1 = false ∧ s.heldAcc = [] ∧
       debugOpen s = false) := by unfold RegsWf; decide

theorem test_witness_TackRoom :
    (let s := up []
     RegsWf s ∧ served s 1 (.writeBytes 0x20003FFC#32 ((leBytes 1#32 4).map some)) = true ∧ s.bit Reg.MEM_STATUS 9 = false ∧
       s.power.tamperLow = false ∧ s.bit Reg.TACK_CTRL 0 = false ∧ Memory.wf s = true ∧ debugOpen s = false ∧
       served s 1 (.readBytes 0x20003FFC#32 4) = true ∧ tackShut s = false) ∧ (∀ w, tackMark (up []) w = 0#2) ∧
    (let s := up [(Reg.TACK_CTRL, 1#32)]
     s.bit Reg.TACK_CTRL 0 = true ∧ served s 1 (.writeBytes 0x20003FFC#32 ((leBytes 1#32 4).map some)) = true ∧
       served s 17 (.writeBytes 0x20000000#32 ((leBytes 1#32 1).map some)) = true) ∧
    (up [(Reg.MEM_STATUS, 0x200#32)]).bit Reg.MEM_STATUS 9 = true := ⟨by unfold RegsWf; decide, fun _ => rfl, by decide, by decide⟩

theorem test_witness_DefaultTargetAndHeldAccesses :
    (let s := up []
     RegsWf s ∧ noTarget s 1 0xFFFFFFFF false false = true ∧ served s 1 (.readBytes 0xFFFFFFFF#32 1) = true ∧ s.heldAcc = [] ∧
       memClearing s = false ∧ debugOpen s = false ∧ s.bit Reg.HOST_CTRL 1 = false) ∧
    (let s := up [(Reg.MEM_STATUS, 0x100#32), (Reg.BOOT_STATUS, 0x80000#32)]
     memClearing s = true ∧ served s 1 (.writeWord 0#24 0#36) = false ∧ debugOpen s = true) := by unfold RegsWf; decide

/-! ### The control serial port -/

/-- The serial port as master or slave, in the given state. -/
def cspUp (l : List (Nat × BitVec 32)) (x : CspState) : State := { up l with csp := x }

theorem test_witness_SerialMaster :
    (let s := up []
     RegsWf s ∧ s.bit Reg.CSP_CTRL 0 = false ∧ s.bit Reg.CSP_M_STATUS 16 = false ∧ s.csp.sel = false ∧ (∀ i < 9, resFree s 0 (94 + i) fnCsp = true) ∧
       Memory.wf s = true ∧ s.csp.tx.length < 64 ∧ s.csp.rx = []) ∧
    (let s := { up [] with claims := [(94, BitVec.ofNat 8 fnGpio)] }
     ¬ ∀ i < 9, resFree s 0 (94 + i) fnCsp = true) ∧
    (let s := cspUp [(Reg.CSP_CTRL, 1#32), (Reg.CSP_M_PHASE, 0x00620604#32)] State.reset.csp
     s.bit Reg.CSP_CTRL 0 = true ∧ s.fld Reg.CSP_M_PHASE 6 6 ∈ [0, 8, 16, 24, 32] ∧ 8 * min 2 (s.fld Reg.CSP_M_PHASE 2 2) % 2 ^ s.fld Reg.CSP_M_PHASE 0 2 = 0 ∧
       s.fld Reg.CSP_M_PHASE 6 6 % 2 ^ s.fld Reg.CSP_M_PHASE 4 2 = 0 ∧ 8 * 65536 % 2 ^ s.fld Reg.CSP_M_PHASE 20 2 = 0 ∧
       s.bit Reg.CSP_M_PHASE 22 = true) ∧
    (let s := cspUp [(Reg.CSP_M_STATUS, 0x10000#32), (Reg.CSP_M_PHASE, 0x400000#32)] { State.reset.csp with left := 4 }
     s.bit Reg.CSP_M_STATUS 16 = true ∧ s.bit Reg.CSP_M_PHASE 22 = true ∧ 4 ≤ s.csp.left ∧ s.csp.rx = []) ∧
    (let s := cspUp [(Reg.CSP_M_STATUS, 0x10000#32)] { State.reset.csp with left := 256, tx := List.replicate 64 0#32 }
     s.bit Reg.CSP_M_STATUS 16 = true ∧ s.csp.left ≠ 0 ∧ s.csp.tx = 0#32 :: List.replicate 63 0#32 ∧
       s.bit Reg.CSP_M_PHASE 22 = false ∧ s.csp.left ≤ 256 ∧ s.csp.left ≤ 4 * s.csp.tx.length ∧ 64 ≤ s.csp.tx.length) := by
  unfold RegsWf; decide

/-- A slave write to the yard in progress, with `left` host words to come. -/
def txnAt (off left : Nat) : CspTxn := ⟨true, true, off, some 0x7FFFFF, left, false, false, false, false, 0⟩

theorem test_witness_SerialSlave :
    (let s := cspUp [] { State.reset.csp with sel := true, cfg := 8#32, txn := some (txnAt 0x7FFFFF 33) }
     RegsWf s ∧ s.csp.txn = some (txnAt 0x7FFFFF 33) ∧ accessWaits s 11 (.readBytes 0x11FFFFFC#32 4) = false ∧
       s.csp.cfg.getLsbD 3 = true ∧ s.csp.role = none ∧ Memory.wf s = true) ∧
    yardAdmits (up [(Reg.MEM_BANK_OWNER 31, 0xB000B#32)]) 11 0x7FFFFF = true ∧ (up []).mark 0x7FFFFF = 0#2 ∧
    (∃ l, (txnAt 0x800000 2).last = some l ∧ l < (txnAt 0x800000 2).off) ∧
    (let s := cspUp [] { State.reset.csp with sel := true, role := some true }
     s.csp.txn = none ∧ s.csp.cfg.getLsbD 3 = false ∧ inSafe s = false ∧ (∀ i < 9, resFree s 0 (94 + i) fnCsp = true) ∧
       s.bit Reg.CSP_CTRL 0 = false) :=
  ⟨by unfold RegsWf; decide, by decide, by decide, ⟨0x7FFFFF, rfl, by decide⟩, by decide⟩

/-! ### Boot, flash and one-time-programmable memory -/

/-- Sixteen bytes of slot B's flash from offset `a`. -/
def granule (a : Nat) (l : List Byte) : Cells Byte :=
  ([0, 1, 2, 3, 4, 5, 6, 7, 8, 9, 10, 11, 12, 13, 14, 15].zip l).map fun x => (0x390000 + a + x.1, x.2)

/-- Reset held with an image in slot B whose 16 body bytes are erased ones: SEQ 7, entry 0, VALID and ACTIVE, and more; or one at the start
of the yard, its body zeros. -/
def slotUp (l : List (Nat × BitVec 32)) (more : Cells Byte) : State :=
  let s := st l
  let z := List.replicate 16 0#8
  let crc := leNat 4 (crc32c (List.replicate 16 0xFF#8)).toNat
  { s with boot := { s.boot with
      flash := granule 0 [0x31#8, 0x53#8, 0x54#8, 0x4B#8, 1#8, 0#8, 0#8, 0#8, 7#8, 0#8, 0#8, 0#8, 16#8, 0#8, 0#8, 0#8] ++ granule 0x10 (crc ++ z) ++
        granule 0xC0 z ++ granule 0xD0 z ++ granule 0xE0 z ++ granule 0xF0 z ++ granule 0x100 (List.replicate 16 0xC0#8) ++
        granule 0x110 (List.replicate 16 0xD0#8) ++ more } }
def yardUp : State :=
  let crc := (crc32c (List.replicate 16 0#8)).toNat
  let s := up [(Reg.BOOT_STATUS, 0x83#32)]
  { s with yard := [(0, 0x4B545331#36), (1, 1#36), (2, 7#36), (3, 16#36), (4, BitVec.ofNat 36 crc)] }

theorem test_witness_StartsOfImages :
    (let s := slotUp [] []
     RegsWf s ∧ s.power.phase = .held ∧ s.boot.lcReq = none ∧ s.boot.otpFault = false ∧ s.boot.lc.toNat ≤ 1 ∧ s.fld Reg.PWR_RST 0 8 ≠ 0x16 ∧
       s.boot.safeReq = none ∧ slotCandidate s 1 = true ∧ slotCandidate s 0 = false ∧ checksPass s (slotImage s 1) = true ∧
       slotConfirmed s 1 = false ∧ attempts s 1 = [] ∧ marker s 1 0x140 0xB0#8 true = false ∧ s.boot.failSlot ≠ some (1, slotSeq s 1)) := by
  unfold RegsWf; decide +kernel
theorem test_witness_confirmed_image :
    (let s := slotUp [(Reg.BOOT_FAILCNT, 3#32)] (granule 0x120 (List.replicate 16 0xE0#8))
     let t := { s with boot := { s.boot with failSlot := some (1, slotSeq s 1) } }
     slotCandidate t 1 = true ∧ checksPass t (slotImage t 1) = true ∧ slotConfirmed t 1 = true ∧ 3 ≤ t.fld Reg.BOOT_FAILCNT 0 4) ∧
    (slotCandidate (st []) 0 = false ∧ slotCandidate (st []) 1 = false) := by decide +kernel
theorem test_witness_yard_image : inSafe yardUp = true ∧ yardUp.boot.lc ≠ 4#3 ∧ checksPass yardUp (yardImage yardUp 0) = true ∧
    checksPass yardUp (yardImage yardUp 256) = false := by decide +kernel

/-- An image runs that has not yet written STARTED, with a policy of no rules in the journal. -/
def startedUp : State :=
  let s := up [(Reg.BOOT_STATUS, 5#32)]
  let b := journalBytes 2 1 (List.replicate 8 0#8) (List.replicate 8 0#8)
  let o := journalBase - 0x390000
  { s with boot := { s.boot with slot := some 1, armed := true, flash := granule o (b.take 16) ++ granule (o + 16) (b.drop 16) } }

theorem test_witness_starts_of_images_continued : startedUp.boot.slot.isSome = true ∧ startedUp.bit Reg.FAR_STATUS 10 = true ∧
    startedUp.boot.armed = true ∧ (storedPolicy startedUp).isSome = true ∧ startedUp.bit Reg.BOOT_STATUS 2 = true ∧
    storedPolicy (up []) = none ∧ startedUp.sup.named = none ∧ (up []).bit Reg.FAR_STATUS 10 = true ∧
    (let s := { up [] with boot := { BootState.zero with slot := some 1 } }
     s.boot.slot.isSome = true ∧ storedPolicy s = none ∧ s.sup.named = none) ∧ startedUp.boot.slot = some 1 ∧ (up []).boot.slot = none ∧ (up []).power.phase = .running ∧
    (0xA5000008#32).extractLsb' 24 8 = 0xA5#8 ∧ (0x4C430004#32).extractLsb' 16 16 = 0x4C43#16 := by decide +kernel

theorem test_witness_LifeCycleFieldsOutsideTheirStates :
    (let s := { up [] with boot := { BootState.zero with lc := 2#3 } }
     1 < s.boot.lc.toNat ∧ served s 1 (.writeBytes 0x40030018#32 ((leBytes 4#32 4).map some)) = true ∧
       served s 1 (.writeBytes 0x40030024#32 ((leBytes 4#32 4).map some)) = true) ∧ (4#32).getLsbD 2 = true := by decide
theorem test_witness_OtpAndFlashController :
    (let s := { up [(Reg.FL_ADDR, 0x100000#32)] with boot := { BootState.zero with lc := 1#3 } }
     RegsWf s ∧ vget s.boot.keys 3 none = none ∧ s.boot.key ≠ some 3 ∧ flashRefusal s false (s.fld Reg.FL_ADDR 0 23) = 0 ∧
       flashRefusal s true (s.fld Reg.FL_ADDR 0 23) = 0 ∧ Memory.wf s = true ∧ s.heldAcc = [] ∧ s.power.stbyWait = false ∧ s.boot.op = none) ∧
    flashRefusal (up [(Reg.FL_ADDR, 0x100001#32)]) false 0x100001 ≠ 0 ∧
    (let b := { BootState.zero with op := some (0x100000, false), key := some 3, keys := vset BootState.zero.keys 3 (some 0#256) }
     let s := { up [(Reg.FAR_SPARES, 0x613FF#32)] with boot := { b with lc := 2#3 } }
     sparesLeft s kindFlash 0 = 0 ∧ s.boot.op = some (0x100000, false) ∧ s.boot.key = some 3 ∧ (vget s.boot.keys 3 none).isSome = true ∧ s.boot.lc.toNat = 2) := by unfold RegsWf; decide

/-! ### Supervisor and farrier -/

/-- The rule table holds one rule in a state. -/
def ruleUp (r : Rule) (x : RuleState) : State :=
  let s := up [(Reg.SUP_CTRL, 1#32)]
  { s with sup := { s.sup with rules := [r], states := [x] } }
def shedRule : Rule := ⟨0, 0, 0, true, true, 0, 0, 0, 1, 5⟩

/-- The farrier of rill or basin roles in a phase. -/
def farUp (target : BitVec 32) (spares : BitVec 32) : State :=
  up [(Reg.FAR_CTRL, 0xF#32), (Reg.FAR_TARGET, target), (Reg.FAR_SPARES, spares), (Reg.CLK_STATUS, 1#32)]

theorem test_witness_SupervisorAndFarrier :
    (let s := ruleUp shedRule (.fired none)
     s.bit Reg.SUP_CTRL 0 = true ∧ s.power.phase = .running ∧ inSafe s = false ∧ s.sup.rules = [shedRule] ∧ s.sup.next = none ∧
       shedRule.en = true ∧ shedRule.action = 1 ∧ s.bit Reg.SUP_STATE 15 = false ∧ min 16 (shedRule.arg % 32) ≠ vget s.sup.levels 7 16) ∧
    (let s := up [(Reg.SUP_CTRL, 1#32)]
     s.sup.rules = [] ∧ s.sup.next = none ∧ s.bit Reg.SUP_CTRL 0 = true ∧
       ({ s with sup := { s.sup with next := some ⟨[], 10, false⟩ } }).sup.next = some ⟨[], 10, false⟩) ∧
    (let s := farUp 0#32 0x713FF#32
     RegsWf s ∧ s.bit Reg.FAR_CTRL 1 = true ∧ s.tick.entered = true ∧ s.listen = false ∧ acquiring s = false ∧ farPhase s farBasin = 0 ∧
       s.bit Reg.FAR_CTRL 4 = false ∧ farNext (rillUp [] 0#36) farRill 0 = some 0 ∧ s.bit Reg.FAR_CTRL 2 = true ∧
       0 < sparesLeft s kindLane 7 ∧ s.far.laneMove = [] ∧ s.bit Reg.FAR_CTRL 3 = true ∧ 0 < sparesLeft s kindBank 0 ∧ migrating s = false ∧
       s.bit (Reg.MEM_BANK_MAP 31) 6 = false ∧ s.bit Reg.FAR_STATUS 10 = true ∧ s.bit Reg.FAR_RETIRED_R 15 = false ∧ farSpare s farRill = true ∧
       s.fld (Reg.MEM_BANK_MAP 31) 0 6 < 32) ∧
    (up [(Reg.FAR_CTRL, 0x10#32)]).bit Reg.FAR_CTRL 4 = true := by unfold RegsWf; decide +kernel
theorem test_witness_farrier_phases :
    (let s := farUp 0x1710#32 0x713FF#32
     farPhase s farRill = 1 ∧ farPhase s farBasin = 1 ∧ basinIdle s (farRole s farBasin) = true) ∧
    (let s := farUp 0x3730#32 0x713FF#32
     farPhase s farRill = 3 ∧ farMove s farRill = none ∧ farSpare s farRill = true ∧ farPhase s farBasin = 3 ∧ farSpare s farBasin = true) ∧
    farSpare (farUp 0#32 0x713FE#32) farRill = false ∧
    (let s := farUp 0x3730#32 0x713FE#32
     farPhase s farRill = 3 ∧ farMove s farRill = none ∧ farSpare s farRill = false) ∧
    (let s := farUp 0#32 0x71003#32
     s.bit Reg.FAR_CTRL 2 = true ∧ sparesLeft s kindLane 7 = 0 ∧ 7 ∉ s.far.engineMove) ∧ farNext (up []) farRill 0 = none ∧
    ((0x80000100#32).extractLsb' 4 6).toNat = farRill.roles ∧ (up []).bit Reg.FAR_RETIRED_R 16 = false ∧ sparesLeft (farUp 0#32 0x713FF#32) kindBank 0 = 4 ∧
    (let s := farUp 0#32 0x703FF#32
     sparesLeft s kindBank 0 = 0 ∧ s.far.worn.getLsbD 31 = false ∧ s.bit Reg.FAR_CTRL 3 = true) ∧
    (up [(Reg.MEM_BANK_MAP 31, 0x5F#32)]).bit (Reg.MEM_BANK_MAP 31) 6 = true ∧ (st [(Reg.MEM_BANK_MAP 31, 0x5F#32)]).tick.entered = false ∧
    ((0x800000F0#32).getLsbD 31 = true ∧ ((0x800000F0#32).extractLsb' 4 6).toNat = 15) := by decide +kernel

/-! ### The tether -/

/-- Both links up on device 1 with the tether state given. -/
def tethUp (l : List (Nat × BitVec 32)) (t : TetherState) : State :=
  let s := up ([(Reg.TETH_CFG, 0x31#32), (Reg.TETH_PSTAT 0, 1#32), (Reg.TETH_PSTAT 1, 1#32)] ++ l)
  { s with tether := t }

theorem test_witness_TetherMessages :
    (let s := tethUp [] TetherState.zero
     RegsWf s ∧ s.tick.frameCnt.toNat % 16 = 0 ∧ s.bit (Reg.TETH_PSTAT 1) 0 = true ∧ (2#2).toNat ≠ s.fld Reg.TETH_CFG 0 2 ∧
       (up []).bit (Reg.TETH_PSTAT 1) 0 = false ∧ s.tether.rxq.length < 16 ∧ s.tether.push = [] ∧ s.tether.rxq = [] ∧
       (∀ q < 2, (tetherAt s q).queue.length < 16)) ∧
    (let h := 0x01120010#32
     let ty := (h.extractLsb' 0 8).toNat
     (0x10 ≤ ty ∧ ty ≤ 0x7F ∧ ¬ (0x15 ≤ ty ∧ ty ≤ 0x1F)) ∧ (h.extractLsb' 16 2).toNat = 2 ∧ h.getLsbD 20 = true ∧
       (min 252 (h.extractLsb' 8 8).toNat + 3) / 4 = 0 ∧ (min 252 ((0x0110#32).extractLsb' 8 8).toNat + 3) / 4 = 1) ∧
    (let t := { TetherState.zero with rxq := [[1#32, 2#32]], read := 1, push := [0x0510#32, 0#32], seen := [(2, 1)] }
     t.rxq = [1#32 :: [2#32]] ∧ t.read = [2#32].length ∧ t.push = 0x0510#32 :: [0#32] ∧ (2, 1) ∈ t.seen ∧
       (min 252 ((0x0510#32).extractLsb' 8 8).toNat + 3) / 4 = [0#32].length + 1) := by unfold RegsWf; decide

/-- The messages that a read finds: without a body, followed by one with a body, and one half read. -/
theorem test_witness_tether_reads :
    (let s := tethUp [] { TetherState.zero with rxq := [[7#32], [8#32, 9#32]], read := 1 }
     s.tether.rxq = [[7#32], 8#32 :: [9#32]] ∧ [9#32] ≠ [] ∧ s.tether.read = 1) ∧
    (let s := tethUp [] { TetherState.zero with rxq := [[7#32, 8#32]], read := 0 }
     s.tether.rxq = [7#32 :: [8#32]] ∧ s.tether.read < [8#32].length) ∧
    (let s := tethUp [] { TetherState.zero with ports := vset TetherState.zero.ports 1 { TetherPort.zero with rxOnSpare := some 3#2 } }
     s.bit (Reg.TETH_PSTAT 1) 0 = true ∧ (tetherAt s 1).rxOnSpare = some 3#2) ∧
    (let s := up [(Reg.TETH_CFG, 0x20#32)]
     let x := { TetherPort.zero with rxOnSpare := some 3#2 }
     s.bit (Reg.TETH_PSTAT 1) 0 = false ∧
       2 ≤ lanesWorking { x with fails := ~~~((0b11100#5).extractLsb' 0 4) &&& ~~~8#4, spareBad := false }) := by decide

theorem test_witness_TetherLinksAndAuthority :
    (let s := up [(Reg.TETH_CFG, 0x20#32)]
     s.bit Reg.TETH_CFG (4 + 1) = true ∧ s.listen = false ∧ inSafe s = false ∧ s.bit (Reg.TETH_PSTAT 1) 0 = false ∧ (tetherAt s 1).rxOnSpare = none ∧
       2 ≤ lanesWorking { tetherAt s 1 with fails := ~~~(0b11100#5).extractLsb' 0 4 }) ∧
    (let s := tethUp [] TetherState.zero
     let x := tetherAt s 1
     x.fails.getLsbD 3 = false ∧ x.rxOnSpare = none ∧ x.rxMove = none ∧ x.spareBad = false ∧ x.txOnSpare = none ∧ x.txMove = none ∧
       (members s).getLsbD 1 = true ∧ s.bit Reg.TETH_CFG 3 = false ∧ s.tether.hosts = 0#4 ∧ x.lost = false ∧ s.tether.sync = none) ∧
    (let p := { TetherPort.zero with txOnSpare := some 2#2, spareBad := true, lost := true, peerHello := true }
     let s := tethUp [(Reg.TETH_SYNC_FRAME, 2#32)] { TetherState.zero with ports := vset TetherState.zero.ports 1 p }
     let x := tetherAt s 1
     x.spareBad = true ∧ x.txOnSpare ≠ some 1#2 ∧ x.txMove.map Prod.fst ≠ some 1#2 ∧ x.txOnSpare ≠ none ∧ x.lost = true ∧ x.peerHello = true ∧
       0 < (s.reg Reg.TETH_SYNC_FRAME - 1#32 - s.tick.frameCnt.setWidth 32).toInt ∧
       ¬ 0 < ((1#32 : BitVec 32) - 1#32 - s.tick.frameCnt.setWidth 32).toInt) ∧
    (let s := tethUp [(Reg.SL_GMASK_LO 2, 0x2000000#32)] { TetherState.zero with sync := some (3#4, 1#32, true) }
     s.tether.sync = some (3#4, 1#32, true) ∧ s.tick.frameCnt.setWidth 32 = 1#32 - 1#32 ∧ (∀ j < 29, groupHas s 3 j = decide (j = 25)) ∧
       commitReads s 25 = false ∧ (commitRefused s 25 3#4 true).isNone = true) := by decide +kernel

/-! ### Power, pins and registers -/

/-- The hypotheses of ResetKindsAndWhatTheyKeep and StandbyWakesAndTheRealTimeClock. -/
theorem test_witness_power_and_resets :
    (let s := up [(Reg.PWR_CTRL, 8#32)]
     RegsWf s ∧ s.power.phase = .running ∧ s.boot.armed = false ∧ s.bit Reg.FL_STATUS 0 = false ∧ s.bit Reg.PWR_CTRL 3 = true ∧
       (0x5B#32).extractLsb' 0 8 = 0x5B#8 ∧ s.bit Reg.PWR_CTRL 5 = false) ∧
    startedUp.boot.armed = true ∧ (up [(Reg.FL_STATUS, 1#32)]).bit Reg.FL_STATUS 0 = true ∧ State.reset.power.phase = .held ∧
    (let s := up [(Reg.PWR_CTRL, 0x18#32)]
     let t := { s with power := { s.power with phase := .standby } }
     t.power.phase = .standby ∧ t.power.wake = 0#2 ∧ BitVec.ofNat 2 (1 + 2) ≠ 0#2 ∧
       ({ t with power := { t.power with wake := 2#2 } }).power.wake ≠ 0#2) ∧
    (let s := up []
     ({ s with power := { s.power with phase := .entering } }).power.phase = .entering ∧
       ({ s with power := { s.power with stbyWait := true } }).power.stbyWait = true) := by unfold RegsWf; decide

theorem test_witness_GeneralPurposePins :
    (let s := up []
     RegsWf s ∧ resFree s 0 123 fnGpio = true ∧ Memory.wf s = true) ∧
    resFree { up [] with claims := [(123, BitVec.ofNat 8 fnCsp)] } 0 123 fnGpio = false := by unfold RegsWf; decide

theorem test_witness_RegisterWrites :
    (let s := up []
     served s 1 (.writeBytes 0x40000000#32 ((leBytes 0#32 4).map some)) = true ∧ inRegBlock 0x40000010 = true ∧
       regClosed s 0x40000010 = false ∧ (regFind 0x40000010).isSome = true ∧ 0x40000010 / 0x10000 ∈ [0x4000, 0x4043, 0x4070, 0x40F0] ∧
       inRegBlock 0x4000FFFC = true ∧ regFind 0x4000FFFC = none ∧ regClosed s 0x4000FFFC = false ∧
       served s 1 (.writeBytes 0x4000FFFC#32 ((leBytes 0#32 4).map some)) = true) ∧
    regClosed (up [(Reg.FAR_SPARES, 0#32)]) (Reg.RILL_CTRL 16) = true ∧ inRegBlock (Reg.RILL_CTRL 16) = true := by decide +kernel

/-! ### Worked examples of the spec -/

/-- Chapter 03's example: 0.25 + 2^-36 stored with k = 0 under each rounding, and with k = 2. -/
theorem test_example_rounding :
    (let a := BitVec.ofInt 80 (2 ^ 69 + 2 ^ 35)
     ((storeReal a 0 0 0).w, (storeReal a 0 0 0).sat) = (0x200000000#36, false) ∧ (storeReal a 0 1 0).w = 0x200000000#36 ∧
       (storeReal a 0 2 0x80000000#32).w = 0x200000001#36 ∧ (storeReal a 0 2 0x7FFFFFFF#32).w = 0x200000000#36 ∧
       ((storeReal a 2 1 0).w, (storeReal a 2 1 0).sat) = (0x7FFFFFFFF#36, true)) := by decide

/-- Chapter 04's example: a circular line of 480 words from 4,096 at phase 40, and in the next interval. -/
theorem test_example_circular_line :
    (let d : Line := ⟨4096, 480, false⟩
     [0, 1, 479].map (lineAddr d 440) = [4136, 4137, 4135] ∧ [0, 1, 479].map (lineAddr d 441) = [4135, 4136, 4134]) := by decide

/-- Chapter 07's example: one lane of VNLMSU. -/
theorem test_example_vnlmsu :
    (let s := basinUp 0 []
     let t := putCore s 0 { coreOf s 0 with v := [(8, Word.ofHalves 0x10000#18 0#18), (16, Word.ofHalves 0x08000#18 0x10000#18),
                                                  (24, Word.ofHalves 0x04000#18 0x38000#18)] }
     (coreOf (after (.vnlmsu 0 (head false) ⟨0#3, 4#6, 1#6, 2#6, 3#6, 2#5⟩) t) 0).flights.head?) =
      some ⟨4, 0, 2, .v 4 0 0x3D003F000#36⟩ := by decide

/-- Chapter 16's example: an unaligned 32-bit read and write in a bank with EXT = 1. -/
theorem test_example_unaligned :
    (let s := { up [(Reg.MEM_BANK_ATTR 0, 1#32)] with yard := [(1, 0x088776655#36), (2, 0xFDDCCBBAA#36)] }
     (yardReadBytes s 1 6 4).1 = [0x77#8, 0x88#8, 0xAA#8, 0xBB#8] ∧
       (after (.yardByteWrite 1 6#25 [0x78#8, 0x56#8, 0x34#8, 0x12#8]) s).yard = [(1, 0x056786655#36), (2, 0xFDDCC1234#36)]) := by decide

/-- Chapter 17's examples: the phases of a quad-output read, and a read of four words from CSP_SL_CFG. -/
theorem test_example_quad_read :
    (let s := cspUp [(Reg.CSP_CTRL, 1#32), (Reg.CSP_M_PHASE, 0x00620604#32)] State.reset.csp
     [(2, 2), (6, 6), (14, 5), (20, 2), (22, 1)].map (fun f => s.fld Reg.CSP_M_PHASE f.1 f.2) = [1, 24, 8, 2, 1] ∧
       (after (.cspStart 0x80000100#32) s).bit Reg.CSP_M_STATUS 16 = true) := by decide +kernel
theorem test_example_read_past_the_end :
    (let read := fun (off left : Nat) (n : Nat) (passed : Bool) =>
       cspUp [(Reg.CSP_SL_CFG, 8#32)] { State.reset.csp with sel := true, txn := some ⟨false, false, off, some 0x18400E, left, passed, false, false, false, n⟩ }
     let first := after (.cspSlaveWord 0xA218400C#32 true) (cspUp [(Reg.CSP_SL_CFG, 8#32)] { State.reset.csp with sel := true })
     first.csp.out = 8#32 ∧ first.csp.txn = some ⟨false, false, 0x18400D, some 0x18400E, 5, false, false, false, false, 1⟩ ∧
       (after (.cspSlaveWord 0#32 true) (read 0x18400F 3 3 false)).csp.out = 0#32 ∧
       (after (.cspSlaveWord 0#32 true) (read 0x184010 2 3 true)).csp.out = 0xE8000003#32) := by decide +kernel

/-- Chapter 14's example: the ideal time of tick 3,000,000,006 at 48 kHz. -/
theorem test_example_stream_time : idealAt 3000000006 48000 = 62500000125000 := by decide

/-- Chapter 21's example: the pin that TDM_C's clock holds, asked for as a GPIO output. -/
theorem test_example_pin_conflict :
    (let s := after (.gpioCfgWrite 80 3#32) { up [] with claims := [(80, 5#8)] }
     s.reg Reg.SYS_CONFLICT = 0x0A050500#32 ∧ (s.reg (Reg.GPIO_CFG 80)).getLsbD 0 = false) := by decide

/-- Chapter 22's example: an unlisted offset in a block, read by the control core. -/
theorem test_example_unmapped_read :
    (let r := accessRun (up []) masterCcD (.readBytes 0x40100030#32 4)
     r.1.err = false ∧ r.1.bytes = List.replicate 4 0#8 ∧ r.2.reg Reg.SYS_UNMAPPED = 0x01100030#32) ∧
    (accessRun (up []) masterCcD (.readBytes 0x40000002#32 2)).1.bytes = [0x36#8, 0x18#8] ∧
    (accessRun (up []) masterCcD (.readBytes 0x40000002#32 4)).1.err = true ∧
    (accessRun (up []) masterCcD (.readBytes 0x40060000#32 4)).1.err = true := by decide

/-! ### Hypotheses, continued: waiting masters, the mode sequence, undefined encodings and data accesses -/

/-- Master 16 has an access that waits. -/
def queued (m : Nat) (s : State) : State := { s with heldAcc := [{ master := m, access := .readWord 0#24 }] }

theorem test_witness_masters_wait : masterWaits (up []) 1 = false ∧ masterWaits (queued 16 (up [])) 16 = true ∧
    masterWaits (queued 16 (up [])) 1 = false ∧ (up []).heldAcc = [] := by decide

theorem test_witness_mode_armed :
    (let s := inPhase .ready 0
     let t := { s with tick := { s.tick with pending := true } }
     t.tick.seq.phase = .ready ∧ t.tick.pending = true) ∧
    ((up []).tick.seq.goal = .mode ∧ (up []).tick.seq.phase ≠ .accepted ∧ groupWaits.tick.seq.goal = .mode ∧
      groupWaits.tick.entered = true ∧ inSafe groupWaits = false ∧ groupWaits.tick.pending = false) ∧
    (let s := up []
     let t := { s with tick := { s.tick with seq := { s.tick.seq with goal := .standby } } }
     t.tick.entered = true ∧ t.tick.seq.goal ≠ .mode ∧ t.tick.pending = false) := by decide

/-- Encodings that a core does not define, one of each kind, and one that it does. -/
theorem test_witness_undefined_encodings :
    let e := coreOf (basinUp 0 []) 0
    let d := coreOf (basinDelay 9) 9
    undefinedOn e (.snop 0 ⟨head false, 63⟩) ∧ undefinedOn e (.mnop 0 ⟨head false, 15⟩) ∧ undefinedOn e (.vnop 0 ⟨head false, 127⟩) ∧
      undefinedOn d (.br 9 (head false) ⟨0#5, 0#24⟩) ∧ undefinedOn d (.rfe 9 (head false)) ∧ undefinedOn e (.trap 0 (head false)) ∧
      undefinedOn e (.ldb8 0 (head false) (ms 2#5 0#19)) ∧ undefinedOn e (.ldv 9 (head false) (ms 2#5 0#19)) ∧
      ¬ undefinedOn e (.ldv 0 (head false) (ms 2#5 0#19)) ∧ ¬ undefinedOn e (.basinAdd 0 (head false) ⟨1#5, 2#5, 2#5, 0#14⟩) := by
  refine ⟨?_, ?_, ?_, ?_, ?_, ?_, ?_, ?_, ?_, ?_⟩ <;> simp only [undefinedOn] <;> decide
theorem test_witness_slot_commands : slotCmd (.ldb8 9 (head false) (ms 2#5 0#19)) = some (9, head false) ∧
    slotCmd (.vnop 0 ⟨head false, 127⟩) = some (0, head false) ∧ branchCmd (.rfe 9 (head false)) = some (9, head false) := ⟨rfl, rfl, rfl⟩

/-- Pair forms whose first or second row may not be read, or lies outside the local store. -/
theorem test_witness_pair_forms :
    (let e := coreOf (fetched 0 (basinUp 0 [])) 0
     let b := fun (a c : BitVec 5) => (sReg e a.toNat, pairAddr2 e ⟨6#6, a, 1#4⟩ ⟨7#6, c, 1#4⟩ 8)
     ¬ readable (b 4 2).1 ∧ readable (b 2 4).1 ∧ ¬ readable (b 2 4).2 ∧ ¬ readableRow (b 4 2).1 ∧ ¬ readableRow (b 2 4).2 ∧
       0x40000 ≤ engRow (b 4 2).1 ∧ 0x40000 ≤ engRow (b 2 4).2 ∧ readableRow (b 2 4).1) := by
  unfold readable readableRow; decide

/-- A control core whose S2 is the word address `a`, and its data port's accesses: each comes out as named. -/
def ccAt (a : Word) (l : List (Nat × BitVec 32)) : State :=
  let s := basinUp 9 l
  fetched 9 (putCore s 9 { coreOf s 9 with s := vset (coreOf s 9).s 2 a })
def fails (s : State) (x : Access) : Bool :=
  !masterWaits s masterCcD && !accessWaits s masterCcD x && ((accessRun s masterCcD x).1.err || dataUe s x)
def fine (s : State) (x : Access) : Bool :=
  !masterWaits s masterCcD && !accessWaits s masterCcD x && !(accessRun s masterCcD x).1.err && !dataUe s x

theorem test_witness_control_core_stores :
    fails (ccAt 0 [(Reg.MEM_BANK_OWNER 0, 0x50005#32)]) (.writeWord 0#24 0#36) = true ∧ fine (ccAt 0 []) (.writeWord 0#24 0#36) = true ∧
    fails (ccAt 0 [(Reg.MEM_BANK_OWNER 0, 0x50005#32)]) (.writeBytes 0x10000000#32 [some 0#8]) = true ∧
    accessWaits (ccAt 0 [(Reg.MEM_STATUS, 0x100#32)]) masterCcD (.writeWord 0#24 0#36) = true := by decide
theorem test_witness_control_core_reset :
    (let s := ccAt 0 []
     let x := Access.writeBytes (BitVec.ofNat 32 Reg.BOOT_SAFE_REQ) ((leBytes 0xA5000008#32 4).map some)
     fine s x = true ∧ (accessRun s masterCcD x).2.power.phase = .held) := by decide +kernel
theorem test_witness_control_core_pairs :
    (let s := ccAt 0 [(Reg.MEM_BANK_OWNER 1, 0x50005#32)]
     let u := (accessRun s masterCcD (.readWord 0#24)).2
     fine s (.readWord 0#24) = true ∧ u.power.phase ≠ .held ∧ fails u (.readWord 0x40000#24) = true ∧ fine u (.readWord 1#24) = true) ∧
    (let s := ccAt 0 [(Reg.MEM_BANK_OWNER 1, 0x50101#32)]
     fine s (.readWord 0#24) = true ∧ accessWaits (accessRun s masterCcD (.readWord 0#24)).2 masterCcD (.readWord 0x40000#24) = true) := by decide

theorem test_witness_ports_and_clocks_continued :
    (let s := up [(Reg.TDM_CTRL 3, 0x19#32), (Reg.ASRC_STATUS, 8#32)]
     asrcLocked s 3 = true ∧ ¬ ((2 ^ 26 - 1 : BitVec 32).toNat ≥ 2 ^ 26)) ∧
    (let s := { up [] with claims := [(89, BitVec.ofNat 8 fnGpio)] }
     (0x9#32).getLsbD 3 = true ∧ resFree s 0 89 fnClkOut = false ∧ resFree s 0 88 fnClkOut = true) := by decide

/-- Port 1 with a link, its utilisation below DOWN_PCT for 10 s, or with a window above UP_PCT while downshifted. -/
theorem test_witness_utilisation :
    (let s := ethUp 1 0xC03 0xF { EthPort.zero with util := { DsUtil.zero with low := 600 } }
     dsTarget s 1 < ethSpeed s 1 ∧ ethLink s 1 = true ∧ reserved s 1 = false ∧ (ethAt s 1).settle = false ∧ 10 * max 1 (s.fld (Reg.ETH_DS 1) 14 10) ≤ (utilNow s 1).low ∧ ethEn s 1 11 = true ∧ s.bit (Reg.ETH_STATUS 1) 6 = false) ∧
    (let s := ethUp 1 0xC03 0xD EthPort.zero
     ¬ 10 * max 1 (s.fld (Reg.ETH_DS 1) 14 10) ≤ (utilNow s 1).low) ∧
    (let s := ethUp 1 0xC03 0x4D { EthPort.zero with util := { DsUtil.zero with exceeded := true } }
     (ethAt s 1).util.exceeded = true ∧ s.bit (Reg.ETH_STATUS 1) 6 = true ∧ (ethAt s 1).settle = false) ∧
    (let s := ethUp 1 0xC03 0x4D EthPort.zero
     (ethAt s 1).util.exceeded = false ∧ reserved s 1 = false ∧ ethEn s 1 11 = true) ∧
    (let s := ethUp 1 0xC03 0xD EthPort.zero
     ethPowered s = true ∧ ethLink s 1 = true ∧ s.fld (Reg.ETH_CTRL 1) 2 2 ≠ 1) ∧ ethLink (up []) 1 = false := by decide

/-- A frame of 1,600 bytes queued at port 1, beyond its ETH_MAXLEN; and the short one, within it. -/
theorem test_witness_frame_lengths :
    (let g : TxEntry := { waiting with frames := [List.replicate 1600 0#8] }
     let s := ethUp 1 3 0xD { EthPort.zero with txq := vset EthPort.zero.txq 0 [g] }
     (ethAt s 1).now = none ∧ vget (ethAt s 1).txq 0 [] = [g] ∧ (∀ k < 8, k ≠ 0 → vget (ethAt s 1).txq k [] = []) ∧ g.drop = false ∧
       txTooLong s 1 0 (List.replicate 1600 0#8) = true) ∧
    (let s := ethUp 1 3 0xD { EthPort.zero with txq := vset EthPort.zero.txq 7 [waiting] }
     (∀ k < 8, ∀ e ∈ vget (ethAt s 1).txq k [], e.drop = true ∨ ∀ f ∈ e.frames, txTooLong s 1 k f = false)) ∧
    (let s := ethRingUp
     hostHolds s (ethMaster 1) (ringSlot s (txRing 1 7) (ringCi s (txRing 1 7))) 32 = false) ∧
    (let s := { up [(Reg.T1S_AUDIO, 1#32)] with t1s := { T1sState.zero with down := some [1#8] } }
     s.t1s.down.isSome = true ∧ s.t1s.waits = false) := by decide +kernel

theorem test_witness_refused_captures :
    (let s := { up [] with claims := [(92, BitVec.ofNat 8 fnGpio), (93, BitVec.ofNat 8 fnGpio), (90, BitVec.ofNat 8 fnGpio), (91, BitVec.ofNat 8 fnGpio)] }
     (∃ r ∈ cmpClaims 0, resFree s r.1 r.2 fnTime = false) ∧ (∃ src < 8, ∃ r ∈ capClaims 0 src, resFree s r.1 r.2 fnTime = false) ∧
       s.bit (Reg.TIME_CAP_CFG 0) 0 = false ∧ cmpEn s 0 = false) ∧
    timeDrives { up [] with claims := [(92, BitVec.ofNat 8 fnTime)] } 92 = true := by decide

/-! ### Hypotheses, continued: the host interface and memory -/

/-- Local mode with the yard held by its clear: the slot's read waits. -/
theorem test_witness_commands_wait :
    (let s := (localUp 0xB000B#32 0x10000000#32).setReg Reg.MEM_STATUS 0x100#32
     hostLocal s = true ∧ cmdReady s = true ∧ hostHolds s masterHost (ringSlot s 0 (ringCi s 0)) 32 = true ∧
       hostHolds s masterHost 0x10000000 4 = true) ∧
    (let s := localUp 0xB000B#32 0x10000000#32
     hostHolds s masterHost (ringSlot s 0 (ringCi s 0)) 32 = false ∧
       (hostGet s masterHost (ringSlot s 0 (ringCi s 0)) 32 [] false).2.1 = false ∧
       (2#16 : BitVec 16).toNat ≠ descField (hostGet s masterHost (ringSlot s 0 (ringCi s 0)) 32 [] false).1 0 2) ∧
    (let s := localUp 0xB000B#32 0#32
     hostHolds s masterHost (ringSlot s 0 (ringCi s 0)) 32 = false ∧ hostLocal s = true) ∧
    masterWaits (queued masterHost (cmdUp [])) masterHost = true ∧ modeRuns (cmdUp []) = true ∧ modeRuns (cmdUp [(Reg.BOOT_STATUS, 0x80#32)]) = false ∧
    (let s := (cmdUp [(Reg.HOST_TAGS, 0x1000000#32)])
     cmdBarred s 0x50 = none ∧ (5#16 : BitVec 16).toNat ∉ hostOpcodes) := by decide +kernel

theorem test_witness_host_link :
    (let s := up [(Reg.HOST_STATUS, 0xB#32)]
     s.fld Reg.HOST_STATUS 0 5 = 1 + (1#2 : BitVec 2).toNat * 2 + (1#2 : BitVec 2).toNat * 8 ∧ s.host.pba = 0#32 ∧ s.power.phase = .running) ∧
    ((1#2 : BitVec 2) ≠ 0#2 ∧ (1#2 : BitVec 2) ≠ 3#2 ∧ State.reset.power.phase ≠ .running ∧ LinkStop.d3hot ≠ LinkStop.flr) ∧
    (let s := up []
     let t := { s with host := { s.host with stopping := BitVec.ofNat 64 (2 ^ 53) } }
     t.host.stopping.getLsbD 53 = true ∧ ringEn t 53 = false ∧ t.host.held = none ∧ (∀ x, txQueueOf 53 = some x → txOwed t x.1 x.2 = []) ∧
       s.host.stopping.getLsbD 53 = false) := by decide +kernel
theorem test_witness_audio_fetch_waits :
    (let s := audUp [(Reg.HOST_CTRL, 1#32), (Reg.HOST_DOORBELL 11, 1#32), (Reg.MEM_BANK_OWNER 0, 0xB000B#32), (Reg.RING_BASE_LO 11, 0x10000000#32)]
       { AudRing.zero with on := true } AudRing.zero
     let t := s.setReg Reg.MEM_STATUS 0x100#32
     hostHolds s masterHost (ringSlot s 11 (ringCi s 11)) 32 = false ∧ hostHolds s masterHost 0x10000000 64 = false ∧
       hostHolds t masterHost (ringSlot t 11 (ringCi t 11)) 32 = true ∧ (audAt t 7).owed = [] ∧ ringReady t 11 ≠ 0) := by decide +kernel

/-- A handover of bank 31 with an access of its old owner outstanding. -/
theorem test_witness_handover_drains :
    (let s := up [(Reg.MEM_BANK_OWNER 31, 0x10110#32)]
     let t := { s with heldAcc := [{ master := 16, access := .readWord 0x7FFFFF#24, accepted := [31] }] }
     (∃ h ∈ t.heldAcc, 31 ∈ h.accepted) ∧ bankPending t 31 = true) := by decide
theorem test_witness_bar_requests :
    ((up []).host.d3 = false ∧ (up []).bit Reg.HOST_CTRL 1 = false ∧ (up [(Reg.BOOT_STATUS, 0x80000#32)]).boot.tap = .idcode) ∧
    4 < (3#25 : BitVec 25).toNat % 4 + 2 ∧ (3#25 : BitVec 25).toNat % 4 + 1 ≤ 4 ∧ (0x1000#25 : BitVec 25).toNat % 4096 = 0 := by decide
theorem test_witness_spare_stores :
    (let s := up []
     pageInUse s 16 2 = false ∧ halfInUse s 8 true = false) := by decide

/-- A trough writer holds a row that it has not yet stored. -/
theorem test_witness_row_waits :
    (let s := up []
     let t := { s with bus := { s.bus with troughs := [(0, { troughIdle 0 with held := [(5, 1#36)] })] } }
     yardReadHolds t 1 6 = true ∧ yardReadHolds t 1 8 = false ∧ yardHolds t 1 6 = false) := by decide

/-! ### Hypotheses, continued: the serial port, images, the farrier, the tether and power -/

/-- The CSP in the slave role, selected, in the given transaction, with `n` of its accesses waiting. -/
def slaveUp (l : List (Nat × BitVec 32)) (t : Option CspTxn) (n : Nat) : State :=
  let s := cspUp l { State.reset.csp with sel := true, cfg := 8#32, txn := t }
  { s with heldAcc := List.replicate n { master := 11, access := .readWord 0#24, slave := some true } }

theorem test_witness_serial_slave_continued :
    (let s := slaveUp [(Reg.MEM_STATUS, 0x100#32)] (some (txnAt 0x7FFFFF 33)) 0
     accessWaits s 11 (.writeBytes 0x11FFFFFC#32 ((leBytes 1#32 4).map some)) = true ∧ (s.heldAcc.filter fun h => h.slave.isSome) = [] ∧
       accessWaits s 11 (.readBytes 0x10000000#32 4) = true) ∧
    (let s := slaveUp [] (some (txnAt 0x7FFFFF 33)) 3
     (s.heldAcc.filter fun h => h.slave.isSome).length = 3 ∧ (s.heldAcc.filter fun h => h.slave.isSome) ≠ []) ∧
    ((slaveUp [] none 4).heldAcc.filter fun h => h.slave.isSome).length = 4 ∧
    (let s := slaveUp [(Reg.MEM_BANK_OWNER 0, 0xB000B#32)] none 0
     accessWaits s 11 (.readBytes 0x10000000#32 4) = false ∧ yardAdmits s 11 0 = true ∧ s.mark 0 = 0#2) ∧
    ({ txnAt 5 2 with under := true }).under = true ∧
    (let s := (up []).setReg Reg.CSP_CTRL 1#32
     s.bit Reg.CSP_CTRL 0 = true ∧ s.power.phase = .running) := by decide
theorem test_witness_serial_master_continued :
    cspSelected (up []) = false ∧ cspSelected (gpioEdge (up []) 103 false) = true ∧ (up []).csp.part = [] ∧
    (let s := cspUp [(Reg.CSP_M_STATUS, 0x10000#32), (Reg.CSP_M_PHASE, 0x400000#32)] { State.reset.csp with left := 4 }
     s.csp.left ≠ 0 ∧ s.csp.left ≤ 4 ∧ s.csp.rx.length < 64 ∧ (List.replicate 32 0#8).length = min 4 s.csp.left * (8 / 2 ^ s.fld Reg.CSP_M_PHASE 20 2)) ∧
    (cspUp [(Reg.CSP_M_STATUS, 0x10000#32), (Reg.CSP_M_PHASE, 0x400000#32)] State.reset.csp).csp.left = 0 := by decide
theorem test_effect_serial_word :
    (let s := cspUp [(Reg.CSP_CTRL, 1#32), (Reg.CSP_M_STATUS, 0x10000#32), (Reg.CSP_M_PHASE, 0x400000#32)] { State.reset.csp with left := 1 }
     (after (.mDone ([2, 0, 0, 0, 0, 0, 2, 2].map (BitVec.ofNat 8))) s).csp.rx = [0x83#32]) := by decide +kernel

/-- A journal that records one retirement, with the room shut or open, and a GO that waits. -/
def retiredUp : State :=
  let b := journalBytes 1 1 ([0#8, 3#8, 3#8, 1#8] ++ leNat 4 9) (List.replicate 8 0#8)
  let o := journalBase - 0x390000
  { startedUp with boot := { startedUp.boot with flash := granule o (b.take 16) ++ granule (o + 16) (b.drop 16) } }
theorem test_witness_journal_retirement : (∃ e, journalRetired retiredUp = [e]) ∧ retiredUp.far.inited = false ∧
    (if startedUp.far.inited then [] else journalRetired startedUp) = [] := by
  refine ⟨List.length_eq_one_iff.mp (by decide +kernel), by decide, by decide +kernel⟩
theorem test_witness_tack_and_go : tackShut (up []) = false ∧ memClearing yardUp = false ∧ (let s := yardUp.setReg Reg.MEM_STATUS 0x100#32; memClearing s = true ∧ inSafe s = true) := by decide
theorem test_witness_spare_sectors :
    (let b := { BootState.zero with op := some (0x100000, true) }
     b.op = some (0x100000, true) ∧ b.spareTable.length < 8) ∧
    (let b := { BootState.zero with op := some (0x100000, false), spareTable := List.replicate 8 (0, 128) }
     8 ≤ b.spareTable.length ∧ b.op = some (0x100000, false)) ∧
    (let s := { up [] with boot := { BootState.zero with key := some 7, lc := 1#3 } }
     s.boot.key ≠ some 3) ∧ (∃ c, c ∈ [Instr.programGranule 2, .eraseBlock 2]) := by
  refine ⟨by decide, by decide, by decide, ⟨_, List.mem_cons_self⟩⟩

theorem test_witness_farrier_continued :
    (let s := farUp 0x1710#32 0x713FF#32
     s.far.rillMem = false ∧ s.far.basinMem = false ∧ farCopied s farBasin = false ∧
       ({ s with far := { s.far with rillMem := true, rillCopied := true } }).far.rillMem = true) ∧
    (let s := farUp 0#32 0x713FF#32
     s.bit (Reg.FAR_LANE_MAP 7) 3 = false ∧ (∀ m ∈ s.far.laneMove, m.1 ≠ 7) ∧
       (up [(Reg.FAR_LANE_MAP 7, 8#32)]).bit (Reg.FAR_LANE_MAP 7) 3 = true ∧ (up []).bit Reg.FAR_CTRL 2 = false ∧
       (∀ k < farRill.roles, farPhys s (farRill.base + k) = k) ∧ (∀ k < farBasin.roles, farPhys s (farBasin.base + k) = k)) := by decide +kernel
theorem test_witness_bank_needs :
    (let s := { farUp 0#32 0x713FF#32 with far := { FarState.zero with bankLog := (List.replicate 65 (31, 0, false)) ++ [(31, 0, true)] } }
     s.fld Reg.FAR_BANK_CFG 0 16 < s.far.bankLog.countP (fun e => decide (e.1 = 31) && !e.2.2 && decide (s.time.cyc < e.2.1 + 393216000)) ∧
       (s.far.bankLog.any fun e => decide (e.1 = 31) && e.2.2) = true ∧ s.bit Reg.FAR_CTRL 3 = true ∧ migrating s = false ∧ 0 < sparesLeft s kindBank 0) ∧
    (let s := farUp 0#32 0x703FF#32
     let t := { s with far := { FarState.zero with bankLog := [(31, 0, true)], worn := 0x80000000#32 } }
     sparesLeft t kindBank 0 = 0 ∧ t.far.worn.getLsbD 31 = true ∧ t.power.phase = .running) ∧
    (let s := (farUp 0#32 0x713FF#32).setReg (Reg.MEM_BANK_MAP 2) 0x42#32
     migrating s = true ∧ s.bit (Reg.MEM_BANK_MAP 31) 6 = false ∧ (∀ e ∈ s.far.bankQueue, e.1 ≠ 31)) := by decide +kernel

/-- MODE for CONFERENCE at frame 3, from the leader, device 2, to every device. -/
theorem test_witness_tether_mode :
    (let s := tethUp [] { TetherState.zero with leader := some 2#2 }
     isFollower s = true ∧ s.tick.seq.phase = .idle ∧ s.tick.pending = false ∧ s.tether.leader = some 2#2 ∧ s.tether.rxq.length < 16 ∧
       isRunMode ((4#32).extractLsb' 0 3) = true ∧ ¬ ((4#32).extractLsb' 0 3 = 2#3 ∧ (4#32).getLsbD 4 = true) ∧
       3 ≤ ((3#32 : BitVec 32) - (s.tick.frameCnt.setWidth 32 + s.tether.ahead)).toInt) ∧
    ((0x01120811#32).extractLsb' 0 8).toNat = 0x11 ∧ (min 252 ((0x01120811#32).extractLsb' 8 8).toNat + 3) / 4 = 2 ∧
    (let s := tethUp [] { TetherState.zero with rxq := List.replicate 16 [7#32] }
     16 ≤ s.tether.rxq.length) := by decide
theorem test_effect_tether_mode :
    (let s := tethUp [] { TetherState.zero with leader := some 2#2 }
     (after (.tetherMessageReceive 0 (.firmware 0x01120811#32 [4#32, 3#32]) 0#32) s).tether.change = some (4#3, false, 3#32)) := by decide +kernel

theorem test_witness_tether_lanes :
    (let p := { TetherPort.zero with rxMove := some 3#2, txFails := 2#4, fails := 1#4 }
     let s := tethUp [] { TetherState.zero with ports := vset TetherState.zero.ports 1 p }
     let x := tetherAt s 1
     x.spareBad = false ∧ x.rxMove = some 3#2 ∧ x.txFails.getLsbD 1 = true ∧ x.txFails.getLsbD 2 = false ∧ x.fails.getLsbD 0 = true ∧
       x.txOnSpare = none ∧ x.txMove = none ∧ s.bit (Reg.TETH_PSTAT 1) 0 = true) ∧
    (let p := { TetherPort.zero with txOnSpare := some 2#2 }
     p.txOnSpare ≠ some 1#2 ∧ p.txMove.map Prod.fst ≠ some 1#2 ∧ p.txFails.getLsbD 1 = false ∧ p.txOnSpare ≠ none) := by decide
/-- A set of the group that keeps a commit with another, and an authority beyond this device. -/
theorem test_witness_sync_kept :
    (let s := tethUp [(Reg.SL_GMASK_LO 2, 0x2000000#32), (Reg.TETH_STATUS, 0x5000#32)]
       { TetherState.zero with sync := some (3#4, 1#32, true), hosts := 4#4 }
     let u := { s with sets := vset s.sets 25 { setAt s 25 with committed := true, group := 2#4 } }
     u.tether.sync = some (3#4, 1#32, true) ∧ u.tick.frameCnt.setWidth 32 = 1#32 - 1#32 ∧ (∀ j < 29, groupHas u 3 j = decide (j = 25)) ∧
       (setAt u 25).committed = true ∧ (setAt u 25).group ≠ 3#4 ∧ authorityDevice u ((u.reg Reg.TETH_STATUS).extractLsb' 12 4) = some 2 ∧
       (2 : Nat) ≠ u.fld Reg.TETH_CFG 0 2 ∧ (∀ q < 2, (tetherAt u q).queue.length < 16)) ∧
    (let s := tethUp [(Reg.TETH_STATUS, 0x4000#32)] { TetherState.zero with hosts := 4#4 }
     let attached := ((s.reg Reg.TETH_STATUS).extractLsb' 12 4 ||| members s) &&& s.tether.hosts
     attached.getLsbD 2 = true ∧ (∀ j < 2, attached.getLsbD j = false)) := by decide +kernel
theorem test_effect_sync_reply :
    (let s := tethUp [(Reg.SL_GMASK_LO 2, 0x2000000#32), (Reg.TETH_STATUS, 0x5000#32)]
       { TetherState.zero with sync := some (3#4, 1#32, true), hosts := 4#4 }
     let u := { s with sets := vset s.sets 25 { setAt s 25 with committed := true, group := 2#4 } }
     (tetherAt (after .syncCommit u) 0).queue = [.firmware 0x00090814#32 [0x00190413#32, 0#32]]) := by decide +kernel

theorem test_witness_standby_and_pins :
    (let s := up [(Reg.PWR_CTRL, 8#32)]
     s.tick.entered = true ∧ inSafe s = false ∧ inSafe (up [(Reg.PWR_CTRL, 8#32), (Reg.BOOT_STATUS, 0x80#32)]) = true) ∧
    (up []).bit Reg.PWR_CTRL 3 = false ∧ (up []).bit Reg.PWR_CTRL 4 = false ∧ Reg.SUP_PBLK 0 ≠ Reg.SUP_CTRL := by decide

end Sys2Proof.Tests
end

section
/-! ## Register writes that reach their register, and life-cycle fields

What a served 32-bit write of the control core or the host is at a listed register (section 22), and what a write of a life-cycle field
is in a state that does not permit it (R9). -/

namespace Sys2Proof.Machine

open Sys2Proof.Claims

/-! ### Register words on the crossbar -/

/-- The positional value of four bytes, to any base: with 256 in its place the kernel's check of the powers runs out of recursion depth. -/
theorem positional_four (base : Nat) (a b c d : Byte) :
    ([a, b, c, d].zipIdx.map fun p => p.1.toNat * base ^ p.2).sum =
      a.toNat + b.toNat * base + c.toNat * base ^ 2 + d.toNat * base ^ 3 := by
  simp [Nat.add_assoc]

/-- A 32-bit word is the little-endian value of its four bytes (R376). -/
theorem leWord_leBytes (v : BitVec 32) : leWord (leBytes v 4) = v := by
  have bytes : leBytes v 4 = [v.extractLsb' 0 8, v.extractLsb' 8 8, v.extractLsb' 16 8, v.extractLsb' 24 8] := rfl
  apply BitVec.eq_of_toNat_eq
  rw [bytes, leWord, positional_four, BitVec.toNat_ofNat]
  simp only [BitVec.extractLsb'_toNat, Nat.shiftRight_eq_div_pow]
  have := v.isLt
  omega

/-- A write without disabled bytes starts at its first byte and writes them all. -/
theorem enabledFrom_map_some (bs : List Byte) : enabledFrom (bs.map some) = (0, bs) := by
  cases bs <;> simp [enabledFrom]

/-- An address in a register block has the registers as its target. -/
theorem byteTarget_of_inRegBlock {a : Nat} (lo : 0x40000000 ≤ a) (hi : a < 0x41000000) (hb : inRegBlock a = true) :
    byteTarget a = .regs := by
  unfold byteTarget
  rw [if_neg (by omega), if_neg (by omega), if_neg (by omega), if_pos ⟨lo, hi, hb⟩]

/-- The control core and the host reach every register block (Table 16-5). -/
theorem byteRoute_regs {s : State} {m a n : Nat} (hm : m = masterCcD ∨ m = masterHost) (ht : byteTarget a = .regs) :
    byteRoute s m a n true = .regs := by
  have hr : byteReach s m a .regs true = true := by
    rcases hm with rfl | rfl <;> simp [byteReach]
  simp [byteRoute, ht, hr]

/-- A word write at an aligned listed offset of an open window is the write of its register (Table 22-4). -/
theorem regWriteBytes_word {s : State} {d : RegDesc} {a m : Nat} {v : BitVec 32} {slave : Bool} (hopen : regClosed s a = false)
    (hal : a % 4 = 0) (hd : regFind a = some d) : regWriteBytes s a (leBytes v 4) m slave = regWrite s d a v m slave := by
  have hr : a / 4 * 4 = a := by omega
  have hlen : (leBytes v 4).length = 4 := rfl
  have hcross : regCrosses a 4 = false := by simp [regCrosses, hal]
  simp [regWriteBytes, hr, hopen, hlen, hcross, hd, leWord_leBytes]

/-- The same write, entering byte space by the control core or the host. -/
theorem xWriteBytes_register {s : State} {d : RegDesc} {a m : Nat} {v : BitVec 32} {slave : Bool} (hm : m = masterCcD ∨ m = masterHost)
    (ht : byteTarget a = .regs) (hopen : regClosed s a = false) (hal : a % 4 = 0) (hd : regFind a = some d) :
    xWriteBytes s m a ((leBytes v 4).map some) slave = regWrite s d a v m slave := by
  have hne : (leBytes v 4).isEmpty = false := rfl
  simp [xWriteBytes, byteRoute_regs hm ht, enabledFrom_map_some, hne, regWriteBytes_word hopen hal hd]

/-- A served access of a master is performed at once, and its response reaches the master. -/
theorem masterAccess_served {s : State} {m : Fin 18} {x : Access} (h : Served s m x) :
    masterAccess s m.val x = { (accessRun s m.val x).2 with resp := vset (accessRun s m.val x).2.resp m.val (accessRun s m.val x).1 } := by
  obtain ⟨hw, ha⟩ := h
  simp [masterAccess, access, hw, ha, acceptedPending, accessDo, respond]

/-- REGISTER_WRITE is its master's write of the low bytes of `v`. -/
theorem exec_registerWrite {s : State} {m : Fin 18} {off : BitVec 24} {size : Fin 3} {v : BitVec 32} :
    exec (.registerWrite m off size v) s =
      done (masterAccess s m.val (.writeBytes (BitVec.ofNat 32 (0x40000000 + off.toNat)) ((leBytes v (2 ^ size.val)).map some))) := rfl

/-- A served REGISTER_WRITE of a word at a listed offset is the write of its register, and the answer reaches the master. -/
theorem exec_registerWrite_word {s : State} {m : Fin 18} {off : BitVec 24} {v : BitVec 32} {d : RegDesc} (hm : m ∈ [1, 11])
    (h : Served s m (.writeBytes (BitVec.ofNat 32 (0x40000000 + off.toNat)) ((leBytes v 4).map some)))
    (hb : inRegBlock (0x40000000 + off.toNat) = true) (hopen : regClosed s (0x40000000 + off.toNat) = false)
    (hal : (0x40000000 + off.toNat) % 4 = 0) (hd : regFind (0x40000000 + off.toNat) = some d) :
    exec (.registerWrite m off 2 v) s = .next (settle (State.answered m.val (regWrite s d (0x40000000 + off.toNat) v m.val false))) := by
  have hoff := off.isLt
  have ha : (BitVec.ofNat 32 (0x40000000 + off.toNat)).toNat = 0x40000000 + off.toNat := by
    rw [BitVec.toNat_ofNat]; omega
  have hmaster : m.val = masterCcD ∨ m.val = masterHost := by
    simp only [List.mem_cons, List.not_mem_nil, or_false] at hm
    rcases hm with rfl | rfl
    · exact .inl rfl
    · exact .inr rfl
  have hwrite := xWriteBytes_register (s := s) (v := v) (slave := false) hmaster
    (byteTarget_of_inRegBlock (by omega) (by omega) hb) hopen hal hd
  have hsize : 2 ^ (2 : Fin 3).val = 4 := rfl
  rw [exec_registerWrite, hsize, masterAccess_served h]
  simp only [accessRun, ha, hwrite, State.answered, done]

/-- A response reaches its master. -/
@[simp] theorem respOf_answered {m : Fin 18} {r : Bool × State} : respOf (State.answered m.val r) m = ⟨0#36, [], r.1⟩ :=
  vget_vset_same m.isLt

/-! ### Life-cycle fields outside their states (R9) -/

/-- SYS_STATUS.LC_REJECT stands in `u`, every other register reads as in `s`, and OTP and flash, with all else of the boot block, are as
in `s`. -/
def LcRejected (s u : State) : Prop := u.bit Reg.SYS_STATUS 0 = true ∧ RegsSameBut [Reg.SYS_STATUS] s u ∧ u.boot = s.boot

theorem lcRejected_lcReject {s : State} (hwf : RegsWf s) : LcRejected s (lcReject s) := by
  refine ⟨?_, fun a ha => ?_, State.raise_boot⟩
  · have hreg : (lcReject s).reg Reg.SYS_STATUS = s.reg Reg.SYS_STATUS ||| 1#32 := State.reg_setReg_same hwf
    simp [State.bit, hreg]
  · exact State.reg_setReg_other (by simpa using ha)

theorem LcRejected.trans {s t u : State} (hst : LcRejected s t) (htu : LcRejected t u) : LcRejected s u := by
  obtain ⟨-, hregs, hboot⟩ := hst
  obtain ⟨hbit, hregs', hboot'⟩ := htu
  exact ⟨hbit, fun a ha => (hregs' a ha).trans (hregs a ha), hboot'.trans hboot⟩

/-- The registers stay canonical when LC_REJECT is set. -/
theorem regsWf_lcReject {s : State} (hwf : RegsWf s) : RegsWf (lcReject s) := State.regs_setReg_wf hwf

@[simp] theorem lifeCycle_lcReject {s : State} : lifeCycle (lcReject s) = lifeCycle s := rfl

/-- PROG_HASH is rejected outside BLANK and DEVELOP. -/
theorem progHash_rejected {s : State} {k : Nat} (h : 1 < lifeCycle s) : progHash s k = lcReject s := if_pos h

/-- REVOKE is rejected outside DEVELOP and DEPLOYED. -/
theorem revokeKey_rejected {s : State} {k : Nat} (h : lifeCycle s ≠ 1 ∧ lifeCycle s ≠ 2) : revokeKey s k = lcReject s := if_pos h

/-- The commands of OTP programming are the requests themselves. -/
theorem exec_progHash {s : State} {k : Fin 4} : exec (.progHash k) s = .next (settle (progHash s k.val)) := rfl

theorem exec_revoke {s : State} {k : Fin 4} : exec (.revoke k) s = .next (settle (revokeKey s k.val)) := rfl

/-- A write of BOOT_OTP_CMD that sets PROG_HASH, REVOKE or both, each only where its state does not permit it. -/
theorem lcRejected_otpCommand {s : State} {v : BitVec 32} (hwf : RegsWf s) (hasks : v.getLsbD 2 = true ∨ v.getLsbD 3 = true)
    (hprog : v.getLsbD 2 = true → 1 < lifeCycle s) (hrev : v.getLsbD 3 = true → lifeCycle s ≠ 1 ∧ lifeCycle s ≠ 2) :
    LcRejected s (otpCommand s v) := by
  unfold otpCommand
  cases hp : v.getLsbD 2 <;> cases hr : v.getLsbD 3
  case false.false => rw [hp, hr] at hasks; simp at hasks
  case false.true => simpa [revokeKey_rejected (hrev hr)] using lcRejected_lcReject hwf
  case true.false => simpa [progHash_rejected (hprog hp)] using lcRejected_lcReject hwf
  case true.true =>
    have hrev' : lifeCycle (lcReject s) ≠ 1 ∧ lifeCycle (lcReject s) ≠ 2 := by simpa only [lifeCycle_lcReject] using hrev hr
    simpa [progHash_rejected (hprog hp), revokeKey_rejected hrev'] using
      (lcRejected_lcReject hwf).trans (lcRejected_lcReject (regsWf_lcReject hwf))

/-- A write in the page of the BOOT block goes to that block. -/
theorem regWrite_bootPage {s : State} {d : RegDesc} {a : Nat} {v : BitVec 32} {m : Nat} {slave : Bool} (ha : a / 0x10000 = 0x4003) :
    regWrite s d a v m slave = bootRegWrite s d a v m := by
  simp only [regWrite, ha]

/-- BOOT_WDT takes no write outside BLANK and DEVELOP. -/
theorem regWrite_bootWdt_rejected {s : State} {d : RegDesc} {v : BitVec 32} {m : Nat} {slave : Bool} (h : 1 < lifeCycle s) :
    regWrite s d Reg.BOOT_WDT v m slave = (false, lcReject s) := by
  have hn : ¬ lifeCycle s ≤ 1 := by omega
  rw [regWrite_bootPage rfl]
  unfold bootRegWrite
  rw [if_neg (by decide), if_neg (by decide), if_pos rfl, if_neg hn, ok]

/-- A write of BOOT_OTP_CMD runs its requests, and answers no error. -/
theorem regWrite_bootOtpCmd {s : State} {d : RegDesc} {v : BitVec 32} {m : Nat} {slave : Bool} :
    regWrite s d Reg.BOOT_OTP_CMD v m slave = (false, otpCommand s v) := by
  rw [regWrite_bootPage rfl]
  unfold bootRegWrite
  rw [if_neg (by decide), if_neg (by decide), if_neg (by decide), if_neg (by decide), if_pos rfl, ok]

/-- The registers of both fields are listed, in a block whose windows are always open. -/
theorem listed_lcRegister {s : State} {a : Nat} (ha : a = Reg.BOOT_WDT ∨ a = Reg.BOOT_OTP_CMD) :
    inRegBlock a = true ∧ regClosed s a = false ∧ a % 4 = 0 ∧ ∃ d, regFind a = some d := by
  rcases ha with rfl | rfl
  · exact ⟨rfl, rfl, rfl, _, rfl⟩
  · exact ⟨rfl, rfl, rfl, _, rfl⟩

/-- A served word write of either register whose register write answers no error and leaves `u` with LC_REJECT set: the master's response,
stored after it, is no error, and LC_REJECT stands. -/
theorem gives_lcRejected_of_regWrite {s u : State} {m : Fin 18} {off : BitVec 24} {v : BitVec 32} (hm : m ∈ [1, 11])
    (ha : 0x40000000 + off.toNat = Reg.BOOT_WDT ∨ 0x40000000 + off.toNat = Reg.BOOT_OTP_CMD)
    (hserved : Served s m (.writeBytes (BitVec.ofNat 32 (0x40000000 + off.toNat)) ((leBytes v 4).map some)))
    (hwrite : ∀ d, regWrite s d (0x40000000 + off.toNat) v m.val false = (false, u)) (hu : LcRejected s u) :
    Gives (.registerWrite m off 2 v) s fun t => LcRejected s t ∧ (respOf t m).err = false := by
  obtain ⟨hb, hopen, hal, d, hd⟩ := listed_lcRegister (s := s) ha
  have hexec := exec_registerWrite_word hm hserved hb hopen hal hd
  rw [hwrite] at hexec
  exact ⟨State.answered m.val (false, u), hexec, hu, by simp⟩

/-- Settles O49: each field's write is `lcReject`, and PROG_HASH with REVOKE in one write is `lcReject` twice. -/
theorem lifeCycleFieldsOutsideTheirStates : Obligations.LifeCycleFieldsOutsideTheirStates := by
  unfold Obligations.LifeCycleFieldsOutsideTheirStates
  intro s m v k hwf hm lc write rejects
  refine ⟨fun h hserved => ?_, fun hasks hprog hrev hserved => ?_, fun h => ?_, fun h1 h2 => ?_⟩
  · exact gives_lcRejected_of_regWrite hm (.inl rfl) hserved (fun _ => regWrite_bootWdt_rejected h) (lcRejected_lcReject hwf)
  · exact gives_lcRejected_of_regWrite hm (.inr rfl) hserved (fun _ => regWrite_bootOtpCmd) (lcRejected_otpCommand hwf hasks hprog hrev)
  · exact ⟨lcReject s, by rw [exec_progHash, progHash_rejected h], lcRejected_lcReject hwf⟩
  · exact ⟨lcReject s, by rw [exec_revoke, revokeKey_rejected ⟨h1, h2⟩], lcRejected_lcReject hwf⟩

end Sys2Proof.Machine
end

section
/-! ## A rill step whose guard is false

What an issued step leaves where its guard predicate is false and its step word is good (R75): the results due land, the step count moves
on, and the step's own effect is never computed, so nothing of it needs to be known. -/

namespace Sys2Proof.Machine

open Sys2Proof.Claims

/-! ### Results that land -/

@[simp] theorem RillEngine.land_step {e : RillEngine} {t : RillTarget} : (e.land t).step = e.step := by cases t <;> rfl

@[simp] theorem RillEngine.land_pageA {e : RillEngine} {t : RillTarget} : (e.land t).pageA = e.pageA := by cases t <;> rfl

/-- Landing results keeps the step count and the page in force. -/
theorem RillEngine.foldl_land_position {l : List RillFlight} {e : RillEngine} :
    (l.foldl (fun t x => t.land x.tgt) e).step = e.step ∧ (l.foldl (fun t x => t.land x.tgt) e).pageA = e.pageA := by
  induction l generalizing e with
  | nil => exact ⟨rfl, rfl⟩
  | cons x l ih => simpa using ih (e := e.land x.tgt)

@[simp] theorem RillEngine.landDue_step {e : RillEngine} {k : Nat} : (e.landDue k).step = e.step := foldl_land_position.1

/-- Landing results leaves the program-store index of every step where it was. -/
@[simp] theorem RillEngine.stepIndex_landDue {e : RillEngine} {k j : Nat} : (e.landDue k).stepIndex j = e.stepIndex j := by
  have page : (e.landDue k).pageA = e.pageA := foldl_land_position.2
  simp only [stepIndex, page]

/-! ### The step that has no effect -/

/-- What an issued step without effect leaves of its engine: the results due have landed, and the step count has moved on. -/
def RillEngine.passed (e : RillEngine) : RillEngine :=
  { e.landDue e.step with step := (e.landDue e.step).step + 1 }

/-- The step word engine `re` issues next, in engine state `e`, has no ECC mark on either of its two words (R104). -/
def StepWordGood (s : State) (re : Nat) (e : RillEngine) : Prop :=
  ∀ k < 2, s.mark (rillWin re + 0x20000 + 2 * e.stepIndex e.step + k) = 0#2

/-- The guard of a step with fields `f` is false in engine state `e`, as the step reads it (R110). -/
def GuardFalse (f : RillFields) (e : RillEngine) : Prop := rillPred (e.landDue e.step) f.g.toNat = f.gn

/-- A step effect that leaves the engine `e`, raises nothing and writes nothing, and records the good word read at `loc`. -/
def RillFx.quiet (e : RillEngine) (loc : Nat) : RillFx := { RillFx.none e with ecc := [(0#2, loc)] }

@[simp] theorem RillFx.quiet_clr {e : RillEngine} {loc : Nat} : (RillFx.quiet e loc).clr = [] := rfl

/-- With a good step word and a false guard the step's effect is quiet, whatever its body. -/
theorem rillStepFx_guardFalse {s : State} {re : Nat} {f : RillFields} {body : State → Nat → RillEngine → RillFx} {e : RillEngine}
    (hgood : StepWordGood s re e) (hguard : GuardFalse f e) :
    rillStepFx s re f body e = .quiet e.passed (rillLoc 1 (e.stepIndex e.step)) := by
  have first : s.mark (rillWin re + 0x20000 + 2 * e.stepIndex e.step) = 0#2 := by simpa using hgood 0 (by omega)
  have second : s.mark (rillWin re + 0x20001 + 2 * e.stepIndex e.step) = 0#2 := by
    have next_word : rillWin re + 0x20001 + 2 * e.stepIndex e.step = rillWin re + 0x20000 + 2 * e.stepIndex e.step + 1 := by omega
    rw [next_word]
    exact hgood 1 (by omega)
  unfold GuardFalse at hguard
  simp [rillStepFx, first, second, hguard, RillFx.quiet, RillFx.none, RillEngine.passed]

/-- A quiet effect changes its engine alone: no flag is raised, no ECC condition is cleared, and a good word is no ECC event. -/
theorem rillApply_quiet {s : State} {re loc : Nat} {e : RillEngine} :
    rillApply s re (.quiet e loc) = { s with rill := vset s.rill re e } := rfl

/-- Applying to an element a function that leaves it as it is changes nothing. -/
theorem vmod_eq_self {α : Type} {n i : Nat} {v : Vector α n} {g : α → α} (h : ∀ x, v[i]? = some x → g x = x) : vmod v i g = v := by
  unfold vmod
  split
  next x hx =>
    obtain ⟨hi, rfl⟩ := Vector.getElem?_eq_some_iff.mp hx
    rw [h _ hx]
    ext j hj
    simp +contextual [Vector.getElem_setIfInBounds]
  next => rfl

/-- Without a cistern write REX's copy stays as it is. -/
theorem rexRepeat_nil {s : State} {re : Nat} : rexRepeat s re [] = s := by
  have keeps : ∀ x, s.rill[16]? = some x → { x with cistern := (vget s.rill 16 RillEngine.zero).cistern } = x := by
    intro x hx
    rw [vget, hx, Option.getD_some]
  unfold rexRepeat
  split
  · simp [vmod_eq_self keeps]
  · rfl

/-- Issuing a step with a false guard: its engine passes it, and so does REX where it runs in step in the same state. -/
theorem rillStep_guardFalse {s : State} {re : Fin 16} {f : RillFields} {body : State → Nat → RillEngine → RillFx}
    (hissues : rillIssues s re.val (rillEng s re) = true) (hgood : StepWordGood s re.val (rillEng s re))
    (hrex : rexFollows s re.val = true → vget s.rill 16 RillEngine.zero = rillEng s re ∧ StepWordGood s 16 (rillEng s re))
    (hguard : GuardFalse f (rillEng s re)) :
    rillStep re f body s =
      let r := vset s.rill re.val (rillEng s re).passed
      { s with rill := if rexFollows s re.val then vset r 16 (rillEng s re).passed else r } := by
  have own := rillStepFx_guardFalse (body := body) hgood hguard
  unfold rillEng at *
  unfold rillStep
  cases hfollows : rexFollows s re.val with
  | false => simp [hissues, own, rillApply_quiet, rexRepeat_nil]
  | true =>
    obtain ⟨same, hgood16⟩ := hrex hfollows
    have shadow := rillStepFx_guardFalse (body := body) hgood16 hguard
    simp [hissues, own, same, shadow, rillApply_quiet, rexRepeat_nil]

/-- Every rill step command issues a step of its engine, with its fields. -/
theorem exec_eq_rillStep {c : Instr} {re : Fin 16} {f : RillFields} (hre : rillStepOf c = some re) (hf : rillFieldsOf c = some f) :
    ∃ body, ∀ s, exec c s = done (rillStep re f body s) := by
  cases c
  case rillNop | rillMov | rillAdd | rillSub | rillNeg | rillAbs | rillMin | rillMax | rillAnd | rillOr | rillXor | rillShl | rillShr
      | rillSel | rillCadd | rillCsub | rillConj | rillCpack | rillMova | rillMovax | rillLut | rillCmpeq | rillCmplt | rillCmple | rillPlog
      | rillLdc | rillStc | rillStcx | rillLdw | rillStw | rillStwx | rillAclr | rillLda | rillLdax | rillAdda | rillAddaC | rillAddax
      | rillAddaxC | macr | mack | macc | macw | tapm =>
    cases hre
    cases hf
    exact ⟨_, fun _ => rfl⟩
  all_goals cases hre

/-- Settles O12: the command is a step of its engine, and a step with a false guard leaves its engine as `RillEngine.passed`. -/
theorem rillGuardFalseHasNoEffect : Obligations.RillGuardFalseHasNoEffect := by
  unfold Obligations.RillGuardFalseHasNoEffect
  intro c s re f hre hf idx e r hissues hgood hrex hguard
  obtain ⟨body, hexec⟩ := exec_eq_rillStep hre hf
  exact ⟨rillStep re f body s, hexec s, rillStep_guardFalse hissues hgood hrex hguard⟩

end Sys2Proof.Machine
end
